-- ==== Sys2Proof/Word.lean ====
section
/-! DEFINITION. The word types of the device: bytes, halfwords, 32-bit words (registers, stack entries and
locals) and 64-bit values. -/

namespace Sys2Proof

/-- One byte of any memory of the device. -/
abbrev Byte := BitVec 8

/-- A 16-bit halfword: the unit of Opvis code (R71). -/
abbrev Half := BitVec 16

/-- A 32-bit word: an operand-stack entry, a local or a register (R46, R3). -/
abbrev Word := BitVec 32

/-- A 64-bit value: the time base, a pair of stack entries. -/
abbrev DWord := BitVec 64

/-- A global thread identifier: [10:7] frond, [6:3] core, [2:0] thread (R5). -/
abbrev Tid := BitVec 11

/-- A halfword address in an I-RAM bank (Table 03-1). -/
abbrev Pc := BitVec 13

end Sys2Proof
end

