-- ==== Sys2Proof/Syntax.lean ====
section
/-! DEFINITION. The commands of the device: one constructor per row of the opcode table. Rows of the Opvis
instruction set name the thread that issues them and carry the raw fields of Table 03-8, so that every encoding
of the instruction is a term; events carry what their occurrence tells the device. -/

namespace Sys2Proof

/-- The encoding form of an instruction that has a short and a long form (R59, R75): the 16-bit form with field
A, or the 32-bit form with field A and the extension. -/
inductive Form where
  | short (a : Byte)
  | long (a : Byte) (x : Half)
  deriving DecidableEq, Repr

/-- A party that reaches the registers: the PCIe host, the JTAG debug port (R511), or the resident time service while it owns the
registers that adjust the time base (R23). -/
inductive Party where
  | host | jtag | service
  deriving DecidableEq, Repr

/-- A frame of the rhizoid chain (Table 19-1) without its TYPE, which the command names, and without its CRC. -/
structure ChainFrame where
  dst : BitVec 5
  bcast : Bool
  src : BitVec 5
  seq : Byte
  hops : BitVec 6
  chan : Byte
  tag : Half
  payload : List Byte
  deriving DecidableEq, Repr

/-- Where a unit's command comes from: a register write by the host, or the head of the unit's queue in a frond's coprocessor
gateway (R204). -/
inductive Via where
  | reg (v : Word)
  | frond (f : Fin 16)
  deriving DecidableEq, Repr

/-- Which coprocessor command of a frond completes: a running one, by its place, or the head of a queue. -/
inductive CmdRef where
  | running (i : Nat)
  | head (k : Fin 5)
  deriving DecidableEq, Repr

/-- What the ECC of one DRAM access found (R403, R404): nothing, an error corrected in a device, one cleared by the re-read, one
that persists. -/
inductive Ecc where
  | clean
  | corrected (device : BitVec 4)
  | recovered
  | uncorrectable
  deriving DecidableEq, Repr

/-- Why a unit is fenced or a core's spare called (R483, R489, R490): the bound of the last abort has passed; an uncorrectable error in
the memory of a core (frond × 16 + core), at an address; corrected errors in one. -/
inductive FenceCause where
  | bound
  | coreError (k : Fin 256) (addr : Word)
  | coreCorrected (k : Fin 256) (n : Nat)
  deriving DecidableEq, Repr

/-- What happens to a lane (Table 21-5): it fails, or its FEC corrects symbols. -/
inductive LaneEvent where
  | failed
  | corrected (n : Nat)
  deriving DecidableEq, Repr

/-- A request of one 64-byte access to DRAM (R394): its requester by Table 16-2 (0 the real-time port, 1 to 16 the DMA ports of fronds 0 to
15, 17 the peat read port, 18 the host bulk port, 19 management) and its address. -/
structure DramReq where
  src : Fin 20
  addr : BitVec 48
  deriving DecidableEq, Repr

/-- What the configuration space presents or lets the host set (R422, R423, Table 18-1): the identity, the list of capabilities and
of extended capabilities by place, the halves of the serial number, and the controls that the base specification gives a function. -/
inductive CfgItem where
  | vendor | device | revision | classCode | subVendor | subsystem | headerType | interruptPin
  | capability (k : Fin 3) | extCapability (k : Fin 8) | serialLo | serialHi
  | busMaster | maxPayload | maxReadRequest | timeoutRange | powerState | functionReset | msixEnable | msixMask | msixSize
  deriving DecidableEq, Repr

/-- Where a party's access goes (Table 18-2): a byte offset in BAR0, a doubleword of BAR4, an item of the configuration space. -/
inductive Place where
  | bar0 (off : BitVec 25)
  | bar4 (dw : BitVec 14)
  | config (i : CfgItem)
  deriving DecidableEq, Repr


/-- The commands of the device (spec/opcode_table.json): one constructor per row. An operand with a default says what the row need not
bring: errors that a memory shows, requests that arrive with it, a writer other than the host. -/
inductive Instr where
  /-- DUP, R81: Pushes a copy of the top stack entry. -/
  | dup (t : Tid) (a : Byte)
  /-- DROP, R81: Pops and discards the top stack entry. -/
  | drop (t : Tid) (a : Byte)
  /-- SWAP, R81: Exchanges the top two stack entries. -/
  | swap (t : Tid) (a : Byte)
  /-- OVER, R81: Pushes a copy of the second stack entry. -/
  | over (t : Tid) (a : Byte)
  /-- ROT, R81: Rotates the third stack entry to the top. -/
  | rot (t : Tid) (a : Byte)
  /-- NIP, R81: Removes the second stack entry. -/
  | nip (t : Tid) (a : Byte)
  /-- PICK, R81: Pushes a copy of the entry k places below the top. -/
  | pick (t : Tid) (a : Byte)
  /-- LIT8, R81: Pushes a sign-extended 8-bit immediate. -/
  | lit8 (t : Tid) (a : Byte)
  /-- LIT16, R81: Pushes a zero-extended 16-bit immediate. -/
  | lit16 (t : Tid) (a : Byte) (x : Half)
  /-- LITH, R81: Replaces the high half of the top entry with an immediate. -/
  | lith (t : Tid) (a : Byte) (x : Half)
  /-- LDL, R52: Pushes local Ln. -/
  | ldl (t : Tid) (a : Byte)
  /-- STL, R52: Pops the top entry into local Ln. -/
  | stl (t : Tid) (a : Byte)
  /-- INCL, R52: Adds a signed immediate to local Ln. -/
  | incl (t : Tid) (f : Form)
  /-- ADD, R82: Adds the top two entries modulo 2^32. -/
  | add (t : Tid) (a : Byte)
  /-- SUB, R82: Subtracts the top entry from the second modulo 2^32. -/
  | sub (t : Tid) (a : Byte)
  /-- MUL, R82: Pushes the low 32 bits of the product. -/
  | mul (t : Tid) (a : Byte)
  /-- MULH, R82: Pushes the high 32 bits of the signed product. -/
  | mulh (t : Tid) (a : Byte)
  /-- MULHU, R82: Pushes the high 32 bits of the unsigned product. -/
  | mulhu (t : Tid) (a : Byte)
  /-- NEG, R82: Negates the top entry modulo 2^32. -/
  | neg (t : Tid) (a : Byte)
  /-- ABS, R82: Pushes the signed absolute value. -/
  | abs (t : Tid) (a : Byte)
  /-- MIN, R82: Pushes the signed minimum of two entries. -/
  | min (t : Tid) (a : Byte)
  /-- MAX, R82: Pushes the signed maximum of two entries. -/
  | max (t : Tid) (a : Byte)
  /-- MINU, R82: Pushes the unsigned minimum of two entries. -/
  | minu (t : Tid) (a : Byte)
  /-- MAXU, R82: Pushes the unsigned maximum of two entries. -/
  | maxu (t : Tid) (a : Byte)
  /-- AND, R82: Bitwise AND of two entries. -/
  | and (t : Tid) (a : Byte)
  /-- OR, R82: Bitwise OR of two entries. -/
  | or (t : Tid) (a : Byte)
  /-- XOR, R82: Bitwise XOR of two entries. -/
  | xor (t : Tid) (a : Byte)
  /-- NOT, R82: Bitwise complement of the top entry. -/
  | not (t : Tid) (a : Byte)
  /-- SHL, R83: Shifts left by an unsigned count, 0 for counts of 32 or more. -/
  | shl (t : Tid) (a : Byte)
  /-- SHR, R83: Shifts right with zero fill by an unsigned count. -/
  | shr (t : Tid) (a : Byte)
  /-- SAR, R83: Shifts right with sign fill by an unsigned count. -/
  | sar (t : Tid) (a : Byte)
  /-- ROL, R82: Rotates left by the count modulo 32. -/
  | rol (t : Tid) (a : Byte)
  /-- POPC, R82: Pushes the number of 1 bits. -/
  | popc (t : Tid) (a : Byte)
  /-- CLZ, R82: Pushes the number of leading zeros. -/
  | clz (t : Tid) (a : Byte)
  /-- BSWAP, R82: Reverses the byte order of the top entry. -/
  | bswap (t : Tid) (a : Byte)
  /-- EQ, R82: Pushes 1 if the two entries are equal. -/
  | eq (t : Tid) (a : Byte)
  /-- NE, R82: Pushes 1 if the two entries differ. -/
  | ne (t : Tid) (a : Byte)
  /-- LT, R82: Signed less-than compare. -/
  | lt (t : Tid) (a : Byte)
  /-- LTU, R82: Unsigned less-than compare. -/
  | ltu (t : Tid) (a : Byte)
  /-- LE, R82: Signed less-or-equal compare. -/
  | le (t : Tid) (a : Byte)
  /-- LEU, R82: Unsigned less-or-equal compare. -/
  | leu (t : Tid) (a : Byte)
  /-- INRANGE, R82: Pushes 1 if lo <= x <= hi unsigned. -/
  | inrange (t : Tid) (a : Byte)
  /-- EXTR, R82: Extracts a zero-extended bit field. -/
  | extr (t : Tid) (a : Byte) (x : Half)
  /-- INSR, R82: Inserts the low bits of a value into a bit field. -/
  | insr (t : Tid) (a : Byte) (x : Half)
  /-- DADD, R84: Adds two 64-bit pairs. -/
  | dadd (t : Tid) (a : Byte)
  /-- DSUB, R84: Subtracts two 64-bit pairs. -/
  | dsub (t : Tid) (a : Byte)
  /-- DEQ, R84: Pushes 1 if two 64-bit pairs are equal. -/
  | deq (t : Tid) (a : Byte)
  /-- DLTU, R84: Unsigned 64-bit less-than compare. -/
  | dltu (t : Tid) (a : Byte)
  /-- DSHL, R84: Shifts a 64-bit pair left. -/
  | dshl (t : Tid) (a : Byte)
  /-- DSHR, R84: Shifts a 64-bit pair right with zero fill. -/
  | dshr (t : Tid) (a : Byte)
  /-- LDB, R85: Loads a zero-extended byte. -/
  | ldb (t : Tid) (f : Form)
  /-- LDBS, R85: Loads a sign-extended byte. -/
  | ldbs (t : Tid) (f : Form)
  /-- LDH, R85: Loads a zero-extended halfword. -/
  | ldh (t : Tid) (f : Form)
  /-- LDHS, R85: Loads a sign-extended halfword. -/
  | ldhs (t : Tid) (f : Form)
  /-- LDW, R85: Loads a word from the thread address view. -/
  | ldw (t : Tid) (f : Form)
  /-- LDD, R85: Loads a 64-bit pair. -/
  | ldd (t : Tid) (f : Form)
  /-- STB, R85: Stores a byte. -/
  | stb (t : Tid) (f : Form)
  /-- STH, R85: Stores a halfword. -/
  | sth (t : Tid) (f : Form)
  /-- STW, R85: Stores a word, including to the special window. -/
  | stw (t : Tid) (f : Form)
  /-- STD, R85: Stores a 64-bit pair. -/
  | std (t : Tid) (f : Form)
  /-- XADD, R88: Drains, then atomically adds to a word and pushes the old value. -/
  | xadd (t : Tid) (f : Form)
  /-- CAS, R88: Drains, then atomically compares and swaps a word. -/
  | cas (t : Tid) (f : Form)
  /-- BR, R90: Unconditional forward branch. -/
  | br (t : Tid) (f : Form)
  /-- BZ, R90: Branches if the popped word is 0. -/
  | bz (t : Tid) (f : Form)
  /-- BNZ, R90: Branches if the popped word is nonzero. -/
  | bnz (t : Tid) (f : Form)
  /-- CALL, R53: Writes a call record and enters a procedure of the PROC table. -/
  | call (t : Tid) (a : Byte) (x : Half)
  /-- RET, R54: Restores the masked locals and returns from a procedure. -/
  | ret (t : Tid) (a : Byte)
  /-- LOOP, R62: Starts a counted loop level over the following body. -/
  | loop (t : Tid) (a : Byte) (x : Half)
  /-- LOOPL, R63: Starts a loop with its count taken from a local, or skips the body. -/
  | loopl (t : Tid) (a : Byte) (x : Half)
  /-- REP, R67: Sets the repeat count for the next instruction. -/
  | rep (t : Tid) (a : Byte)
  /-- REPL, R67: Sets the repeat count from a local. -/
  | repl (t : Tid) (a : Byte)
  /-- EVRET, R137: Returns from an event handler, restoring the hidden frame. -/
  | evret (t : Tid) (a : Byte)
  /-- TRAP, R91: Halts for the debugger when trap halts are enabled. -/
  | trap (t : Tid) (a : Byte)
  /-- YIELD, R91: Gives up the thread's next guaranteed slot. -/
  | yield (t : Tid) (a : Byte)
  /-- WAIT, R92: Waits for a named event, or ends a PACKET run and idles the thread. -/
  | wait (t : Tid) (a : Byte) (x : Half)
  /-- WAIT_END, R92: A waiting WAIT resumes when a named event becomes pending and pushes EVPEND AND mask. -/
  | waitEnd (t : Tid)
  /-- FWD, R96: Drains and releases the spore to an output queue. -/
  | fwd (t : Tid) (a : Byte)
  /-- FWDM, R96: Drains and releases the spore to a multicast group. -/
  | fwdm (t : Tid) (a : Byte)
  /-- DROPPKT, R96: Drains and releases the spore as a drop. -/
  | droppkt (t : Tid) (a : Byte)
  /-- TOSLOW, R96: Drains and releases the spore to the slow path with a reason. -/
  | toslow (t : Tid) (a : Byte)
  /-- MIRR, R98: Marks the held spore for a mirror session. -/
  | mirr (t : Tid) (a : Byte)
  /-- EMIT, R99: Copies bytes into a new frame and queues it. -/
  | emit (t : Tid) (a : Byte)
  /-- CQS, R101: Drains and submits a coprocessor command, pushing a tag or -1. -/
  | cqs (t : Tid) (a : Byte)
  /-- CQW, R102: Waits for a command's completion and collects its code. -/
  | cqw (t : Tid) (a : Byte)
  /-- CQP, R102: Polls a tag, collecting the code if done. -/
  | cqp (t : Tid) (a : Byte)
  /-- BALLOC, R104: Allocates a pool element. -/
  | balloc (t : Tid) (a : Byte)
  /-- BFREE, R104: Frees a pool element after the checks of R278. -/
  | bfree (t : Tid) (a : Byte)
  /-- LOCK, R175: Requests a lock, granting, refusing or waiting with inheritance. -/
  | lock (t : Tid) (a : Byte)
  /-- TRYLOCK, R175: Requests a lock without waiting. -/
  | trylock (t : Tid) (a : Byte)
  /-- UNLOCK, R176: Drains and releases a held lock, passing it to the best waiter. -/
  | unlock (t : Tid) (a : Byte)
  /-- CHW, R106: Writes a channel staging word. -/
  | chw (t : Tid) (a : Byte)
  /-- CHS, R106: Commits the staged message to a channel. -/
  | chs (t : Tid) (a : Byte)
  /-- CHR, R106: Receives the oldest message of a channel, waiting if empty. -/
  | chr (t : Tid) (f : Form)
  /-- TREADY, R189: Activates a task control block. -/
  | tready (t : Tid) (a : Byte)
  /-- TYIELD, R192: Yields the task to an eligible ready task. -/
  | tyield (t : Tid) (a : Byte)
  /-- TSLEEP, R192: Puts the task to sleep unless WAKE is set. -/
  | tsleep (t : Tid) (a : Byte)
  /-- TASK_DISPATCH, R190: A free TASK thread takes the best eligible ready task and restores its context. -/
  | taskDispatch (t : Tid)
  /-- RDSR, R61: Reads a special register. -/
  | rdsr (t : Tid) (a : Byte)
  /-- WRSR, R61: Writes a special register. -/
  | wrsr (t : Tid) (a : Byte)
  /-- FENCE, R89: Drains so earlier stores are visible before later accesses. -/
  | fence (t : Tid) (a : Byte)
  /-- TIME64, R109: Pushes the time base. -/
  | time64 (t : Tid) (a : Byte)
  /-- TICKNO, R109: Pushes the 48-bit tick number. -/
  | tickno (t : Tid) (a : Byte)
  /-- STORE_LEAVE, R124: The head store-buffer entry leaves for frond or common memory. -/
  | storeLeave (t : Tid)
  /-- DRAIN_END, R126: A draining instruction proceeds once the store buffer is empty and visible. -/
  | drainEnd (t : Tid)
  /-- EVENT_ENTRY, R135: At an instruction boundary the thread enters the handler of the lowest pending enabled event. -/
  | eventEntry (t : Tid)
  /-- BUDGET, R164: SLOTS first exceeds BUDGET and event 1 becomes pending. -/
  | budget (t : Tid)
  /-- BUDGET_HARD, R164: SLOTS reaches twice BUDGET and the thread takes FAULT. -/
  | budgetHard (t : Tid)
  /-- TIMER, R61: The time base reaches TIMER and event 3 is raised. -/
  | timer (t : Tid)
  /-- DEADLINE, R37: 75 % of the spore's period elapses and event 10 is raised. -/
  | deadline (t : Tid)
  /-- LATE, R38: A CONTROL spore unreleased at its deadline is discarded and counted. -/
  | late (k : Nat)
  /-- FRAME_RECEIVE, R285: A MAC receives a frame, timestamps it and discards bad frames. -/
  | frameReceive (p : Fin 64) (bytes : List Byte) (fcsOk : Bool) (at_ : DWord)
  /-- PAUSE_REPEAT, R266: Pause is repeated every QUANTA/2 while fill stays above XON. -/
  | pauseRepeat (p : Fin 64) (idx : Fin 8)
  /-- PAUSE_RECEIVE, R288: A received PFC or PAUSE frame pauses classes. -/
  | pauseReceive (p : Fin 64) (pfc : Bool) (enable : Byte) (quanta : List Half)
  /-- PAUSE_WATCHDOG, R488: Continuous pause for TICKS ticks trips the watchdog. -/
  | pauseWatchdog (p : Fin 64) (tc : Option (Fin 8))
  /-- PAUSE_WATCHDOG_END, R488: After TICKS ticks the port honours pause again. -/
  | pauseWatchdogEnd (p : Fin 64) (tc : Option (Fin 8))
  /-- PAUSE_QUANTA_EXPIRED, R288: The pause time carried by a received PFC or PAUSE frame runs out, and the class or port is no longer paused. -/
  | pauseQuantaExpired (p : Fin 64) (tc : Option (Fin 8))
  /-- INGRESS_TAKE, R253: A pipeline takes a whole frame, parses, classifies, looks up, harvests and writes cells. -/
  | ingressTake (p : Fin 64) (idx : Fin 8) (bad : List (Fin 524288) := [])
  /-- DISPATCH, R242: A spore is handed to a thread of the chosen frond. -/
  | dispatch (f : Fin 16)
  /-- ORDERING_PASS, R247: A release is passed in domain order and enqueued. -/
  | orderingPass (d : Half)
  /-- RESIDUE_RETRY, R270: A multicast residue entry enqueues copies as queues gain room. -/
  | residueRetry
  /-- RESIDUE_EXPIRY, R273: A CONTROL residue entry reaches its deadline and its copies are dropped. -/
  | residueExpiry (k : Nat)
  /-- SLOW_PATH_DELIVERY, R250: A slow-path spore is copied to an element and delivered to its destination. -/
  | slowPathDelivery
  /-- LINK_STATE_CHANGE, R335: A port link goes up or down. -/
  | linkStateChange (p : Fin 64) (up : Bool)
  /-- VERIFY, R294: The preemption verify process runs and concludes. -/
  | verify (p : Fin 64) (ok : Bool)
  /-- TRANSMISSION_SELECT, R288: At a transmission opportunity a frame is selected, rewritten and sent. -/
  | transmissionSelect (p : Fin 64) (at_ : DWord)
  /-- TRANSMIT_COMPLETE, R256: A copy finishes transmission and its cells are freed at count 0. -/
  | transmitComplete (p : Fin 64) (at_ : DWord)
  /-- GATE_ENTRY_CHANGE, R290: A gate list entry's interval ends and the next entry begins. -/
  | gateEntryChange (p : Fin 64) (at_ : DWord)
  /-- FROND_GATE, R474: A frond idle for CLK_GATE_IDLE cycles is clock-gated. -/
  | frondGate (f : Fin 16)
  /-- FROND_WAKE, R479: A crossing into a stopped domain restarts it. -/
  | frondWake (f : Fin 16)
  /-- APERTURE_WRITE, R428: A write TLP to an aperture stores bytes at the channel address. -/
  | apertureWrite (c : Fin 8) (tlp : List (Option Byte)) (poisoned malformed : Bool) (bad : Option (BitVec 48))
  /-- APERTURE_READ, R430: A read of an aperture returns device bytes. -/
  | apertureRead (c : Fin 8) (off : BitVec 20) (n : Fin 4097) (bad : Bool)
  /-- PULL, R431: Reads host memory into a device address. -/
  | pull (c : Fin 8)
  /-- PUSH, R432: Writes device bytes to host memory. -/
  | push (c : Fin 8) (bad : Option Nat)
  /-- READ_COMPLETION, R431: A PCIe read completion for a PULL arrives. -/
  | readCompletion (tag : Fin 1024) (bytes : List Byte) (bad : Option (BitVec 48))
  /-- PULL_TIMEOUT, R431: A PULL read times out and ends EXPIRED. -/
  | pullTimeout (c : Fin 4)
  /-- RING_SIGNAL, R434: WR is written back and the ring vector signalled after HOLDOFF. -/
  | ringSignal (r : Fin 16) (at_ : DWord)
  /-- HOST_LINK_RESET, R440: Hot reset, link-down, FLR or D3hot resets host-interface state. -/
  | hostLinkReset (down : Bool)
  /-- PCIE_LINK_UP, R435: The PCIe link finishes training and comes up, so rings become available, held entries are written and PE_WAKE_N is released. -/
  | pcieLinkUp (speed : Fin 6) (width : Fin 5) (bme : Bool) (mps : Fin 3) (mrrs : Fin 6)
  /-- DBG_LOCK, R493: Takes or frees the debug lock. -/
  | dbgLock (p : Party) (v : Word)
  /-- JTAG_TRST_N, R494: TCK-domain reset frees a JTAG-held debug lock. -/
  | jtagTrstN
  /-- HALT, R495: Halts a thread at its next boundary. -/
  | halt (p : Party) (merged : Bool)
  /-- RESUME_THREAD, R496: Continues a halted thread. -/
  | resumeThread (p : Party) (merged : Bool)
  /-- STEP, R496: Runs a halted thread for one instruction. -/
  | step (p : Party) (merged : Bool)
  /-- POST, R496: Makes event 9 pending on a thread. -/
  | post (p : Party) (merged : Bool)
  /-- DISCARD, R496: Empties a halted thread's staging buffer. -/
  | discard (p : Party) (merged : Bool)
  /-- DBG_TREG_DATA, R499: Writes a halted thread's state. -/
  | dbgTregData (p : Party) (v : Word)
  /-- DBG_LKREL, R501: Forces release of a lock held by a halted thread. -/
  | dbgLkrel (p : Party) (addr ctl : Word)
  /-- DBG_CNTCLR, R502: Clears a block's saturating counters. -/
  | dbgCntclr (p : Party) (v : Word)
  /-- DBG_TEL_CTL, R503: Freezes or unfreezes telemetry latching. -/
  | dbgTelCtl (p : Party) (v : Word)
  /-- THREAD_ABORT, R482: Aborts one thread. -/
  | threadAbort (t : Tid)
  /-- CORE_ABORT, R482: Aborts one core. -/
  | coreAbort (k : Fin 256)
  /-- FROND_ABORT, R482: Aborts one frond. -/
  | frondAbort (f : Fin 16)
  /-- COPROCESSOR_ABORT, R482: Aborts one coprocessor instance. -/
  | coprocessorAbort (f : Fin 16) (k : Fin 5)
  /-- TABLE_ENGINE_ABORT, R482: Aborts one table engine. -/
  | tableEngineAbort (q : Fin 4)
  /-- BULK_CHANNEL_ABORT, R482: Aborts one bulk channel. -/
  | bulkChannelAbort (c : Fin 8)
  /-- DRAM_CHANNEL_ABORT, R482: Aborts and retires a DRAM channel group. -/
  | dramChannelAbort (c : Fin 8)
  /-- PORT_ABORT, R482: Aborts and holds down a port. -/
  | portAbort (p : Fin 64)
  /-- DATA_PLANE_ABORT, R482: Aborts the data plane as MGT_DP_RESET. -/
  | dataPlaneAbort
  /-- ABORT_FENCED, R483: A unit not quiesced at its bound is fenced. -/
  | abortFenced (cause : FenceCause)
  /-- RAS_PORTHOLD, R482: Writing 1 releases a held port. -/
  | rasPorthold (p : Party) (hi : Bool) (v : Word)
  /-- THERMAL, R491: Junction temperature reaches the limit and the replace trigger is set. -/
  | thermal (temp : Byte)
  /-- LANE, R491: A lane loses lock for 1 s with partner signal present. -/
  | lane (l : Fin 64) (e : LaneEvent)
  /-- MGT_DP_RESET, R469: Data-plane reset. -/
  | mgtDpReset (v : Word)
  /-- TRAINING, R399: Full training runs and READY is set. -/
  | training (fail : BitVec 16)
  /-- RETRAIN, R400: Periodic retraining pauses one subchannel. -/
  | retrain (j : Fin 16) (dur : Fin 1501) (due : Bool) (at_ : DWord)
  /-- REFRESH, R398: A bank's refresh falls due. -/
  | refresh (burst full : Bool)
  /-- DRAM_ACCESS, R395: A channel serves a queued DRAM request. -/
  | dramAccess (c : Fin 8) (err : Ecc) (fill : Fin 4097) (at_ : DWord) (reqs : List DramReq := []) (pick : Nat := 0) (claimed : Bool := false)
  /-- SCRUB, R406: Patrol scrub reads a DRAM block. -/
  | scrub (a : BitVec 48) (err : Ecc) (at_ : DWord)
  /-- MODULE_POLL, R520: Firmware polls module presence and loss of signal. -/
  | modulePoll (l : Fin 64) (present los : Bool)
  /-- KEEP_ENTRY, R463: After the queue drain period the device writes the resume image and enters KEEP. -/
  | keepEntry (at_ : DWord)
  /-- WAKE_N, R466: WAKE_N held low wakes the device from KEEP. -/
  | wakeN (fail : BitVec 16) (ok : Bool)
  /-- PORST_N, R468: Power-on reset. -/
  | porstN (head : Bool)
  /-- WRST_N, R470: Pin warm reset. -/
  | wrstN
  /-- MGT_RESET, R468: Register warm reset with key 0xA5. -/
  | mgtReset (v : Word)
  /-- PE_PERST_N, R466: PCIe fundamental reset; its rising edge wakes from KEEP. -/
  | pePerstN (rising : Bool) (fail : BitVec 16) (ok : Bool)
  /-- RUN, R455: Mode command RUN is accepted for the next boundary. -/
  | run
  /-- DRAIN, R461: Mode command DRAIN with a target is accepted. -/
  | drain (keep : Bool)
  /-- CLK_PLLOFF, R475: Stops a frond's PLL in LOAD. -/
  | clkPlloff (v : Word)
  /-- VDD_IO18_IN_RANGE, R519: VDD_IO18 comes into range, and DIMM_PWREN is driven high from that moment. -/
  | vddIo18InRange
  /-- INSERT, R308: Inserts a table entry, relocating up to 32 entries. -/
  | insert (via : Via) (bad : Option (Fin 262144))
  /-- UPDATE, R307: Replaces words 2-6 of an entry. -/
  | update (via : Via) (bad : Option (Fin 262144))
  /-- DELETE, R307: Removes the entry with the key. -/
  | delete (via : Via) (bad : Option (Fin 262144))
  /-- DELETE_IF_IDLE, R315: Removes an idle entry or clears its HIT. -/
  | deleteIfIdle (via : Via) (bad : Option (Fin 262144))
  /-- LOOKUP, R307: Returns the entry with the key. -/
  | lookup (via : Via) (bad : Option (Fin 262144))
  /-- READ_INDEX, R307: Returns a slot's content. -/
  | readIndex (via : Via) (bad : Option (Fin 262144))
  /-- WRITE_INDEX, R309: Writes an entry into a named slot. -/
  | writeIndex (via : Via) (bad : Option (Fin 262144))
  /-- FLUSH_PORT, R316: Walks and removes FDB entries of a port. -/
  | flushPort (via : Via)
  /-- FLUSH_VID, R316: Walks and removes FDB entries of a VID. -/
  | flushVid (via : Via)
  /-- AGE_STEP, R315: Visits COUNT buckets from the cursor, ageing entries. -/
  | ageStep (via : Via)
  /-- WALK_STEP, R307: One bucket step of a walking operation runs in the engine. -/
  | walkStep (bad : Option (Fin 4) := none)
  /-- REHASH_START, R320: TBL_RHS.START makes the next seed pair current and starts migration. -/
  | rehashStart (t : Fin 2)
  /-- RESUME, R320: TBL_RHS.RESUME walks again over stuck entries. -/
  | resume (t : Fin 2)
  /-- MIGRATION_STEP, R320: One migration step re-inserts entries under the current pair. -/
  | migrationStep (t : Fin 2) (bad : Option (Fin 262144) := none)
  /-- TABLE_SCRUB_ERROR, R317: Scrub finds an uncorrectable table entry and invalidates it. -/
  | tableScrubError (t : Fin 2) (idx : Fin 262144)
  /-- COPY, R215: DMA copies bytes between device addresses. -/
  | copy (f : Fin 16)
  /-- FILL, R215: DMA fills a range with a pattern. -/
  | fill (f : Fin 16)
  /-- FRAME_READ, R217: DMA copies bytes from a held frame. -/
  | frameRead (f : Fin 16)
  /-- LIST, R218: DMA performs a list of copies. -/
  | list (f : Fin 16)
  /-- DMA_CHUNK, R396: A 256-byte chunk of a DMA or CHK command is transferred. -/
  | dmaChunk (f : Option (Fin 16)) (idx : Nat) (bad : Bool) (part : Option (BitVec 48) := none)
  /-- COMPUTE, R417: Computes a check value over a source. -/
  | compute (via : Via)
  /-- COMPARE, R418: Computes and compares a check value. -/
  | compare (via : Via)
  /-- READ_PAGE, R379: Copies a peat page. -/
  | readPage (f : Fin 16) (bad : Option (Fin 16))
  /-- FIND, R379: Finds the page covering a time. -/
  | find (f : Fin 16) (bad : Bool)
  /-- APPEND, R380: Appends records to a kind-0 stream. -/
  | append (f : Fin 16)
  /-- READ, R354: SIG command returning entries as stored. -/
  | read (f : Fin 16)
  /-- READ_VIEW, R346: SIG command returning the tick view. -/
  | readView (f : Fin 16)
  /-- WRITE, R355: SIG command writing signal values. -/
  | write (f : Fin 16)
  /-- CONFIG, R355: SIG command configuring entries. -/
  | config (f : Fin 16)
  /-- VOTE_EVAL, R354: SIG command evaluating one vote group. -/
  | voteEval (f : Fin 16)
  /-- COMMAND_COMPLETE, R207: A coprocessor command completes, writing result and code. -/
  | commandComplete (f : Fin 16) (r : CmdRef)
  /-- EXPIRED, R214: The gateway watchdog fires and the command ends EXPIRED. -/
  | expired (f : Fin 16) (idx : Nat) (late : Bool)
  /-- LATE_ERROR, R212: A late error is delivered to the ring or logged. -/
  | lateError (f : Fin 16) (j : Nat) (code : Byte)
  /-- FRD_CQ_HSUB, R222: The host submits a coprocessor command. -/
  | frdCqHsub (f : Fin 16) (v : Word)
  /-- BPM_HALLOC, R279: The host allocates a pool element. -/
  | bpmHalloc (v : Word)
  /-- BPM_HFREE, R278: The host frees a pool element. -/
  | bpmHfree (v : Word)
  /-- BPM_CFG_VALID, R276: A VALID write checks and enables a pool. -/
  | bpmCfgValid (n : Fin 64) (v : Word)
  /-- SWC_MCG_DATA, R269: Replaces a multicast group entry atomically. -/
  | swcMcgData (v : Word)
  /-- SWC_MCM_DATA, R269: Replaces a multicast member entry atomically. -/
  | swcMcmData (v : Word)
  /-- RULE_WRITE, R237: CLS_RULE_CMD WRITE replaces a rule. -/
  | ruleWrite (idx : Fin 4096)
  /-- RULE_READ, R237: CLS_RULE_CMD READ copies a rule to staging. -/
  | ruleRead (idx : Fin 4096)
  /-- INVALIDATE, R237: CLS_RULE_CMD INVALIDATE clears a rule's valid bit. -/
  | invalidate (idx : Fin 4096)
  /-- EGR_GCL_DATA1, R292: Commits a gate list entry to the idle bank. -/
  | egrGclData1 (p : Fin 64) (v : Word)
  /-- GATE_ARM, R292: EGR_GCL_SWSTAT.ARM arms a gate list swap. -/
  | gateArm (p : Fin 64)
  /-- GATE_CANCEL, R292: EGR_GCL_SWSTAT.CANCEL disarms a gate list swap. -/
  | gateCancel (p : Fin 64)
  /-- EGR_CTX_DATA1, R297: Commits an egress context entry. -/
  | egrCtxData1 (v : Word)
  /-- EGR_XP_L, R287: Writes an extended-port map entry. -/
  | egrXpL (idx : Fin 4032) (v : Word)
  /-- PORT_CFG, R284: Sets a port mode, refusing misaligned modes. -/
  | portCfg (p : Fin 64) (v : Word)
  /-- CTL_SDATA3, R324: Commits a stream record. -/
  | ctlSdata3 (v : Word)
  /-- CTL_FDATA1, R326: Commits a stream filter entry. -/
  | ctlFdata1 (v : Word)
  /-- CTL_GDATA1, R328: Commits a stream gate entry and sets PENDING. -/
  | ctlGdata1 (v : Word)
  /-- STREAM_GATE_ARM, R328: CTL_GSWSTAT.ARM arms a stream gate swap. -/
  | streamGateArm
  /-- STREAM_GATE_CANCEL, R328: CTL_GSWSTAT.CANCEL disarms it. -/
  | streamGateCancel
  /-- CTL_MDATA4, R329: Commits a meter and refills its buckets. -/
  | ctlMdata4 (v : Word)
  /-- CTL_RDATA2, R531: Commits a FRER record and resets recovery. -/
  | ctlRdata2 (v : Word)
  /-- CTL_ADATA11, R341: Commits an adaptation record. -/
  | ctlAdata11 (v : Word)
  /-- CTL_ADMIT, R342: Runs the admission checks. -/
  | ctlAdmit
  /-- SIG_ENABLE, R530: SIG_CFG.EN turns on and the OLD pass runs. -/
  | sigEnable
  /-- SIG_HV_DATA3, R353: Commits an extraction item. -/
  | sigHvData3 (v : Word)
  /-- SIG_VG_DATA7, R356: Commits a signal group. -/
  | sigVgData7 (v : Word)
  /-- SIG_PUB_DATA6, R359: Commits a publication set record. -/
  | sigPubData6 (v : Word)
  /-- SIG_SVC_DATA7, R364: Commits a service address. -/
  | sigSvcData7 (v : Word)
  /-- ANNOUNCE, R365: Sends gratuitous ARP and unsolicited NA per valid address. -/
  | announce
  /-- PEAT_P_DATA3, R366: Commits a history policy. -/
  | peatPData3 (v : Word)
  /-- PEAT_S_DATA7, R367: Commits a peat stream record. -/
  | peatSData7 (v : Word)
  /-- PEAT_CL_DATA7, R382: Commits a client entry. -/
  | peatClData7 (v : Word)
  /-- CHECK, R152: Loader checks an image without writing it. -/
  | check
  /-- CHECK_AND_COMMIT, R153: Loader checks and commits or stages an image. -/
  | checkAndCommit
  /-- ARM_SWAP, R166: Arms the staged program swap. -/
  | armSwap
  /-- CANCEL_SWAP, R167: Disarms the staged program swap. -/
  | cancelSwap
  /-- LOAD_RESIDENT, R169: Loads the resident services onto resident cores. -/
  | loadResident (services : BitVec 3)
  /-- BLK_CH_ADDR_HI, R428: Arms a host-to-device bulk channel. -/
  | blkChAddrHi (c : Fin 8) (v : Word)
  /-- BLK_RNG_RD, R434: The host doorbell advances a ring's read index. -/
  | blkRngRd (r : Fin 16) (v : Word)
  /-- BLK_RNG_CFG, R435: Enables a ring, writing or flushing held entries. -/
  | blkRngCfg (r : Fin 16) (v : Word)
  /-- MGT_HEARTBEAT, R439: A write restarts the heartbeat count. -/
  | mgtHeartbeat (v : Word)
  /-- DRC_CFG, R401: Sets enable and speed, triggering training. -/
  | drcCfg (v : Word)
  /-- DRC_RETIRE, R408: Retires a DRAM channel group. -/
  | drcRetire (v : Word)
  /-- DRC_KEEP, R409: Sets the keep set mask. -/
  | drcKeep (v : Word)
  /-- BLK_MBX_DB, R438: Makes event 14 pending on a thread. -/
  | blkMbxDb (v : Word) (merged : Bool)
  /-- REGISTER_WRITE, R509: A write to a register with no row of its own. -/
  | registerWrite (p : Party) (at_ : Place) (v : Word)
  /-- LATCHING_PAIR_READ, R511: A read of LO latches HI for that party. -/
  | latchingPairRead (p : Party) (at_ : Place)
  /-- PTP_TXTS_HI, R42: A read removes the egress timestamp record. -/
  | ptpTxtsHi
  /-- TICK_OVR_LOG1, R36: A read removes the oldest overrun record. -/
  | tickOvrLog1
  /-- FRD_CQ_HTAG, R222: A read returning DONE collects the code and frees the host tag. -/
  | frdCqHtag (f : Fin 16) (idx : Fin 16)
  /-- CHK_MLOG5, R514: A read of CHK_MLOG5 removes the oldest mismatch record. -/
  | chkMlog5
  /-- RAS_LOG4, R486: A read of RAS_LOG4 removes a RAS log record, which may release DEV_ALERT_N. -/
  | rasLog4 (p : Party)
  /-- BLK_VIOL2, R441: A read of BLK_VIOL2 removes a violation log record. -/
  | blkViol2
  /-- CHN_REPL_LOG, R452: A read of CHN_REPL_LOG removes a replace-notice record. -/
  | chnReplLog
  /-- CORE_FAULT_LAST1, R514: A read of CORE_FAULT_LAST1 clears CORE_FAULT_LAST0.VALID. -/
  | coreFaultLast1 (f : Fin 16) (c : Fin 17)
  /-- DRC_CH_ELOG2, R404: A read of DRC_CH_ELOG2 clears DRC_CH_ELOG0.VALID. -/
  | drcChElog2 (c : Fin 8)
  /-- TICK_CONTROLLER_START, R527: TICK_CTRL.EN changes 0 to 1 and the controller starts. -/
  | tickControllerStart
  /-- TICK_NUMBER_HI, R29: A write commits a new tick number for the next boundary. -/
  | tickNumberHi (v : Word)
  /-- PTP_STEP_HI, R21: A write in LOAD steps the time base. -/
  | ptpStepHi (v : Word) (p : Party := .host)
  /-- PTP_PADJ, R22: A write starts a phase slew. -/
  | ptpPadj (v : Word) (p : Party := .host)
  /-- SLEW_END, R22: A phase slew is absorbed and SLEW_BUSY clears. -/
  | slewEnd (at_ : DWord)
  /-- PPS_IN, R45: A PPS_IN rising edge is timestamped. -/
  | ppsIn (at_ : DWord)
  /-- PPS_OUT, R45: PPS_OUT rises at each whole second of the time base. -/
  | ppsOut
  /-- PPS_OUT_PULSE_END, R45: PPS_OUT falls after PPSOUT_W µs high. -/
  | ppsOutPulseEnd
  /-- TICK_OUT_PULSE_END, R45: TICK_OUT falls after TICKOUT_W µs high. -/
  | tickOutPulseEnd
  /-- PUBLICATION_QUEUE, R264: A built publication is queued when injection room exists. -/
  | publicationQueue
  /-- SWEEP, R347: The sweep visits entries, setting OLD and marking stale signals. -/
  | sweep
  /-- PEAT_COMMIT, R377: Records and page headers are written to DRAM. -/
  | peatCommit (scan n : Nat)
  /-- RESPONDER_RECORD, R365: The responder handles one slow-path record. -/
  | responderRecord
  /-- TRP_REQUEST, R387: The trend service checks and answers one TRP request. -/
  | trpRequest (bad : List DWord := [])
  /-- CURSOR_EXPIRY, R386: A TRP cursor's token lifetime ends and it is freed. -/
  | cursorExpiry (idx : Fin 32) (at_ : DWord)
  /-- FRER_RESET, R331: RESET ticks pass without a passed frame and recovery resets. -/
  | frerReset (r : Half)
  /-- LATENT_PERIOD, R334: At the end of LATENT_PERIOD a latent error is tested. -/
  | latentPeriod (r : Half)
  /-- ENUM, R446: A chain ENUM frame assigns addresses or returns to the head. -/
  | enum (f : ChainFrame) (good : List Bool) (at_ : DWord)
  /-- ENUM_COMMAND, R446: CHN_CMD.ENUM makes the head send ENUM. -/
  | enumCommand
  /-- ENUM_RESEND, R446: The head resends ENUM every 1 ms until one returns. -/
  | enumResend
  /-- ABORT, R452: A chain ABORT acts as a write of MGT_ABORT. -/
  | abort (f : ChainFrame) (good : List Bool) (at_ : DWord)
  /-- MSG, R450: A chain message is committed to its channel and acknowledged. -/
  | msg (f : ChainFrame) (good : List Bool) (at_ : DWord)
  /-- WAKE, R452: A chain WAKE wakes a device in KEEP. -/
  | wake (f : ChainFrame) (good : List Bool) (at_ : DWord) (fail : BitVec 16) (ok : Bool)
  /-- REPLACE, R452: A chain REPLACE notice is logged. -/
  | replace (f : ChainFrame) (good : List Bool) (at_ : DWord)
  /-- HEARTBEAT, R445: A chain HEARTBEAT frame is accepted and removed. -/
  | heartbeat (f : ChainFrame) (good : List Bool) (at_ : DWord)
  /-- ACK, R450: An ACK completes an outstanding message. -/
  | ack (f : ChainFrame) (good : List Bool) (at_ : DWord)
  /-- CHAIN_HEARTBEAT_SEND, R445: After 1 µs of idle output a HEARTBEAT is sent. -/
  | chainHeartbeatSend (at_ : DWord)
  /-- TX_MSG, R449: CHN_TX_CMD sends a host message. -/
  | txMsg
  /-- TX_ABORT, R452: CHN_TX_CMD sends a chain ABORT. -/
  | txAbort
  /-- TX_WAKE, R452: CHN_TX_CMD sends a chain WAKE. -/
  | txWake
  /-- THREAD_MESSAGE, R449: The interface reads a thread message from TXCHAN and sends it. -/
  | threadMessage
  /-- MESSAGE_TIMEOUT, R451: A message not completed within CHN_MSGTO ends TIMEOUT. -/
  | messageTimeout (tag : Half) (at_ : DWord)
  /-- RING_BREAK, R453: The chain input is declared down and the device becomes segment head. -/
  | ringBreak (at_ : DWord) (lock : Bool)
  /-- INPUT_UP, R453: After 100 µs of accepted frames the input is up and SEGHEAD clears. -/
  | inputUp (at_ : DWord)
  /-- TICK_BOUNDARY, R32: A boundary occurs and the boundary actions run in order. -/
  | tickBoundary (ptp locked : Bool) (built voted : Nat)
  /-- TICK_IN_EDGE, R25: A TICK_IN edge is accepted as a boundary or counted stray. -/
  | tickInEdge (at_ : DWord) (built voted : Nat)
  /-- TICK_WINDOW_CLOSE, R25: A window closes without an event: a boundary is inserted and the source is lost. -/
  | tickWindowClose (built voted : Nat)
  /-- TICK, R448: A chain TICK frame is forwarded cut-through and may give a boundary. -/
  | tick (f : ChainFrame) (crcOk : Bool) (at_ : DWord) (built voted : Nat)
  /-- DRAIN_LIMIT, R461: DRAIN_LIMIT ticks pass and DRAIN ends in LOAD. -/
  | drainLimit (ptp locked : Bool) (built voted : Nat)
  /-- HEARTBEAT_LAPSE, R439: The heartbeat count reaches MGT_HB_TICKS in RUN and ISLAND begins. -/
  | heartbeatLapse (ptp locked : Bool) (built voted : Nat)
  deriving DecidableEq, Repr

end Sys2Proof
end

