-- ==== Sys2Proof/Decode.lean ====
section
/-! DEFINITION. The Opvis instruction words of Tables 03-9 and 03-10 (R71 to R75), and the commands spelled by words of the opcode table. -/

namespace Sys2Proof

/-- A 16-bit instruction of thread t by opcode and field A (Table 03-9); none for a reserved opcode. -/
def decodeShort (t : Tid) (a : Byte) : Nat → Option Instr
  | 0x01 => some (.dup t a)
  | 0x02 => some (.drop t a)
  | 0x03 => some (.swap t a)
  | 0x04 => some (.over t a)
  | 0x05 => some (.rot t a)
  | 0x06 => some (.nip t a)
  | 0x07 => some (.pick t a)
  | 0x08 => some (.lit8 t a)
  | 0x09 => some (.ldl t a)
  | 0x0A => some (.stl t a)
  | 0x0B => some (.incl t (.short a))
  | 0x10 => some (.add t a)
  | 0x11 => some (.sub t a)
  | 0x12 => some (.mul t a)
  | 0x13 => some (.mulh t a)
  | 0x14 => some (.mulhu t a)
  | 0x15 => some (.neg t a)
  | 0x16 => some (.abs t a)
  | 0x17 => some (.min t a)
  | 0x18 => some (.max t a)
  | 0x19 => some (.minu t a)
  | 0x1A => some (.maxu t a)
  | 0x20 => some (.and t a)
  | 0x21 => some (.or t a)
  | 0x22 => some (.xor t a)
  | 0x23 => some (.not t a)
  | 0x24 => some (.shl t a)
  | 0x25 => some (.shr t a)
  | 0x26 => some (.sar t a)
  | 0x27 => some (.rol t a)
  | 0x28 => some (.popc t a)
  | 0x29 => some (.clz t a)
  | 0x2A => some (.bswap t a)
  | 0x30 => some (.eq t a)
  | 0x31 => some (.ne t a)
  | 0x32 => some (.lt t a)
  | 0x33 => some (.ltu t a)
  | 0x34 => some (.le t a)
  | 0x35 => some (.leu t a)
  | 0x36 => some (.inrange t a)
  | 0x38 => some (.dadd t a)
  | 0x39 => some (.dsub t a)
  | 0x3A => some (.deq t a)
  | 0x3B => some (.dltu t a)
  | 0x3C => some (.dshl t a)
  | 0x3D => some (.dshr t a)
  | 0x40 => some (.ldb t (.short a))
  | 0x41 => some (.ldbs t (.short a))
  | 0x42 => some (.ldh t (.short a))
  | 0x43 => some (.ldhs t (.short a))
  | 0x44 => some (.ldw t (.short a))
  | 0x45 => some (.ldd t (.short a))
  | 0x46 => some (.stb t (.short a))
  | 0x47 => some (.sth t (.short a))
  | 0x48 => some (.stw t (.short a))
  | 0x49 => some (.std t (.short a))
  | 0x4A => some (.xadd t (.short a))
  | 0x4B => some (.cas t (.short a))
  | 0x50 => some (.br t (.short a))
  | 0x51 => some (.bz t (.short a))
  | 0x52 => some (.bnz t (.short a))
  | 0x53 => some (.ret t a)
  | 0x54 => some (.rep t a)
  | 0x55 => some (.repl t a)
  | 0x56 => some (.evret t a)
  | 0x57 => some (.trap t a)
  | 0x58 => some (.yield t a)
  | 0x60 => some (.fwd t a)
  | 0x61 => some (.fwdm t a)
  | 0x62 => some (.droppkt t a)
  | 0x63 => some (.toslow t a)
  | 0x64 => some (.mirr t a)
  | 0x65 => some (.emit t a)
  | 0x68 => some (.cqs t a)
  | 0x69 => some (.cqw t a)
  | 0x6A => some (.cqp t a)
  | 0x6C => some (.balloc t a)
  | 0x6D => some (.bfree t a)
  | 0x70 => some (.lock t a)
  | 0x71 => some (.trylock t a)
  | 0x72 => some (.unlock t a)
  | 0x73 => some (.chw t a)
  | 0x74 => some (.chs t a)
  | 0x75 => some (.chr t (.short a))
  | 0x78 => some (.tready t a)
  | 0x79 => some (.tyield t a)
  | 0x7A => some (.tsleep t a)
  | 0x80 => some (.rdsr t a)
  | 0x81 => some (.wrsr t a)
  | 0x82 => some (.fence t a)
  | 0x83 => some (.time64 t a)
  | 0x84 => some (.tickno t a)
  | _ => none

/-- A 32-bit instruction of thread t by opcode, field A and extension (Table 03-10); none for a reserved opcode. -/
def decodeLong (t : Tid) (a : Byte) (x : Half) : Nat → Option Instr
  | 0xC0 => some (.lit16 t a x)
  | 0xC1 => some (.lith t a x)
  | 0xC2 => some (.incl t (.long a x))
  | 0xC3 => some (.extr t a x)
  | 0xC4 => some (.insr t a x)
  | 0xC8 => some (.ldb t (.long a x))
  | 0xC9 => some (.ldbs t (.long a x))
  | 0xCA => some (.ldh t (.long a x))
  | 0xCB => some (.ldhs t (.long a x))
  | 0xCC => some (.ldw t (.long a x))
  | 0xCD => some (.ldd t (.long a x))
  | 0xCE => some (.stb t (.long a x))
  | 0xCF => some (.sth t (.long a x))
  | 0xD0 => some (.stw t (.long a x))
  | 0xD1 => some (.std t (.long a x))
  | 0xD2 => some (.xadd t (.long a x))
  | 0xD3 => some (.cas t (.long a x))
  | 0xD8 => some (.br t (.long a x))
  | 0xD9 => some (.bz t (.long a x))
  | 0xDA => some (.bnz t (.long a x))
  | 0xDB => some (.call t a x)
  | 0xDC => some (.loop t a x)
  | 0xDD => some (.loopl t a x)
  | 0xE0 => some (.wait t a x)
  | 0xE4 => some (.chr t (.long a x))
  | _ => none

/-- Is the instruction whose first halfword is h a 32-bit one (R71)? -/
def isLong (h : Half) : Bool := decide (0xC000 ≤ h.toNat)

/-- The instruction of thread t whose first halfword is h, with the halfword x behind it (R71): bits [15:8] are the opcode, [7:0] field A. None
for a reserved opcode (R72); what the bits of field A and of the extension may hold is the instruction's own check. -/
def decodeOpvis (t : Tid) (h x : Half) : Option Instr :=
  if isLong h then decodeLong t (h.truncate 8) x (h.toNat / 256) else decodeShort t (h.truncate 8) (h.toNat / 256)

/-- A first halfword from opcode and field A. -/
def word (op : BitVec 8) (a : Byte) : Half := op ++ a

/-- The halfwords of a form, by the opcodes of its short and its long encoding (R75). -/
def formWords (short long : BitVec 8) : Form → List Half
  | .short a => [word short a]
  | .long a x => [word long a, x]

/-- The halfwords of an Opvis instruction (Tables 03-9 and 03-10); none for a command that is no instruction. -/
def encodeOpvis : Instr → Option (List Half)
  | .dup _ a => some [word 0x01 a]
  | .drop _ a => some [word 0x02 a]
  | .swap _ a => some [word 0x03 a]
  | .over _ a => some [word 0x04 a]
  | .rot _ a => some [word 0x05 a]
  | .nip _ a => some [word 0x06 a]
  | .pick _ a => some [word 0x07 a]
  | .lit8 _ a => some [word 0x08 a]
  | .ldl _ a => some [word 0x09 a]
  | .stl _ a => some [word 0x0A a]
  | .incl _ f => some (formWords 0x0B 0xC2 f)
  | .add _ a => some [word 0x10 a]
  | .sub _ a => some [word 0x11 a]
  | .mul _ a => some [word 0x12 a]
  | .mulh _ a => some [word 0x13 a]
  | .mulhu _ a => some [word 0x14 a]
  | .neg _ a => some [word 0x15 a]
  | .abs _ a => some [word 0x16 a]
  | .min _ a => some [word 0x17 a]
  | .max _ a => some [word 0x18 a]
  | .minu _ a => some [word 0x19 a]
  | .maxu _ a => some [word 0x1A a]
  | .and _ a => some [word 0x20 a]
  | .or _ a => some [word 0x21 a]
  | .xor _ a => some [word 0x22 a]
  | .not _ a => some [word 0x23 a]
  | .shl _ a => some [word 0x24 a]
  | .shr _ a => some [word 0x25 a]
  | .sar _ a => some [word 0x26 a]
  | .rol _ a => some [word 0x27 a]
  | .popc _ a => some [word 0x28 a]
  | .clz _ a => some [word 0x29 a]
  | .bswap _ a => some [word 0x2A a]
  | .eq _ a => some [word 0x30 a]
  | .ne _ a => some [word 0x31 a]
  | .lt _ a => some [word 0x32 a]
  | .ltu _ a => some [word 0x33 a]
  | .le _ a => some [word 0x34 a]
  | .leu _ a => some [word 0x35 a]
  | .inrange _ a => some [word 0x36 a]
  | .dadd _ a => some [word 0x38 a]
  | .dsub _ a => some [word 0x39 a]
  | .deq _ a => some [word 0x3A a]
  | .dltu _ a => some [word 0x3B a]
  | .dshl _ a => some [word 0x3C a]
  | .dshr _ a => some [word 0x3D a]
  | .ldb _ f => some (formWords 0x40 0xC8 f)
  | .ldbs _ f => some (formWords 0x41 0xC9 f)
  | .ldh _ f => some (formWords 0x42 0xCA f)
  | .ldhs _ f => some (formWords 0x43 0xCB f)
  | .ldw _ f => some (formWords 0x44 0xCC f)
  | .ldd _ f => some (formWords 0x45 0xCD f)
  | .stb _ f => some (formWords 0x46 0xCE f)
  | .sth _ f => some (formWords 0x47 0xCF f)
  | .stw _ f => some (formWords 0x48 0xD0 f)
  | .std _ f => some (formWords 0x49 0xD1 f)
  | .xadd _ f => some (formWords 0x4A 0xD2 f)
  | .cas _ f => some (formWords 0x4B 0xD3 f)
  | .br _ f => some (formWords 0x50 0xD8 f)
  | .bz _ f => some (formWords 0x51 0xD9 f)
  | .bnz _ f => some (formWords 0x52 0xDA f)
  | .ret _ a => some [word 0x53 a]
  | .rep _ a => some [word 0x54 a]
  | .repl _ a => some [word 0x55 a]
  | .evret _ a => some [word 0x56 a]
  | .trap _ a => some [word 0x57 a]
  | .yield _ a => some [word 0x58 a]
  | .fwd _ a => some [word 0x60 a]
  | .fwdm _ a => some [word 0x61 a]
  | .droppkt _ a => some [word 0x62 a]
  | .toslow _ a => some [word 0x63 a]
  | .mirr _ a => some [word 0x64 a]
  | .emit _ a => some [word 0x65 a]
  | .cqs _ a => some [word 0x68 a]
  | .cqw _ a => some [word 0x69 a]
  | .cqp _ a => some [word 0x6A a]
  | .balloc _ a => some [word 0x6C a]
  | .bfree _ a => some [word 0x6D a]
  | .lock _ a => some [word 0x70 a]
  | .trylock _ a => some [word 0x71 a]
  | .unlock _ a => some [word 0x72 a]
  | .chw _ a => some [word 0x73 a]
  | .chs _ a => some [word 0x74 a]
  | .chr _ f => some (formWords 0x75 0xE4 f)
  | .tready _ a => some [word 0x78 a]
  | .tyield _ a => some [word 0x79 a]
  | .tsleep _ a => some [word 0x7A a]
  | .rdsr _ a => some [word 0x80 a]
  | .wrsr _ a => some [word 0x81 a]
  | .fence _ a => some [word 0x82 a]
  | .time64 _ a => some [word 0x83 a]
  | .tickno _ a => some [word 0x84 a]
  | .lit16 _ a x => some [word 0xC0 a, x]
  | .lith _ a x => some [word 0xC1 a, x]
  | .extr _ a x => some [word 0xC3 a, x]
  | .insr _ a x => some [word 0xC4 a, x]
  | .call _ a x => some [word 0xDB a, x]
  | .loop _ a x => some [word 0xDC a, x]
  | .loopl _ a x => some [word 0xDD a, x]
  | .wait _ a x => some [word 0xE0 a, x]
  | _ => none

/-- The thread of an Opvis instruction. -/
def opvisThread : Instr → Option Tid
  | .dup t _ => some t
  | .drop t _ => some t
  | .swap t _ => some t
  | .over t _ => some t
  | .rot t _ => some t
  | .nip t _ => some t
  | .pick t _ => some t
  | .lit8 t _ => some t
  | .ldl t _ => some t
  | .stl t _ => some t
  | .add t _ => some t
  | .sub t _ => some t
  | .mul t _ => some t
  | .mulh t _ => some t
  | .mulhu t _ => some t
  | .neg t _ => some t
  | .abs t _ => some t
  | .min t _ => some t
  | .max t _ => some t
  | .minu t _ => some t
  | .maxu t _ => some t
  | .and t _ => some t
  | .or t _ => some t
  | .xor t _ => some t
  | .not t _ => some t
  | .shl t _ => some t
  | .shr t _ => some t
  | .sar t _ => some t
  | .rol t _ => some t
  | .popc t _ => some t
  | .clz t _ => some t
  | .bswap t _ => some t
  | .eq t _ => some t
  | .ne t _ => some t
  | .lt t _ => some t
  | .ltu t _ => some t
  | .le t _ => some t
  | .leu t _ => some t
  | .inrange t _ => some t
  | .dadd t _ => some t
  | .dsub t _ => some t
  | .deq t _ => some t
  | .dltu t _ => some t
  | .dshl t _ => some t
  | .dshr t _ => some t
  | .ret t _ => some t
  | .rep t _ => some t
  | .repl t _ => some t
  | .evret t _ => some t
  | .trap t _ => some t
  | .yield t _ => some t
  | .fwd t _ => some t
  | .fwdm t _ => some t
  | .droppkt t _ => some t
  | .toslow t _ => some t
  | .mirr t _ => some t
  | .emit t _ => some t
  | .cqs t _ => some t
  | .cqw t _ => some t
  | .cqp t _ => some t
  | .balloc t _ => some t
  | .bfree t _ => some t
  | .lock t _ => some t
  | .trylock t _ => some t
  | .unlock t _ => some t
  | .chw t _ => some t
  | .chs t _ => some t
  | .tready t _ => some t
  | .tyield t _ => some t
  | .tsleep t _ => some t
  | .rdsr t _ => some t
  | .wrsr t _ => some t
  | .fence t _ => some t
  | .time64 t _ => some t
  | .tickno t _ => some t
  | .incl t _ => some t
  | .ldb t _ => some t
  | .ldbs t _ => some t
  | .ldh t _ => some t
  | .ldhs t _ => some t
  | .ldw t _ => some t
  | .ldd t _ => some t
  | .stb t _ => some t
  | .sth t _ => some t
  | .stw t _ => some t
  | .std t _ => some t
  | .xadd t _ => some t
  | .cas t _ => some t
  | .br t _ => some t
  | .bz t _ => some t
  | .bnz t _ => some t
  | .chr t _ => some t
  | .lit16 t _ _ => some t
  | .lith t _ _ => some t
  | .extr t _ _ => some t
  | .insr t _ _ => some t
  | .call t _ _ => some t
  | .loop t _ _ => some t
  | .loopl t _ _ => some t
  | .wait t _ _ => some t
  | _ => none

/-- The command that a word spells. The opcode table gives no row any bits; where a word is as long as an Opvis instruction, 16 or 32 bits with
the first halfword lowest, it is read as an instruction of thread 0. -/
def decodeTableWord (nbits w : Nat) : Option Instr :=
  let h : Half := BitVec.ofNat 16 w
  if nbits = 16 ∧ isLong h = false ∨ nbits = 32 ∧ isLong h = true then decodeOpvis 0 h (BitVec.ofNat 16 (w / 65536)) else none

end Sys2Proof
end

