-- ==== Sys2Proof/Machine/Bits.lean ====
section
/-! DEFINITION. Bit fields, sign extension, byte order and saturating counts: the helpers every other part of
the machine is written with. -/

namespace Sys2Proof.Machine

/-- Bits [hi:lo] of a value held as a natural number. -/
def bitsN (v hi lo : Nat) : Nat := v / 2 ^ lo % 2 ^ (hi + 1 - lo)

/-- Bits [hi:lo] of a word. -/
def fld (w : Word) (hi lo : Nat) : Nat := bitsN w.toNat hi lo

/-- Bit i of a word. -/
def bit (w : Word) (i : Nat) : Bool := w.getLsbD i

/-- `w` with bits [hi:lo] replaced by the low bits of `v`. -/
def setFld (w : Word) (hi lo v : Nat) : Word :=
  let m := 2 ^ (hi + 1 - lo)
  BitVec.ofNat 32 (w.toNat - bitsN w.toNat hi lo * 2 ^ lo + v % m * 2 ^ lo)

/-- `w` with bit i set or cleared. -/
def setBit (w : Word) (i : Nat) (b : Bool) : Word :=
  if b then w ||| BitVec.ofNat 32 (2 ^ i) else w &&& ~~~(BitVec.ofNat 32 (2 ^ i))

/-- A word made from a natural number, modulo 2^32. -/
abbrev wd (n : Nat) : Word := BitVec.ofNat 32 n

/-- 1 for true and 0 for false (R51). -/
def flag (b : Bool) : Word := if b then 1 else 0

/-- The low half of a 64-bit value. -/
def lo32 (d : DWord) : Word := d.truncate 32

/-- The high half of a 64-bit value. -/
def hi32 (d : DWord) : Word := (d >>> 32).truncate 32

/-- A 64-bit value from its halves, given low first (R50). -/
def pair (lo hi : Word) : DWord := hi ++ lo

/-- The n low bytes of a natural number, least significant first. -/
def leBytes : Nat → Nat → List Byte
  | 0, _ => []
  | n + 1, v => BitVec.ofNat 8 v :: leBytes n (v / 256)

/-- The number a list of bytes spells, least significant first. -/
def leNat : List Byte → Nat
  | [] => 0
  | b :: bs => b.toNat + 256 * leNat bs

/-- The n low bytes of a natural number, most significant first (network order). -/
def beBytes (n v : Nat) : List Byte := (leBytes n v).reverse

/-- The number a list of bytes spells, most significant first. -/
def beNat (bs : List Byte) : Nat := leNat bs.reverse

/-- The n bytes of a list from offset o on; a byte beyond its end is left out. -/
def slice (bs : List Byte) (o n : Nat) : List Byte := (bs.drop o).take n

/-- A byte of a list, 0 beyond its end. -/
def byteAt (bs : List Byte) (o : Nat) : Nat := (bs.getD o 0).toNat

/-- The big-endian number in n bytes of a list from offset o on. -/
def beAt (bs : List Byte) (o n : Nat) : Nat := beNat (slice bs o n)

/-- The little-endian number in n bytes of a list from offset o on. -/
def leAt (bs : List Byte) (o n : Nat) : Nat := leNat (slice bs o n)

/-- The list with the bytes from offset o on overwritten; bytes beyond its end are not written. -/
def patch (bs : List Byte) (o : Nat) (new : List Byte) : List Byte :=
  bs.take o ++ (new.take (bs.length - o)) ++ bs.drop (o + new.length)

/-- Pads a byte list with zeros to n bytes. -/
def padTo (n : Nat) (bs : List Byte) : List Byte := bs ++ List.replicate (n - bs.length) 0

/-- A signed reading of the n low bits of a natural number. -/
def sInt (n v : Nat) : Int := if v % 2 ^ n < 2 ^ (n - 1) then (v % 2 ^ n : Nat) else (v % 2 ^ n : Nat) - (2 ^ n : Nat)

/-- Addition to a counter that saturates at `cap`. -/
def satAdd (cap v n : Nat) : Nat := if v + n ≤ cap then v + n else max v cap

/-- A counter field [hi:lo] of a word advanced by n, saturating at the field's largest value. -/
def satFld (w : Word) (hi lo n : Nat) : Word := setFld w hi lo (satAdd (2 ^ (hi + 1 - lo) - 1) (fld w hi lo) n)

/-- Division rounded up. -/
def ceilDiv (a b : Nat) : Nat := (a + b - 1) / b

/-- The element of a list at index i, or the default value. -/
def nth {α : Type} (d : α) (l : List α) (i : Nat) : α := l.getD i d

/-- The list with its element i replaced (unchanged when it has none). -/
def setNth {α : Type} (l : List α) (i : Nat) (a : α) : List α := l.set i a

/-- Removes the element at index i. -/
def dropNth {α : Type} : List α → Nat → List α
  | [], _ => []
  | _ :: l, 0 => l
  | a :: l, n + 1 => a :: dropNth l n

/-- The naturals from 0 to n − 1. -/
def upTo (n : Nat) : List Nat := List.range n

/-- Puts a number into a list of numbers without repeats. -/
def insNat (l : List Nat) (n : Nat) : List Nat := if l.contains n then l else l ++ [n]

/-- Sorts pairs by their first part (insertion sort: stable, structurally recursive). -/
def insertByKey {α : Type} (le : α → α → Bool) (a : α) : List α → List α
  | [] => [a]
  | b :: l => if le b a then b :: insertByKey le a l else a :: b :: l

/-- A stable sort by `le`. -/
def sortBy {α : Type} (le : α → α → Bool) (l : List α) : List α :=
  l.foldl (fun acc a => insertByKey le a acc) []

/-- The first element that is largest under `key` (strictly greater wins; ties keep the earlier). -/
def argMax {α : Type} (key : α → Nat) : List α → Option α
  | [] => none
  | a :: l => match argMax key l with
    | none => some a
    | some b => if key a ≥ key b then some a else some b

/-! ### CRC-32C (Table 17-1 POLY 1) -/

/-- One bit of the reflected CRC-32C register. -/
def crcBit (c : Nat) : Nat := if c % 2 = 1 then Nat.xor (c / 2) 0x82F63B78 else c / 2

/-- n bits of the reflected CRC-32C register. -/
def crcBits : Nat → Nat → Nat
  | 0, c => c
  | n + 1, c => crcBits n (crcBit c)

/-- The reflected CRC-32C register after a list of bytes, from the register value c. -/
def crcBytes (c : Nat) (bs : List Byte) : Nat := bs.foldl (fun c b => crcBits 8 (Nat.xor c b.toNat)) c

/-- CRC-32C of bytes with an initial register value and final XOR 0xFFFF_FFFF. -/
def crc32c (init : Nat) (bs : List Byte) : Nat := Nat.xor (crcBytes init bs) 0xFFFFFFFF

end Sys2Proof.Machine
end

