-- ==== Sys2Proof/Machine/Parse.lean ====
section
/-! DEFINITION. The fixed parser of the ingress pipelines (R224 to R230): recognised headers, nesting limits, length
contradictions, and the fields that the classifier and the spore take from a frame. A frame is given without its FCS. -/

namespace Sys2Proof.Machine

/-- One parsed level (R225): offsets of its Ethernet header, the type field after the tags, L3, L4 and L4 payload (0 =
absent), and the fields found in it; `label0` is its first MPLS label, `vni` its VXLAN VNI or GRE key. -/
structure Level where
  eth : Nat
  etype : Nat
  l3 : Nat
  l4 : Nat
  pay : Nat
  etypeVal : Option Nat
  vids : List Nat
  pcp : Nat
  l3type : Nat
  sip : Nat
  dip : Nat
  proto : Option Nat
  dscp : Nat
  sport : Option Nat
  dport : Option Nat
  tcpFlags : Nat
  ecid : Option Nat
  dmac : Option Nat
  smac : Option Nat
  label0 : Option Nat
  vni : Option Nat
  deriving DecidableEq, Repr

/-- A level with nothing found. -/
def Level.empty : Level :=
  ⟨0, 0, 0, 0, 0, none, [], 0, 0, 0, 0, none, 0, none, none, 0, none, none, none, none, none⟩

/-- What the parser records of a frame; a PTP or UADP header ends the parse, so it stands in the innermost level. -/
structure Parsed where
  levels : List Level
  flags : Nat
  ntags : Nat
  nlabels : Nat
  nexts : Nat
  reason : Nat
  ptpType : Nat
  ptpDomain : Nat
  uadpPub : Option Nat
  uadpWg : Option Nat
  rtagOff : Option Nat
  uadpOff : Option Nat
  ptpOff : Option Nat
  deriving DecidableEq, Repr

/-- The configuration the parser reads: window, programmable tag types, UDP ports. -/
structure ParseCfg where
  depth : Nat
  tpid2 : Nat
  tpid3 : Nat
  vxlan : Nat
  uadp : Nat
  deriving DecidableEq, Repr

/-- Where the parser stands: at a type field, an IP header, a protocol, an inner Ethernet header, or at its end. -/
inductive PState where
  | eth (o : Nat)
  | type (o v : Nat)
  | mpls (o : Nat)
  | ip4 (o : Nat)
  | ip6 (o : Nat)
  | proto (o v : Nat) (ipLen : Nat)
  | ext (o v : Nat) (ipLen : Nat)
  | done
  deriving DecidableEq, Repr

/-- The parser's registers while it walks a frame: the record, the level in progress, its tag counts. -/
structure PWalk where
  p : Parsed
  lv : Level
  tags : Nat
  etags : Nat
  rtags : Nat
  deriving DecidableEq, Repr

/-- Sets a PARSE_FLAGS bit (Table 09-8). -/
def Parsed.flag (p : Parsed) (b : Nat) : Parsed := { p with flags := if p.flags.testBit b then p.flags else p.flags + 2 ^ b }

/-- Records a reason and ends (R227). -/
def PWalk.stop (w : PWalk) (r : Nat) : PWalk × PState := ({ w with p := { w.p with reason := r } }, .done)

/-- A header that would end at `e`: beyond the frame LEN_SHORT, within it but beyond the window PARSE_DEEP (R226). -/
def headerEnd (cfg : ParseCfg) (len e : Nat) : Option Nat := if len < e then some 3 else if cfg.depth < e then some 1 else none

/-- Closes the level in progress and opens the next (R225); a fourth level gives NEST_DEEP. -/
def PWalk.nextLevel (w : PWalk) (s : PState) : PWalk × PState :=
  if 2 ≤ w.p.levels.length then w.stop 2
  else ({ p := { w.p with levels := w.p.levels ++ [w.lv] }, lv := Level.empty, tags := 0, etags := 0, rtags := 0 }, s)

/-- The contradiction of an IP length `n` with the `present` bytes after the IP header's first byte, `l` being the frame
length with FCS (Table 09-3). -/
def ipLenReason (n present l : Nat) : Option Nat :=
  if present < n then some 3 else if n < present ∧ 64 < l then some 4 else none

/-- The UADP NetworkMessage from offset o on: PublisherId when Byte, UInt16 or UInt32, WriterGroupId when the GroupHeader
carries one, and the offset after the GroupHeader (R224). -/
def parseUadp (f : List Byte) (o : Nat) : Option Nat × Option Nat × Nat :=
  let b0 := byteAt f o
  let pubEn := b0 / 16 % 2 = 1
  let grpEn := b0 / 32 % 2 = 1
  let ext1 := b0 / 128 % 2 = 1
  let b1 := if ext1 then byteAt f (o + 1) else 0
  let o := o + 1 + (if ext1 then 1 else 0)
  let ext2 := ext1 ∧ b1 / 128 % 2 = 1
  let o := o + (if ext2 then 1 else 0)
  let pt := b1 % 8
  let psize := if !pubEn then 0 else if pt = 0 then 1 else if pt = 1 then 2 else if pt = 2 then 4 else if pt = 3 then 8 else 0
  if pubEn ∧ 3 ≤ pt then (none, none, o)
  else
    let pub := if pubEn then some (leAt f o psize) else none
    let o := o + psize + (if ext1 ∧ b1 / 8 % 2 = 1 then 16 else 0)
    if grpEn then
      let g := byteAt f o
      let wg := if g % 2 = 1 then some (leAt f (o + 1) 2) else none
      let n := 1 + (if g % 2 = 1 then 2 else 0) + (if g / 2 % 2 = 1 then 4 else 0) + (if g / 4 % 2 = 1 then 2 else 0)
        + (if g / 8 % 2 = 1 then 2 else 0)
      (pub, wg, o + n)
    else (pub, none, o)

/-- The PTP header at offset o (34 bytes): messageType and domainNumber. -/
def PWalk.ptp (w : PWalk) (cfg : ParseCfg) (f : List Byte) (o : Nat) : PWalk × PState :=
  match headerEnd cfg f.length (o + 34) with
  | some r => w.stop r
  | none => ({ w with p := { w.p.flag 11 with ptpType := byteAt f o % 16, ptpDomain := byteAt f (o + 4), ptpOff := some o } }, .done)

/-- The UADP header at offset o. -/
def PWalk.uadp (w : PWalk) (cfg : ParseCfg) (f : List Byte) (o : Nat) : PWalk × PState :=
  let u := parseUadp f o
  match headerEnd cfg f.length u.2.2 with
  | some r => w.stop r
  | none => ({ w with p := { w.p.flag 12 with uadpPub := u.1, uadpWg := u.2.1, uadpOff := some o } }, .done)

/-- One step of the parser (Table 09-1). DEDUCED (log entry 42): PTP and LLDP over Ethernet have an L4-payload offset, as UADP over Ethernet
has in the example of spec/09; a label stack that no IP header follows opens no level. -/
def PWalk.step (cfg : ParseCfg) (f : List Byte) (w : PWalk) : PState → PWalk × PState
  | .done => (w, .done)
  | .eth o =>
    match headerEnd cfg f.length (o + 14) with
    | some r => w.stop r
    | none =>
      let w := { w with lv := { w.lv with eth := o, dmac := some (beAt f o 6), smac := some (beAt f (o + 6) 6) } }
      (w, .type (o + 12) (beAt f (o + 12) 2))
  | .type o v =>
    let isTag := v = 0x8100 ∨ v = 0x88A8 ∨ (v = cfg.tpid2 ∧ v ≠ 0) ∨ (v = cfg.tpid3 ∧ v ≠ 0)
    let here : PWalk := { w with lv := { w.lv with etype := o, etypeVal := some v } }
    if isTag then
      if 8 ≤ w.tags then here.stop 2
      else match headerEnd cfg f.length (o + 6) with
        | some r => here.stop r
        | none =>
          let tci := beAt f (o + 2) 2
          let lv := { w.lv with
            vids := w.lv.vids ++ [tci % 4096],
            pcp := if w.tags = 0 then tci / 8192 else w.lv.pcp }
          let p := { w.p.flag 0 with ntags := if w.p.levels.isEmpty then w.p.ntags + 1 else w.p.ntags }
          ({ w with lv := lv, tags := w.tags + 1, p := p }, .type (o + 4) (beAt f (o + 4) 2))
    else if v = 0x893F then
      if 1 ≤ w.etags then here.stop 2
      else match headerEnd cfg f.length (o + 10) with
        | some r => here.stop r
        | none =>
          let e := beAt f (o + 4) 2 % 4096
          ({ w with lv := { w.lv with ecid := some e }, etags := 1, p := w.p.flag 1 }, .type (o + 8) (beAt f (o + 8) 2))
    else if v = 0xF1C1 then
      if 1 ≤ w.rtags then here.stop 2
      else match headerEnd cfg f.length (o + 8) with
        | some r => here.stop r
        | none =>
          ({ w with rtags := 1, p := { w.p.flag 2 with rtagOff := if w.p.levels.isEmpty then some o else w.p.rtagOff } }, .type (o + 6) (beAt f (o + 6) 2))
    else if v ≤ 0x05DC then
      match headerEnd cfg f.length (o + 5) with
      | some r => here.stop r
      | none =>
        let present := f.length - (o + 2)
        let p := here.p.flag 15
        let here := { here with p := p }
        if v ≠ present ∧ ¬(v < present ∧ f.length + 4 = 64) then here.stop 7
        else if byteAt f (o + 2) = 0xAA ∧ byteAt f (o + 3) = 0xAA ∧ byteAt f (o + 4) = 3 then
          match headerEnd cfg f.length (o + 10) with
          | some r => here.stop r
          | none => if beAt f (o + 5) 3 = 0 then (here, .type (o + 8) (beAt f (o + 8) 2)) else (here, .done)
        else (here, .done)
    else if v < 0x0600 then (here, .done)
    else if v = 0x88E5 then { here with p := here.p.flag 3 }.stop 9
    else if v = 0x8847 ∨ v = 0x8848 then (here, .mpls (o + 2))
    else if v = 0x0806 then
      match headerEnd cfg f.length (o + 2 + 28) with
      | some r => here.stop r
      | none => ({ here with lv := { here.lv with l3 := o + 2, l3type := 3 }, p := here.p.flag 5 }, .done)
    else if v = 0x0800 then (here, .ip4 (o + 2))
    else if v = 0x86DD then (here, .ip6 (o + 2))
    else if v = 0x88F7 then { here with lv := { here.lv with pay := o + 2 } }.ptp cfg f (o + 2)
    else if v = 0xB62C then { here with lv := { here.lv with pay := o + 2 } }.uadp cfg f (o + 2)
    else if v = 0x88CC then ({ here with p := here.p.flag 13, lv := { here.lv with pay := o + 2 } }, .done)
    else (here, .done)
  | .mpls o =>
    if 8 ≤ w.p.nlabels then w.stop 2
    else match headerEnd cfg f.length (o + 4) with
      | some r => w.stop r
      | none =>
        let v := beAt f o 4
        let p := w.p.flag 4
        let w := { w with
          p := { p with nlabels := p.nlabels + 1 }
          lv := { w.lv with label0 := some (w.lv.label0.getD (v / 4096)) } }
        if v / 256 % 2 = 0 then (w, .mpls (o + 4))
        else
          let nib := byteAt f (o + 4) / 16
          if f.length ≤ o + 4 then (w, .done)
          else if nib = 4 then w.nextLevel (.ip4 (o + 4))
          else if nib = 6 then w.nextLevel (.ip6 (o + 4))
          else (w, .done)
  | .ip4 o =>
    match headerEnd cfg f.length (o + 1) with
    | some r => w.stop r
    | none =>
      let ihl := byteAt f o % 16
      if byteAt f o / 16 ≠ 4 ∨ ihl < 5 then w.stop 6
      else match headerEnd cfg f.length (o + 4 * ihl) with
        | some r => w.stop r
        | none =>
          let lv := { w.lv with
            l3 := o, l3type := 1, sip := beAt f (o + 12) 4, dip := beAt f (o + 16) 4, dscp := byteAt f (o + 1) / 4,
            proto := some (byteAt f (o + 9)) }
          let w : PWalk := { w with p := w.p.flag 6, lv := lv }
          let n := beAt f (o + 2) 2
          match ipLenReason n (f.length - o) (f.length + 4) with
          | some r => w.stop r
          | none =>
            let fr := beAt f (o + 6) 2
            if fr / 8192 % 2 = 1 ∨ fr % 8192 ≠ 0 then w.stop 8
            else (w, .proto (o + 4 * ihl) (byteAt f (o + 9)) (n - 4 * ihl))
  | .ip6 o =>
    match headerEnd cfg f.length (o + 40) with
    | some r => if headerEnd cfg f.length (o + 1) = none ∧ byteAt f o / 16 ≠ 6 then w.stop 6 else w.stop r
    | none =>
      if byteAt f o / 16 ≠ 6 then w.stop 6
      else
        let lv := { w.lv with
          l3 := o, l3type := 2, sip := beAt f (o + 8) 16, dip := beAt f (o + 24) 16, dscp := beAt f o 2 / 64 % 64 }
        let w : PWalk := { w with p := w.p.flag 7, lv := lv }
        let n := beAt f (o + 4) 2
        match ipLenReason (40 + n) (f.length - o) (f.length + 4) with
        | some r => w.stop r
        | none => (w, .ext (o + 40) (byteAt f (o + 6)) n)
  | .ext o v n =>
    if v = 0 ∨ v = 43 ∨ v = 60 then
      if 4 ≤ w.p.nexts then w.stop 2
      else match headerEnd cfg f.length (o + 8) with
        | some r => w.stop r
        | none =>
          let l := 8 * (byteAt f (o + 1) + 1)
          match headerEnd cfg f.length (o + l) with
          | some r => w.stop r
          | none => ({ w with p := { w.p with nexts := w.p.nexts + 1 } }, .ext (o + l) (byteAt f o) (n - l))
    else if v = 44 then
      if 4 ≤ w.p.nexts then w.stop 2
      else match headerEnd cfg f.length (o + 8) with
        | some r => w.stop r
        | none => { w with p := { w.p with nexts := w.p.nexts + 1 }, lv := { w.lv with proto := some 44 } }.stop 8
    else ({ w with lv := { w.lv with proto := some v } }, .proto o v n)
  | .proto o v n =>
    if v = 17 then
      match headerEnd cfg f.length (o + 8) with
      | some r => w.stop r
      | none =>
        let dp := beAt f (o + 2) 2
        let lv := { w.lv with l4 := o, pay := o + 8, sport := some (beAt f o 2), dport := some dp }
        let w : PWalk := { w with p := w.p.flag 8, lv := lv }
        let ul := beAt f (o + 4) 2
        if ul < 8 then w.stop 6
        else if ul ≠ n then w.stop 5
        else if dp = cfg.vxlan then
          match headerEnd cfg f.length (o + 16) with
          | some r => w.stop r
          | none =>
            { w with p := w.p.flag 14, lv := { w.lv with vni := some (beAt f (o + 12) 3) } }.nextLevel (.eth (o + 16))
        else if dp = 319 ∨ dp = 320 then w.ptp cfg f (o + 8)
        else if dp = cfg.uadp then w.uadp cfg f (o + 8)
        else (w, .done)
    else if v = 6 then
      match headerEnd cfg f.length (o + 13) with
      | some r => w.stop r
      | none =>
        let d := byteAt f (o + 12) / 16
        if d < 5 then w.stop 6
        else match headerEnd cfg f.length (o + 4 * d) with
          | some r => w.stop r
          | none =>
            let lv := { w.lv with
              l4 := o, pay := o + 4 * d, sport := some (beAt f o 2), dport := some (beAt f (o + 2) 2),
              tcpFlags := byteAt f (o + 13) }
            ({ w with p := w.p.flag 9, lv := lv }, .done)
    else if v = 1 ∨ v = 58 then
      match headerEnd cfg f.length (o + 8) with
      | some r => w.stop r
      | none => ({ w with p := w.p.flag 10, lv := { w.lv with l4 := o, pay := o + 8 } }, .done)
    else if v = 47 then
      match headerEnd cfg f.length (o + 4) with
      | some r => w.stop r
      | none =>
        let g := beAt f o 2
        let c := g / 32768 % 2
        let k := g / 8192 % 2
        let s := g / 4096 % 2
        let t := beAt f (o + 2) 2
        if g % 8 ≠ 0 then (w, .done)
        else
          let e := o + 4 + 4 * (c + k + s)
          match headerEnd cfg f.length e with
          | some r => w.stop r
          | none =>
            let key := if k = 1 then some (beAt f (o + 4 + 4 * c) 4) else none
            let w : PWalk := { w with lv := { w.lv with l4 := o, pay := e, vni := key }, p := w.p.flag 14 }
            if t = 0x6558 then w.nextLevel (.eth e)
            else if t = 0x0800 then w.nextLevel (.ip4 e)
            else if t = 0x86DD then w.nextLevel (.ip6 e)
            else if t = 0x8847 then w.nextLevel (.mpls e)
            else (w, .done)
    else (w, .done)

/-- Walks at most n headers. -/
def PWalk.run (cfg : ParseCfg) (f : List Byte) : Nat → PWalk → PState → PWalk
  | 0, w, _ => w
  | n + 1, w, s =>
    match s with
    | .done => w
    | _ => let r := w.step cfg f s; PWalk.run cfg f n r.1 r.2

/-- Parses a frame (without FCS). 80 headers bound every legal nesting. -/
def parseFrame (cfg : ParseCfg) (f : List Byte) : Parsed :=
  let p0 : Parsed := ⟨[], 0, 0, 0, 0, 0, 0, 0, none, none, none, none, none⟩
  let w := PWalk.run cfg f 80 ⟨p0, Level.empty, 0, 0, 0⟩ (.eth 0)
  { w.p with levels := w.p.levels ++ [w.lv] }

/-- The outermost level of a parsed frame. -/
def Parsed.outer (p : Parsed) : Level := nth Level.empty p.levels 0
/-- The innermost level parsed. -/
def Parsed.inner (p : Parsed) : Level := nth Level.empty p.levels (p.levels.length - 1)
/-- The levels beyond the first. -/
def Parsed.beyond (p : Parsed) : Nat := p.levels.length - 1

end Sys2Proof.Machine
end

