-- ==== Sys2Proof/Config.lean ====
section
/-! DEFINITION. What one implementation fixes and the values the spec leaves open: opaque constants without a
body, so that no proof can see a value of them. -/

namespace Sys2Proof.Config

/-- The value of a DRAM byte that nothing has written since its content was last lost, by how often it was lost and by
device address (Table 20-7: content undefined; R393, R410). -/
opaque dramByte : List Nat → Nat → Byte

/-- A byte of the resident ROM image (Table 18-3), by its offset; the spec gives no content. -/
opaque romByte : Nat → Byte

/-- What the resident image says of control block 1,008 + i for a set of services (R169), by the set and i: bit 0 whether a task stands there,
then its priority, whether it starts READY, its entry and its EVMASK; the spec gives no content of that image. -/
opaque serviceTask : Nat → Nat → BitVec 64

/-- The gate states (bits [7:0]) of a port whose gate list is followed, before its first cycle start (R290 names none). -/
opaque earlyGate : Nat → Word

/-- A byte of a packet-buffer cell that no frame's byte stands in, by its offset in the packet window. -/
opaque cellByte : Nat → Byte

/-- A free 32-bit value: what the spec leaves open, by the number of the draw. -/
opaque freeWord : Nat → Word

end Sys2Proof.Config
end

