-- ==== Sys2Proof/Machine/ChainTypes.lean ====
section
/-! DEFINITION. The state of the chain interface as plain data. -/

namespace Sys2Proof.Machine

/-- An outstanding message (R449): its identifier, whether the host or a thread sent it, COOKIE and DST of a thread message,
whether it is a broadcast, and when its first copy began. -/
structure OutMsg where
  tag : Half
  host : Bool
  cookie : Nat
  dst : BitVec 5
  bcast : Bool
  start : DWord
  deriving DecidableEq, Repr

/-- The chain interface (R442 to R453). `head` is the CHN_HEAD strap; `addr` the address held; `seqOut` the next sequence number
of the output link, `seqIn` the last one accepted on the input; `out` the outstanding messages, `expired` the identifiers of
those that timed out, `flying` the notices, ACKs, ENUMs and HEARTBEATs sent that may still return (type, identifier); `lastRx` and `lastTx` the
instants of the last accepted and the last sent frame, `upSince` the first frame accepted since the input was last down,
`enumAt` the last ENUM sent; `replLog` the REPLACE notices received (source, reason); `status` of the last host message. -/
structure ChainUnit where
  head : Bool
  addr : Option (BitVec 5)
  segHead : Bool
  inLink : Bool
  ovf : Bool
  addrErr : Bool
  count : Nat
  seqOut : Byte
  seqIn : Option Byte
  nextTag : Half
  out : List OutMsg
  expired : List Half
  flying : List (Nat × Half)
  lastRx : DWord
  lastTx : DWord
  upSince : Option DWord
  enumAt : Option DWord
  replLog : List (BitVec 5 × Half)
  status : Nat
  deriving DecidableEq, Repr

/-- The chain interface at power-on of a device used alone: head, address 0 (R442, R446). -/
def ChainUnit.reset : ChainUnit where
  head := true
  addr := some 0
  segHead := false
  inLink := false
  ovf := false
  addrErr := false
  count := 0
  seqOut := 0
  seqIn := none
  nextTag := 0
  out := []
  expired := []
  flying := []
  lastRx := 0
  lastTx := 0
  upSince := none
  enumAt := none
  replLog := []
  status := 0

end Sys2Proof.Machine
end

