-- ==== Sys2Proof/Machine/Sparse.lean ====
section
/-! DEFINITION. Sparse data: a list of (key, value) pairs in one canonical form (keys strictly rising, no value
equal to the default of its key), so that equal contents are equal lists. Memories, the register file, window
records and every replicated unit are held so. -/

namespace Sys2Proof.Machine

/-- Sparse data by key. -/
abbrev Sparse (α : Type) := List (Nat × α)

/-- The value at key k: the listed one, or the default of k. -/
def Sparse.get {α : Type} (d : Nat → α) : Sparse α → Nat → α
  | [], k => d k
  | (j, v) :: m, k => if k = j then v else Sparse.get d m k

/-- Lists value v at key k, keeping the keys strictly rising. -/
def Sparse.put {α : Type} : Sparse α → Nat → α → Sparse α
  | [], k, v => [(k, v)]
  | (j, w) :: m, k, v =>
    if k < j then (k, v) :: (j, w) :: m
    else if k = j then (k, v) :: m
    else (j, w) :: Sparse.put m k v

/-- Removes key k from the list. -/
def Sparse.drop {α : Type} : Sparse α → Nat → Sparse α
  | [], _ => []
  | (j, w) :: m, k => if k = j then Sparse.drop m k else (j, w) :: Sparse.drop m k

/-- Writes value v at key k; a default value is removed from the list instead of listed. -/
def Sparse.set {α : Type} [DecidableEq α] (d : Nat → α) (m : Sparse α) (k : Nat) (v : α) : Sparse α :=
  if v = d k then Sparse.drop m k else Sparse.put m k v

/-- The keys of a list are strictly rising and above `lo` (when given). -/
def Sparse.rising {α : Type} : Option Nat → Sparse α → Bool
  | _, [] => true
  | none, (j, _) :: m => Sparse.rising (some j) m
  | some lo, (j, _) :: m => decide (lo < j) && Sparse.rising (some j) m

/-- The canonical form: keys strictly rising, no value equal to the default of its key. -/
def Sparse.wf {α : Type} [DecidableEq α] (d : Nat → α) (m : Sparse α) : Bool :=
  Sparse.rising none m && m.all (fun p => decide (p.2 ≠ d p.1))

/-- Keeps the entries whose key satisfies p. -/
def Sparse.keep {α : Type} (p : Nat → Bool) (m : Sparse α) : Sparse α := m.filter (fun e => p e.1)

end Sys2Proof.Machine
end

