-- ==== Sys2Proof/Machine/CoreTypes.lean ====
section
/-! DEFINITION. The state of threads, cores and fronds as plain data: thread state (Table 03-1), store
buffers, waits, images, lock units, channels, the task scheduler, the deadlock detector and the coprocessor
gateway. -/

namespace Sys2Proof.Machine

/-- A thread's role, set by the image's role segment (R144). -/
inductive Role where
  | idle | packet | task
  deriving DecidableEq, Repr

/-- One active loop level (R62): iterations left after the current one, the body's first halfword and the
first halfword after the body (8,192 when the body ends with the bank). -/
structure Loop where
  left : Nat
  start : Pc
  stop : Nat
  deriving DecidableEq, Repr

/-- The loop body that a thread's 64-byte loop buffer holds (R119, R120): its first halfword, the first halfword after it, and whether a
later iteration executes it from the buffer by now. -/
structure Buffered where
  start : Pc
  stop : Nat
  again : Bool
  deriving DecidableEq, Repr

/-- A hidden event record (Table 05-6): what event entry saves and EVRET restores. `idle` says that the event
was taken out of idleness (R93). -/
structure HFrame where
  pc : Pc
  depth : Nat
  callDepth : Nat
  loops : List Loop
  repc : Nat
  repact : Bool
  idle : Bool
  deriving DecidableEq, Repr

/-- The life cycle of a coprocessor tag (Table 08-3); `done` holds the completion code. -/
inductive TagState where
  | free | queued | started
  | done (code : Byte)
  deriving DecidableEq, Repr

/-- One store-buffer entry (R123): the device address of its first byte, its bytes, and whether it is bound
for common memory. -/
structure StoreEntry where
  dev : Nat
  bytes : List Byte
  common : Bool
  deriving DecidableEq, Repr

/-- The loads of Table 04-6. -/
inductive LoadKind where
  | b | bs | h | hs | w | d
  deriving DecidableEq, Repr

/-- The four release decisions (R94). -/
inductive Decision where
  | fwd (q : Word)
  | fwdm (g : Word)
  | drop
  | toslow (r : Word)
  deriving DecidableEq, Repr

/-- What an instruction that drains or waits for its store buffer does once it may proceed (R125, R126). -/
inductive PendOp where
  | load (k : LoadKind) (ea : Word)
  | store (ea : Word) (bytes : List Byte)
  | xadd (ea x : Word)
  | cas (ea exp new : Word)
  | fence
  | release (d : Decision) (ts : Bool)
  | cqs (p k : Word)
  | unlock (a : Word)
  | emit (a n q : Word) (ts : Bool)
  deriving DecidableEq, Repr

/-- What a store-buffer wait waits for: an empty buffer (a drain, R126), a free entry (R124), or the leaving
of every entry that overlaps an access only in part (R125). -/
inductive MemCond where
  | drain | room
  | clear (dev len : Nat)
  deriving DecidableEq, Repr

/-- What a waiting thread waits for (R133). -/
inductive Wait where
  | event (mask : Half)
  | cq (tag : Nat)
  | lock (a : Word)
  | chr (chan : Nat) (ea : Word)
  | sleep
  | mem (c : MemCond) (op : PendOp)
  deriving DecidableEq, Repr

/-- Whether a thread issues: idle (an IDLE role, or a PACKET thread after its run, R93), free (a TASK thread
with no task, R190), running, or waiting. -/
inductive Run where
  | idle | free | running
  | waiting (w : Wait)
  deriving DecidableEq, Repr

/-- The state of one thread (Table 03-1 and what its chapters add to it). `held` is the body in its loop buffer; `waitLen` the halfwords of
the instruction that waits and `waitMost` the most slots that its wait may take; `older` the slot whose waiting spore was dispatched first (R93). -/
structure Thread where
  role : Role
  pinned : Bool
  run : Run
  pc : Pc
  bank : Bool
  stack : List Word
  locals : Vector Word 16
  callDepth : Nat
  loops : List Loop
  held : Option Buffered
  repc : Nat
  repact : Bool
  evbase : Word
  evmask : Half
  evpend : Half
  handler : Option Nat
  frame : Option HFrame
  faultFrame : Option HFrame
  slots : Nat
  budget : Word
  budgetHit : Bool
  hardHit : Bool
  timer : DWord
  deadlineHit : Bool
  tags : Vector TagState 16
  staging : Vector Word 16
  staged : Half
  storeBuf : List StoreEntry
  popped : List Word
  waitLen : Nat
  waitMost : Nat
  spore0 : Option Nat
  spore1 : Option Nat
  older : Bool
  cur : Option Bool
  curEp : Nat
  epoch : Word
  faults : Half
  lateSeq : Word
  lateUnread : List Nat
  task : Option Nat
  watches : List Nat
  halted : Bool
  haltReq : Bool
  stepping : Bool
  haltReason : Nat
  haltHost : Bool
  trapCode : Byte
  dbgChanged : Bool
  tctl : Nat
  skipBp : Bool
  deriving DecidableEq, Repr

/-- A thread as it stands at power-on: role IDLE, in the state of R47. -/
def Thread.reset : Thread where
  role := .idle
  pinned := false
  run := .idle
  pc := 0
  bank := false
  stack := []
  locals := Vector.replicate 16 0
  callDepth := 0
  loops := []
  held := none
  repc := 0
  repact := false
  evbase := 0
  evmask := 1
  evpend := 0
  handler := none
  frame := none
  faultFrame := none
  slots := 0
  budget := 0
  budgetHit := false
  hardHit := false
  timer := 0
  deadlineHit := false
  tags := Vector.replicate 16 .free
  staging := Vector.replicate 16 0
  staged := 0
  storeBuf := []
  popped := []
  waitLen := 1
  waitMost := 0
  spore0 := none
  spore1 := none
  older := false
  cur := none
  curEp := 0
  epoch := 0
  faults := 0
  lateSeq := 0
  lateUnread := []
  task := none
  watches := []
  halted := false
  haltReq := false
  stepping := false
  haltReason := 0
  haltHost := false
  trapCode := 0
  dbgChanged := false
  tctl := 0
  skipBp := false

/-- One entry record of an image (Table 06-5) with the bound the device computed for it. -/
structure EntryRec where
  ep : Nat
  family : Nat
  addr : Pc
  evmask : Half
  declared : Nat
  bound : Nat
  deriving DecidableEq, Repr

/-- One core record of the ROLE segment (Table 06-4). -/
structure CoreRole where
  roles : Nat
  pinned : Nat
  elastic : Bool
  dynamic : Bool
  resident : Bool
  deriving DecidableEq, Repr

/-- The INIT segment: PACKET EVBASE, PACKET EVMASK, init entry (0xFFFF for none). -/
structure InitSeg where
  evbase : Word
  evmask : Half
  entry : Nat
  deriving DecidableEq, Repr

/-- One DATA segment: a thread-view target and its bytes. -/
structure DataSeg where
  target : Word
  bytes : List Byte
  deriving DecidableEq, Repr

/-- One record of the TASK segment (Table 07-5). -/
structure TaskRec where
  id : Nat
  prio : Nat
  ready : Bool
  entry : Pc
  evmask : Half
  deriving DecidableEq, Repr

/-- A checked image, as the loader keeps it (R153, R155). -/
structure Image where
  fronds : Nat
  code : List Byte
  proc : List Pc
  entries : List EntryRec
  roles : List CoreRole
  init : Option InitSeg
  datas : List DataSeg
  tasks : List TaskRec
  live : Bool
  initBound : Nat
  deriving DecidableEq, Repr

/-- One core: its active bank, the modes its role record gave it, whether it runs the resident image, whether
it is fenced, whether the spare serves it, is to serve it at the next boundary (R490), whether debug access patched its code (R500), and its corrected
errors in the window. -/
structure CoreUnit where
  bankB : Bool
  elastic : Bool
  dynamic : Bool
  resident : Bool
  fenced : Bool
  spareIn : Bool
  spareDue : Bool
  patched : Bool
  ceCount : Nat
  deriving DecidableEq, Repr

/-- A core at power-on. -/
def CoreUnit.reset : CoreUnit :=
  ⟨false, false, false, false, false, false, false, false, 0⟩

/-- One tracked lock (R173): its entry number, the thread-view address of its word, its holder, the holder's
effective priority, the task that acquired it, its ABANDONED mark, and the threads whose requests wait, oldest first. -/
structure LockEntry where
  slot : Nat
  addr : Word
  holder : Tid
  prio : Nat
  task : Option Nat
  abandoned : Bool
  waiters : List Tid
  deriving DecidableEq, Repr

/-- One channel (R180, Table 07-3): messages oldest first, high-water mark, counters, waiting readers oldest
first. -/
structure Channel where
  msgs : List (List Word)
  hwm : Nat
  sent : Word
  recv : Word
  full : Word
  readers : List Tid
  deriving DecidableEq, Repr

/-- An empty channel. -/
def Channel.reset : Channel := ⟨[], 0, 0, 0, 0, []⟩

/-- A task's state (Table 07-4 word 0). -/
inductive TaskState where
  | dormant | ready | running | sleeping
  deriving DecidableEq, Repr

/-- The scheduler's own copy of one task (R187). `ctx` is the task context of Table 07-4; `wakeStatus` is what
its TSLEEP will push; `since` the time it was enqueued; `level` the ready list it stands in. -/
structure Task where
  state : TaskState
  wake : Bool
  tout : Bool
  base : Nat
  eff : Nat
  affine : Bool
  thread : Tid
  entry : Pc
  pc : Pc
  stack : List Word
  loops : List Loop
  repc : Nat
  repact : Bool
  evmask : Half
  budget : Word
  locals : Vector Word 16
  wakeStatus : Option Word
  since : DWord
  level : Nat
  deriving DecidableEq, Repr

/-- A task that no record and no TREADY has touched. -/
def Task.reset : Task where
  state := .dormant
  wake := false
  tout := false
  base := 0
  eff := 0
  affine := false
  thread := 0
  entry := 0
  pc := 0
  stack := []
  loops := []
  repc := 0
  repact := false
  evmask := 1
  budget := 0
  locals := Vector.replicate 16 0
  wakeStatus := none
  since := 0
  level := 0

/-- Waiting-time statistics of one ready list in the tick in progress (FRD_TSK_WMAX, FRD_TSK_WMEAN). -/
structure LevelStat where
  count : Nat
  total : Nat
  longest : Nat
  deriving DecidableEq, Repr

/-- Who submitted a coprocessor command: a thread with the tag and epoch it used, or the host with its tag. -/
inductive Submitter where
  | thread (t : Tid) (tag : Nat) (epoch : Word)
  | host (tag : Nat)
  deriving DecidableEq, Repr

/-- The progress of a coprocessor command: waiting in its queue; started, with the bytes of its chunked
transfer done; or acted, with the code and the result record that its completion will write. -/
inductive CmdPhase where
  | queued
  | started (moved : Nat)
  | acted (code : Byte) (result : List Word)
  deriving DecidableEq, Repr

/-- One coprocessor command (R205): submitter, kind, captured descriptor words, the descriptor pointer as
submitted, its phase, for a LIST the entries completed, the bytes written (or the register of a check value), whether the
submitter of a FRAME_READ held its frame when the command was captured (R217), the instant and tick of capture (R380), its number among the
commands of its frond, and whether a write of it was discarded (R211). -/
structure Cmd where
  who : Submitter
  kind : Nat
  desc : List Word
  ptr : Word
  phase : CmdPhase
  entries : Nat
  acc : Nat
  held : Bool
  capTime : DWord
  capTick : Nat
  id : Nat
  lost : Bool
  deriving DecidableEq, Repr

/-- What a completed command left for a late error (R212): submitter, kind, descriptor pointer, the tick at
which it completed, and its number among the commands of its frond. -/
structure DoneCmd where
  who : Submitter
  kind : Nat
  ptr : Word
  tick : Nat
  id : Nat
  deriving DecidableEq, Repr

/-- One frond: its lock unit, scheduler, deadlock detector and coprocessor gateway, the images of its banks, and
its clock. `fetched` lists the cores a thread of which fetched from I-RAM in the tick in progress, `fetchedLast` those of the tick that
CORE_IPGATE shows (R121); `imgLive` and `imgIdle` the loader's copies of the images in the active and the idle banks (R155). -/
structure Frond where
  locks : List LockEntry
  lockHwm : Nat
  ready : Sparse (List Nat)
  tasks : Sparse Task
  lvlStat : Sparse LevelStat
  busy : Sparse Nat
  fetched : List Nat
  fetchedLast : List Nat
  waited : List (Tid × Nat)
  dlPrev : Bool
  queues : List Cmd
  running : List Cmd
  finished : List DoneCmd
  captured : Nat
  hostTags : Sparse TagState
  qHwm : Sparse Nat
  imgLive : Option Image
  imgIdle : Option Image
  staged : Bool
  armed : Bool
  gated : Bool
  pllOff : Bool
  fenced : Bool
  fencedKinds : Nat
  residentTasks : List TaskRec
  services : Nat
  deriving DecidableEq, Repr

/-- A frond at power-on: nothing held, queued or loaded. -/
def Frond.reset : Frond where
  locks := []
  lockHwm := 0
  ready := []
  tasks := []
  lvlStat := []
  busy := []
  fetched := []
  fetchedLast := []
  waited := []
  dlPrev := false
  queues := []
  running := []
  finished := []
  captured := 0
  hostTags := []
  qHwm := []
  imgLive := none
  imgIdle := none
  staged := false
  armed := false
  gated := false
  pllOff := false
  fenced := false
  fencedKinds := 0
  residentTasks := []
  services := 0

end Sys2Proof.Machine
end

