-- ==== Sys2Proof/Machine/CheckTypes.lean ====
section
/-! DEFINITION. The state of the check-value units beside their registers, as plain data. -/

namespace Sys2Proof.Machine

/-- A record of the mismatch log: the word of CHK_MLOG0, expected and actual value, tick number. -/
structure MisRec where
  head : Word
  expected : DWord
  actual : DWord
  tick : Word
  deriving DecidableEq, Repr

/-- The host's job in progress (R420) and the mismatch log. -/
structure CheckUnit where
  job : Option Cmd
  log : List MisRec
  deriving DecidableEq, Repr

/-- The check-value units at reset. -/
def CheckUnit.reset : CheckUnit := ⟨none, []⟩

end Sys2Proof.Machine
end

