-- ==== Sys2Proof/Machine/TimeTypes.lean ====
section
/-! DEFINITION. The state of the tick controller, the time base, the host rings and the RAS log as plain data. -/

namespace Sys2Proof.Machine

/-- The operating modes of Table 20-1. -/
inductive Mode where
  | enumerate | load | run | island | drain | keep
  deriving DecidableEq, Repr

/-- The code of a mode (Table 20-1). -/
def Mode.code : Mode → Nat
  | .enumerate => 0
  | .load => 1
  | .run => 2
  | .island => 3
  | .drain => 4
  | .keep => 5

/-- One tick source as the controller sees it (R25, R27, R28): lost, consecutive good events since it was lost, and
the time of its last event. -/
structure Source where
  lost : Bool
  good : Nat
  last : Option DWord
  deriving DecidableEq, Repr

/-- A record of the overrun log (R36). -/
structure OvrRec where
  tick : Nat
  item : Nat
  object : Nat
  deriving DecidableEq, Repr

/-- The tick controller (R24 to R36, R527). `last` is the instant of the last boundary, none before the first;
`btime` what TICK_BTIME shows of it; `started` the instant at which the controller started; `active` the source in use, 3 in holdover;
`leaving` tells that its events make no boundary any more, since it was lost or the first event of the one to be taken over was skipped;
`ahead` counts the boundaries that a time step jumped over since the last one;
`setTo` a tick number written for the next boundary;
`outCount` boundaries since the last TICK_OUT pulse; `ipBase` the draw at which the
free values that CORE_IPGATE shows begin, `ipCycles` the core cycles of the tick it shows, `span` the ns between the last two boundaries; `lateFirst`, `lateCount`, `pushFirst`, `pushCount` the coalesced
notifications of the tick (R436); `history` every boundary's instant and tick number, newest first. -/
structure TickUnit where
  number : BitVec 48
  setTo : Option (BitVec 48)
  last : Option DWord
  btime : DWord
  ahead : Nat
  started : Option DWord
  active : Nat
  leaving : Bool
  holdover : Bool
  pri : Source
  fb : Source
  log : List OvrRec
  history : List (DWord × Nat)
  outCount : Nat
  ipBase : Option Nat
  ipCycles : Nat
  span : Nat
  lateFirst : Option Nat
  lateCount : Nat
  pushFirst : Nat
  pushCount : Nat
  deriving DecidableEq, Repr

/-- A tick source that has not been seen to fail. -/
def Source.reset : Source := ⟨false, 0, none⟩

/-- The tick controller at power-on. -/
def TickUnit.reset : TickUnit where
  number := 0
  setTo := none
  last := none
  btime := 0
  ahead := 0
  started := none
  active := 0
  leaving := false
  holdover := false
  pri := Source.reset
  fb := Source.reset
  log := []
  history := []
  outCount := 0
  ipBase := none
  ipCycles := 0
  span := 0
  lateFirst := none
  lateCount := 0
  pushFirst := 0
  pushCount := 0

/-- An egress timestamp record (R42). -/
structure TxTs where
  domain : Nat
  port : Nat
  msgType : Nat
  seqId : Nat
  time : DWord
  deriving DecidableEq, Repr

/-- The time base (R21, R22): its count, the fraction of a nanosecond in units of 2^-40 ns, what is left of a phase
slew in the same unit, and the egress timestamp FIFO (R42). -/
structure TimeBase where
  now : DWord
  frac : Nat
  slew : Int
  txts : List TxTs
  ppsHigh : Option DWord
  tickHigh : Option DWord
  deriving DecidableEq, Repr

/-- The time base at power-on. -/
def TimeBase.reset : TimeBase := ⟨0, 0, 0, [], none, none⟩

/-- One host ring (R434, R435): entries held while it is unavailable, its sequence number, whether a writeback is due, whether a
signal is due, and when it last signalled. -/
structure Ring where
  held : List (List Byte)
  seq : Word
  due : Bool
  sig : Bool
  signalled : Option DWord
  deriving DecidableEq, Repr

/-- A ring that nothing has been posted to. -/
def Ring.reset : Ring := ⟨[], 0, false, false, none⟩

/-- A record of the violation log (R441). -/
structure Viol where
  cause : Nat
  addr : Word
  value : Word
  deriving DecidableEq, Repr

/-- A record of the RAS log (R486). -/
structure RasRec where
  code : Nat
  object : Word
  object2 : Word
  severity : Nat
  tick : Word
  time : Word
  deriving DecidableEq, Repr

/-- A bulk command waiting or running on a channel (R431, R432). -/
structure BulkCmd where
  pull : Bool
  addr : Nat
  host : Nat
  len : Nat
  cookie : Word
  moved : Nat
  started : Bool
  deriving DecidableEq, Repr

/-- One bulk channel: its queue, oldest first, whether streaming is armed, whether it is fenced, the tag of the read request that its
running PULL has outstanding with the bytes it still expects, and the bytes received of a chunk that is not complete. -/
structure BulkChan where
  queue : List BulkCmd
  armed : Bool
  fenced : Bool
  request : Option (Nat × Nat)
  part : List Byte
  deriving DecidableEq, Repr

/-- A bulk channel at reset. -/
def BulkChan.reset : BulkChan := ⟨[], false, false, none, []⟩

/-- A vector of the MSI-X table (R424): message address, message data, mask bit. -/
structure MsixVec where
  addr : DWord
  data : Word
  masked : Bool
  deriving DecidableEq, Repr

/-- A vector at reset is masked. -/
def MsixVec.reset : MsixVec := ⟨0, 0, true⟩

/-- MSI-X (R437): enable and function mask of the capability, the table, the pending bits that are set. -/
structure Msix where
  on : Bool
  mask : Bool
  vectors : Sparse MsixVec
  pending : List Nat
  deriving DecidableEq, Repr

/-- MSI-X at reset: disabled, nothing pending. -/
def Msix.reset : Msix := ⟨false, false, [], []⟩

/-- What leaves the device, newest first: frames on ports, frames cut short with an inverted FCS, host memory writes (with Relaxed
Ordering or not), MSI-X messages with the vector's address and data, chain frames,
level changes of output pins, read data returned to a party, host read requests, pause frames. -/
inductive Out where
  | frame (port : Nat) (bytes : List Byte)
  | cutFrame (port : Nat)
  | hostWrite (relaxed : Bool) (addr : Nat) (bytes : List Byte)
  | hostRead (tag addr len : Nat)
  | msix (vector : Nat) (addr : DWord) (data : Word)
  | chain (bytes : List Byte)
  | pin (name : String) (high : Bool)
  | readData (p : Party) (value : Word)
  | apertureData (poisoned : Bool) (bytes : List Byte)
  | unsupported
  | pause (port : Nat) (pfc : Bool) (enable quanta : Nat)
  deriving DecidableEq, Repr

/-- The host interface: link; Bus Master Enable, Max_Payload_Size, Max_Read_Request_Size, completion timeout range, D3hot and MSI-X of the
configuration space; rings, bulk channels, the channel that last had its turn on the link, the next non-posted tag, the tags of requests that ended without their completion with the device address each stood at,
violation log, heartbeat. -/
structure HostIf where
  link : Bool
  bme : Bool
  speed : Nat
  width : Nat
  flit : Bool
  mps : Nat
  mrrs : Nat
  timeout : Nat
  d3 : Bool
  msi : Msix
  turn : Nat
  nextTag : Nat
  orphans : List (Nat × Nat)
  rings : Sparse Ring
  chans : Sparse BulkChan
  viol : List Viol
  lastHbValue : Word
  hbTicks : Nat
  deriving DecidableEq, Repr

/-- The host interface at power-on: link down. -/
def HostIf.reset : HostIf := ⟨false, false, 0, 0, false, 128, 512, 0, false, Msix.reset, 7, 0, [], [], [], [], 0, 0⟩

/-- The abort and degradation state (R480 to R491): target kind and index of the last abort; while one is in
progress its end and the ELAPSED of the one before; the MGT_ABORT_LO words of those that wait (R484); ticks of the corrected-error window, corrected
FEC symbols per lane in it, and what the last poll of each lane's module found (R520): 1 present, 2 loss of signal. -/
structure RasUnit where
  last : Option (Nat × Nat)
  cur : Option (DWord × Nat)
  waiting : List Word
  ceTicks : Nat
  lanes : Sparse Nat
  modules : Sparse Nat
  deriving DecidableEq, Repr

/-- No abort, no error. -/
def RasUnit.reset : RasUnit := ⟨none, none, [], 0, [], []⟩

/-- The fuses of one part (Table 23-4 class F): MGT_REV, MGT_SECURE, the key hashes of the four slots, JTAGOFF, the PCI Express serial
number, and the integrator fuse word of the subsystem IDs (vendor in its low half), none while it is unprogrammed (Table 18-1). -/
structure Fuses where
  rev : Word
  secure : Word
  keyHash : List (List Byte)
  jtagOff : Bool
  serial : DWord
  subsys : Option Word
  deriving DecidableEq, Repr

/-- Fuses with nothing blown but the silicon stepping A1 (R1). The ordering code in MGT_REV.CODE is a fuse whose value the spec leaves to
the part: DESIGN CHOICE 0, the TZP7264-AI (log entry 38), and so is the serial number: DESIGN CHOICE 0 (log entry 50). -/
def Fuses.reset : Fuses := ⟨0xA1, 0, [], false, 0, none⟩

end Sys2Proof.Machine
end

