-- ==== Sys2Proof/Machine/DataTypes.lean ====
section
/-! DEFINITION. The state of the data plane as plain data: received frames, stored frames, spores, ordering domains,
output queues, ports and buffer pools. -/

namespace Sys2Proof.Machine

/-- A frame in a MAC receive FIFO: its bytes without FCS, its timestamp (R41), and TICK_PERIOD as it
stood when it arrived (R37). -/
structure RxFrame where
  bytes : List Byte
  time : DWord
  period : Nat
  deriving DecidableEq, Repr

/-- A frame in the packet buffer (R252, R259): its cells in byte order, its bytes without FCS, the cells it draws from
the CONTROL reservation, the shared part and the injection reservation, where it was received, the copies that still
hold its cells, whether its family is CONTROL, and whether its mirror record was written (R274). -/
structure FrameRec where
  cells : List Nat
  bytes : List Byte
  ctrl : Nat
  shared : Nat
  inj : Nat
  port : Nat
  prio : Nat
  refs : Nat
  control : Bool
  mirrored : Bool
  deriving DecidableEq, Repr

/-- One destination of a release: its queue, egress context, and for a stream with a TX record the record and path. -/
structure Target where
  queue : Nat
  ctx : Nat
  path : Option (Nat × Nat)
  deriving DecidableEq, Repr

/-- Where a spore stands: held before dispatch for want of a place (R243, R246, R251), in the dispatch queue of a frond, in
a slot of a thread, released with its decision (Table 10-5), destinations, group and timestamp request and waiting in the
ordering unit, or waiting for the slow path. -/
inductive SporeAt where
  | held
  | queue (f : Nat)
  | slot (t : Tid) (second : Bool)
  | released (decision : Nat) (targets : List Target) (group : Nat) (ts : Bool)
  | slow
  deriving DecidableEq, Repr

/-- A spore (R239): its 16 descriptor words, where it stands, its frame's first cell, its deadline (0 for SLOW), its ordering
domain (none for a SLOW spore, R248), whether the ordering unit discarded it at its deadline, its ingress priority, the ports
of its first R-TAG, whether its release was late, the mirror timestamp request, whether its wait for a residue entry was
counted, and the program bank in which it was dispatched (R33). -/
structure Spore where
  desc : List Word
  stands : SporeAt
  cell : Nat
  deadline : DWord
  domain : Option Nat
  dead : Bool
  late : Bool
  iprio : Nat
  mirrTs : Bool
  counted : Bool
  bank : Bool
  deriving DecidableEq, Repr

/-- An ordering domain (R246, R247): the next sequence number to stamp, the spores outstanding, oldest first, and while a spore is held at a
full window the outstanding one that must leave first. -/
structure Domain where
  next : Nat
  out : List Nat
  gate : Option Nat
  deriving DecidableEq, Repr

/-- A domain in which nothing has been stamped. -/
def Domain.reset : Domain := ⟨0, [], none⟩

/-- One copy in an output queue: its frame's first cell, the descriptor of its spore, its egress context, its family (7 for an
injected frame), the timestamp request, whether a mirror record asks for the timestamp, the decision (Table 10-5), its
multicast group, the sequence number of its R-TAG, the lateness flag, and for a TX record in
use the record and path it leaves by. -/
structure Copy where
  cell : Nat
  desc : List Word
  ctx : Nat
  family : Nat
  ts : Bool
  mirrTs : Bool
  decision : Nat
  group : Nat
  rtag : Option Nat
  late : Bool
  path : Option (Nat × Nat)
  deriving DecidableEq, Repr

/-- A multicast residue entry (R270): the copies not yet enqueued with their queues, the domain, and the deadline of a
CONTROL frame. -/
structure Residue where
  cell : Nat
  left : List (Nat × Copy)
  domain : Option Nat
  control : Bool
  deadline : DWord
  deriving DecidableEq, Repr

/-- One output queue: copies oldest first, deficit, push-outs, highest depth since SWC_QSEL was written, profile. -/
structure OutQ where
  copies : List Copy
  deficit : Nat
  pushouts : Nat
  hwm : Nat
  profile : Nat
  deriving DecidableEq, Repr

/-- An empty output queue. -/
def OutQ.reset : OutQ := ⟨[], 0, 0, 0, 0⟩

/-- One class of a port: credit of its shaper in units of 10^-6 bit and the instant it stands for (R289), class deficit
(R288), paused, ticks it has been paused, ticks the watchdog still ignores pause (R488), the queue that its round robin
visits (R286). -/
structure PortClass where
  credit : Int
  creditAt : DWord
  deficit : Nat
  paused : Bool
  pausedTicks : Nat
  ignore : Nat
  curQ : Option Nat
  deriving DecidableEq, Repr

/-- A port class at reset. -/
def PortClass.reset : PortClass := ⟨0, 0, 0, false, 0, 0, none⟩

/-- A transmission in progress: the copy, its queue, its bytes after rewrite, when it began, and for a preempted frame the
bytes already sent (R295). -/
structure Tx where
  q : Nat
  copy : Copy
  bytes : List Byte
  start : DWord
  sent : Nat
  deriving DecidableEq, Repr

/-- One MAC port: link, verify state, preemption, PAUSE (ticks paused, ticks the watchdog ignores it), the gate list's running
entry, its start and that of the cycle (none before the first), the active bank, the tick of an armed swap, the class its DWRR group visits, the transmission in
progress, a preempted frame, the partitions for which flow control was sent, and whether it is fenced or held down. -/
structure Port where
  link : Bool
  vstate : Nat
  pactive : Bool
  pausedAll : Bool
  pausedTicks : Nat
  ignore : Nat
  gateEntry : Nat
  gateStart : DWord
  cycleStart : Option DWord
  gateBank : Bool
  armed : Option (BitVec 48)
  dwrr : Option Nat
  tx : Option Tx
  cut : Option Tx
  xoff : Nat
  fenced : Bool
  deriving DecidableEq, Repr

/-- A port at reset: no link. -/
def Port.reset : Port where
  link := false
  vstate := 0
  pactive := false
  pausedAll := false
  pausedTicks := 0
  ignore := 0
  gateEntry := 0
  gateStart := 0
  cycleStart := none
  gateBank := false
  armed := none
  dwrr := none
  tx := none
  cut := none
  xoff := 0
  fenced := false

/-- Who holds an element of a pool: a thread, the host or dispatch (R279). -/
inductive Holder where
  | thread (t : Tid)
  | host
  | dispatch
  deriving DecidableEq, Repr

/-- One buffer pool: whether it is valid, the holder of each allocated element by index, its level (R282), and the pointer of its rotation
(R280): the requester after the one last served. -/
structure Pool where
  valid : Bool
  held : List (Nat × Holder)
  level : Nat
  turn : Nat
  deriving DecidableEq, Repr

/-- A pool that is not configured. -/
def Pool.reset : Pool := ⟨false, [], 0, 0⟩

/-- Per-frond telemetry of the tick in progress (DBG_TEL). -/
structure Tele where
  released : Nat
  worst : Nat
  slack : Option Int
  depth : Nat
  late : Nat
  deriving DecidableEq, Repr

/-- Telemetry at the start of a tick. -/
def Tele.reset : Tele := ⟨0, 0, none, 0, 0⟩

/-- One slow-path entry waiting (R251): the spore and whether a TOSLOW release sent it. -/
structure SlowEntry where
  spore : Nat
  toslow : Bool
  deriving DecidableEq, Repr

/-- The switch core and its surroundings. `rx` holds the MAC receive FIFO queues by port × 8 + priority; `lastEp` the frond
last chosen for an entry point; `violated` the partner violations logged in the tick (kind × 4,096 + object); `freeOrder` the order in which spore slots (thread × 2 + slot) last became free (R242); `xpOld` the last valid map entry of
each extended port (R287). -/
structure Switch where
  rx : Sparse (List RxFrame)
  frames : Sparse FrameRec
  spores : Sparse (Option Spore)
  nextSpore : Nat
  domains : Sparse Domain
  dispQ : Sparse (List Nat)
  dispHwm : Sparse Nat
  slowQ : List SlowEntry
  queues : Sparse OutQ
  residue : List Residue
  residueHwm : Nat
  injWait : List (Nat × Copy)
  held : Sparse Bool
  glbHeld : Bool
  ports : Sparse Port
  classes : Sparse PortClass
  pools : Sparse Pool
  lastEp : Sparse Nat
  freeOrder : List Nat
  tele : Sparse Tele
  mirCount : Sparse Nat
  famLate : Sparse Nat
  dpFenced : Bool
  violated : List Nat
  thrDrops : Nat
  qwMax : Sparse Nat
  qwMin : Sparse Nat
  qwSent : Sparse Nat
  xpOld : Sparse Word
  deriving DecidableEq, Repr

/-- The data plane at reset: nothing received, stored or queued. -/
def Switch.reset : Switch where
  rx := []
  frames := []
  spores := []
  nextSpore := 1
  domains := []
  dispQ := []
  dispHwm := []
  slowQ := []
  queues := []
  residue := []
  residueHwm := 0
  injWait := []
  held := []
  glbHeld := false
  ports := []
  classes := []
  pools := []
  lastEp := []
  freeOrder := []
  tele := []
  mirCount := []
  famLate := []
  dpFenced := false
  violated := []
  thrDrops := 0
  qwMax := []
  qwMin := []
  qwSent := []
  xpOld := []

end Sys2Proof.Machine
end

