-- ==== Sys2Proof/Machine/DramTypes.lean ====
section
/-! DEFINITION. The state of the DRAM controller beside its registers, as plain data. -/

namespace Sys2Proof.Machine

/-- What the DIMM sockets hold (R389, R390): DIMMs per channel, capacity of each in GiB, ranks, the code of the highest data rate
of the DIMMs, and whether the channels are fitted unlike. -/
structure Board where
  dimms : Nat
  gib : Nat
  ranks : Nat
  speed : Nat
  mismatch : Bool
  deriving DecidableEq, Repr

/-- The board a fresh device stands on: one DIMM of 16 GiB on every channel. -/
def Board.reset : Board := ⟨1, 16, 1, 0, false⟩

/-- Errors of one channel in the window in progress (R407). -/
structure ErrWin where
  ce : Nat
  ue : Nat
  deriving DecidableEq, Repr

/-- A channel without errors. -/
def ErrWin.reset : ErrWin := ⟨0, 0⟩

/-- The requests of one channel (R394, R395): those in its queue and those held for want of an entry, oldest first, and the requester
that it served last. -/
structure DramChan where
  queue : List DramReq
  held : List DramReq
  turn : Nat
  deriving DecidableEq, Repr

/-- A channel that nobody waits for; the first turn is requester 0's. -/
def DramChan.reset : DramChan := ⟨[], [], 19⟩

/-- The DRAM controller: fill of the real-time FIFO, errors per channel in the window, ticks of the window, whether PANIC
is raised, DIMM_PWREN per slot, the slots in self-refresh, the speed in use, whether it is ready or trains, the DIMMs found, the
start of the scrub walk in progress and its blocks left, the end of the latest retraining pause and its subchannel, fenced channels,
how often the content of a keep unit (slot × 2 + group) and of the training areas was lost (unit 4), the requests that wait per channel,
and per channel the log of the first error of the other kind than the one its log registers show (R404). -/
structure DramUnit where
  board : Board
  rtFill : Nat
  errs : Sparse ErrWin
  winTicks : Nat
  panic : Bool
  pwren : Nat
  selfRefresh : Nat
  speed : Nat
  ready : Bool
  training : Bool
  present : Nat
  scrubStart : DWord
  scrubLeft : Nat
  pauseEnd : DWord
  pauseSub : Nat
  fenced : Nat
  gens : Sparse Nat
  chans : Sparse DramChan
  elogs : Sparse (List Word)
  deriving DecidableEq, Repr

/-- The controller at power-on: not ready, every DIMM supplied. -/
def DramUnit.reset : DramUnit where
  board := Board.reset
  rtFill := 0
  errs := []
  winTicks := 0
  panic := false
  pwren := 0xFFFF
  selfRefresh := 0
  speed := 0
  ready := false
  training := false
  present := 0
  scrubStart := 0
  scrubLeft := 0
  pauseEnd := 0
  pauseSub := 0
  fenced := 0
  gens := []
  chans := []
  elogs := []

end Sys2Proof.Machine
end

