-- ==== Sys2Proof/Machine/SignalTypes.lean ====
section
/-! DEFINITION. The state of the signal table, the vote unit and the publication builder as plain data. -/

namespace Sys2Proof.Machine

/-- A signal entry (Table 14-1). -/
structure Sig where
  value : DWord
  prev : DWord
  ts : DWord
  src : Nat
  prevQ : Byte
  quality : Byte
  type : Nat
  valid : Bool
  subst : Bool
  staleChk : Bool
  old : Bool
  changes : Half
  wtick : Half
  deriving DecidableEq, Repr

/-- An entry at reset. -/
def Sig.reset : Sig := ⟨0, 0, 0, 0, 0, 0, 0, false, false, false, false, 0, 0⟩

/-- The vote state of a group (SIG_VG_STATE). -/
structure VoteState where
  drun : Nat
  reported : Bool
  good : Nat
  deriving DecidableEq, Repr

/-- A group that has not been evaluated. -/
def VoteState.reset : VoteState := ⟨0, false, 0⟩

/-- A built message that waits to be queued (R362): its set, queue and transport, the position of its IP header (0 for Ethernet)
and of its NetworkMessage, its bytes before lengths and checksums are filled in, for each DataSetMessage the position of its
Status and the quality class it is judged by, and whether it is sent late (Table 02-3 item 1). -/
structure Built where
  set : Nat
  queue : Nat
  transport : Nat
  ip : Nat
  msg : Nat
  bytes : List Byte
  stats : List (Nat × Nat)
  late : Bool
  deriving DecidableEq, Repr

/-- The signal unit. `oldAll` is the OLD bit of every entry that the table does not list (R29, R530); `unbuilt` the sets of
the tick in progress whose build did not finish, `voteFrom` the first group not evaluated. `pubPos` holds per set the
positions recorded at commit (R532); `swept` tells that the sweep has run in the tick in progress. -/
structure SigUnit where
  entries : Sparse Sig
  oldAll : Bool
  tick16 : Half
  sweepPos : Nat
  votes : Sparse VoteState
  voteFrom : Option Nat
  built : List Built
  unbuilt : List Nat
  pubPos : Sparse Nat
  swept : Bool
  deriving DecidableEq, Repr

/-- The signal unit at reset. -/
def SigUnit.reset : SigUnit := ⟨[], false, 0, 0, [], none, [], [], [], false⟩

end Sys2Proof.Machine
end

