-- ==== Sys2Proof/Machine/StreamTypes.lean ====
section
/-! DEFINITION. The state of the control-stream unit as plain data. -/

namespace Sys2Proof.Machine

/-- What a stream gate followed: its cycle multiplier less one, and the word 0 and interval of each entry. -/
structure SProg where
  mult : Nat
  entries : List (Word × Nat)
  deriving DecidableEq, Repr

/-- A stream gate's own state (CTL_GCTL): cycle multiplier less one, PENDING, active bank, INVRX, INVRX_EN, list lengths, and what it followed
before each instant at which that changed, newest first (R327). -/
structure SGate where
  mult : Nat
  pending : Bool
  bankB : Bool
  invrx : Bool
  invrxEn : Bool
  lenA : Nat
  lenB : Nat
  past : List (DWord × SProg)
  deriving DecidableEq, Repr

/-- A gate at reset. -/
def SGate.reset : SGate := ⟨0, false, false, false, false, 1, 1, []⟩

/-- A meter's buckets (R329), in units of 10^-6 bit, and the time of their last update. -/
structure Meter where
  c : Nat
  e : Nat
  at_ : DWord
  deriving DecidableEq, Repr

/-- A meter that nothing has configured. -/
def Meter.reset : Meter := ⟨0, 0, 0⟩

/-- A FRER record's own state (R331, R334, R531): whether it exists, RECOVSEQ, TAKEANY, the history vector, ticks that ended without a passed
frame, whether one passed in the tick in progress, the latent period's counts and ages, and the eight counters. -/
structure Frer where
  exist : Bool
  recov : Nat
  takeAny : Bool
  hist : BitVec 128
  idle : Nat
  seen : Bool
  passed : Nat
  discarded : Nat
  latAge : Nat
  resetAge : Nat
  counts : List Nat
  deriving DecidableEq, Repr

/-- A FRER record that does not exist. -/
def Frer.reset : Frer := ⟨false, 0, true, 0, 0, false, 0, 0, 0, 0, List.replicate 8 0⟩

/-- Measurements of one path in one tick: frames (RX) or window hits (TX), largest lateness, duplicates or misses, rogues or
expired copies, and whether its link was down at any time. -/
structure Meas where
  frames : Nat
  late : Option Int
  dups : Nat
  rogues : Nat
  down : Bool
  portMiss : Bool
  deriving DecidableEq, Repr

/-- A path with nothing measured. -/
def Meas.reset : Meas := ⟨0, none, 0, 0, false, false⟩

/-- An adaptation record's own state (R339 to R341): run counts per path, active path per slot, NOALT per slot, a host write that
waits for step 5, measurements of the tick in progress and of the last tick, and what CTL_MEAS shows: measurements with the bad and good
run count of each path, as last latched (R503). -/
structure Adapt where
  bad : List Nat
  good : List Nat
  active : List Nat
  noalt : List Bool
  waiting : Option (List Word)
  cur : List Meas
  last : List Meas
  shown : List (Meas × Nat × Nat)
  deriving DecidableEq, Repr

/-- An adaptation record's state before any decision. -/
def Adapt.reset : Adapt :=
  ⟨[0, 0, 0, 0], [0, 0, 0, 0], [0, 1, 2, 3], [false, false, false, false], none,
    List.replicate 4 Meas.reset, List.replicate 4 Meas.reset,
    List.replicate 4 (Meas.reset, 0, 0)⟩

/-- The control-stream unit: frames per tick by handle, filter counters (filter × 8 + j), gates, meters, FRER records,
adaptation records, LATE counts by handle, window misses by port × 8 + class and ports whose link was
down in the tick, and the tick of an armed gate swap (R328). -/
structure StreamUnit where
  fpt : Sparse Nat
  fcnt : Sparse Nat
  gates : Sparse SGate
  meters : Sparse Meter
  frer : Sparse Frer
  adapt : Sparse Adapt
  late : Sparse Nat
  misses : List Nat
  downs : List Nat
  swapAt : Option (BitVec 48)
  deriving DecidableEq, Repr

/-- The control-stream unit at reset. -/
def StreamUnit.reset : StreamUnit := ⟨[], [], [], [], [], [], [], [], [], none⟩

end Sys2Proof.Machine
end

