-- ==== Sys2Proof/Machine/TableTypes.lean ====
section
/-! DEFINITION. The state of the forwarding and stream tables as plain data. -/

namespace Sys2Proof.Machine

/-- One table entry (R302 to R305): words 0 to 6, whether the previous seed pair placed it, HIT, and the gateway command that last
wrote it (R317), by frond and number. -/
structure TEntry where
  words : List Word
  prev : Bool
  hit : Bool
  writer : Option (Nat × Nat)
  deriving DecidableEq, Repr

/-- A walking operation of the command register (R307, R316): its opcode, table, first and next bucket, the buckets still to
visit, the argument and STATIC of a flush, entries removed and HIT bits cleared. -/
structure Walk where
  op : Nat
  table : Nat
  start : Nat
  next : Nat
  left : Nat
  arg : Nat
  statics : Bool
  deleted : Nat
  cleared : Nat
  deriving DecidableEq, Repr

/-- The two tables (slot key: table × 262,144 + index), their previous seed pairs (table × 2 + k), ageing cursors, the
walk in progress, the learn unit's per-tick memory (keys notified per pipeline, notifications per port), fenced quarters, and the slots of
entries that found no room in a migration (R320). -/
structure TableUnit where
  slots : Sparse (Option TEntry)
  prevSeed : Sparse Nat
  cursor : Sparse Nat
  walk : Option Walk
  notified : Sparse (List Nat)
  lrnCount : Sparse Nat
  fenced : Nat
  stuck : List Nat
  deriving DecidableEq, Repr

/-- The tables at reset: empty. -/
def TableUnit.reset : TableUnit := ⟨[], [], [], none, [], [], 0, []⟩

end Sys2Proof.Machine
end

