-- ==== Sys2Proof/Machine/ModeTypes.lean ====
section
/-! DEFINITION. The state of the mode controller: the pending mode command, DRAIN and KEEP in progress, and what the resume image
holds, as plain data. -/

namespace Sys2Proof.Machine

/-- What the resume image holds (Table 20-5): registers, window records, extraction items (in harvest memory), tables with their previous
seed pairs, signal entries, positions of the publication sets, queue profiles, stream gates, the committed image of
each frond, the services. -/
structure Snap where
  regs : Sparse Word
  recs : Sparse Word
  harvest : List Host.Cell
  slots : Sparse (Option TEntry)
  prevSeed : Sparse Nat
  sigs : Sparse Sig
  pubPos : Sparse Nat
  profiles : List (Nat × Nat)
  gates : Sparse SGate
  images : List (Nat × Image)
  services : Nat
  deriving DecidableEq, Repr

/-- A latched wake (R463, R466): the subchannels that fail training, whether the image passes its checks, whether PE_PERST_N made it. -/
structure Wake where
  fail : BitVec 16
  ok : Bool
  perst : Bool
  deriving DecidableEq, Repr

/-- The mode controller: CAUSE and TARGET of MGT_MODE, the pending command with its target and whether AUTORUN issued it, whether a write
restarted the heartbeat count in the tick in progress (R439), ticks of the DRAIN in progress (none before its first
boundary), whether KEEP is being entered and how many pages its image takes, a latched wake, whether AUTORUN is due, and in KEEP the
resume image. -/
structure ModeUnit where
  cause : Nat
  target : Bool
  cmd : Option (Nat × Bool × Bool)
  hbWritten : Bool
  drainTicks : Nat
  entering : Bool
  pages : Nat
  wake : Option Wake
  autorun : Bool
  snap : Option Snap
  deriving DecidableEq, Repr

/-- The mode controller at power-on. -/
def ModeUnit.reset : ModeUnit where
  cause := 0
  target := false
  cmd := none
  hbWritten := false
  drainTicks := 0
  entering := false
  pages := 0
  wake := none
  autorun := false
  snap := none

end Sys2Proof.Machine
end

