-- ==== Sys2Proof/Machine/PeatTypes.lean ====
section
/-! DEFINITION. The state of the peat engine and the trend service as plain data. -/

namespace Sys2Proof.Machine

/-- A record on its way to a page (R371, R375): stream, tick t, b(t), time, signal, KIND type, quality class, value, and whether
APPEND brought it. -/
structure PRec where
  stream : Nat
  tick : Nat
  base : Nat
  time : Nat
  signal : Nat
  kind : Nat
  cls : Nat
  value : DWord
  app : Bool
  deriving DecidableEq, Repr

/-- A stream as the engine runs it: the record in effect (empty when it is not running), whether a commit waits for the next
step 8 (R368), whether it has a page, the newest page's sequence, whether that page is open, its first and last tick, base
time, flags and records (Table 15-4), the records appended in the tick in progress, those of the ticks before that no scan has
passed on, GAP due to the next page, and the records committed. -/
structure PStream where
  run : List Word
  dirty : Bool
  has : Bool
  seq : Nat
  opened : Bool
  first : Nat
  last : Nat
  base : Nat
  flags : Nat
  recs : List (List Byte)
  appended : List PRec
  due : List PRec
  gap : Bool
  committed : Word
  deriving DecidableEq, Repr

/-- A stream that is not running. -/
def PStream.reset : PStream := ⟨[], false, false, 0, false, 0, 0, 0, 0, [], [], [], false, 0⟩

/-- What the engine keeps of one signal of a stream (R370, R372): last value and quality class recorded, the tick of its last
record; samples included since the last recording scan, whether one of the window was not GOOD, minimum, maximum, the exact
integer sum, the binary64 sum (none for a NaN). -/
structure PSig where
  last : Option (DWord × Nat)
  tick : Nat
  n : Nat
  notGood : Bool
  lo : DWord
  hi : DWord
  isum : Int
  fsum : Option Nat
  deriving DecidableEq, Repr

/-- A signal with no recorded value and an empty window. -/
def PSig.reset : PSig := ⟨none, 0, 0, false, 0, 0, 0, some 0⟩

/-- Where a TRP response resumes (R386): the signals still to read, the page and the record in it, the interval or stream, and how
many items the request still allows. -/
structure TrpPos where
  signals : List Nat
  page : Nat
  idx : Nat
  k : Nat
  left : Nat
  deriving DecidableEq, Repr

/-- A cursor (R386): the client's address and port, the request, the latest generation and where it resumes, the generation used to
get it with its place, the instant the latest token was issued, whether the cursor is in use. -/
structure Cursor where
  used : Bool
  addr : List Byte
  port : Nat
  type : Nat
  body : List Byte
  gen : Nat
  pos : TrpPos
  prev : Option TrpPos
  issued : DWord
  deriving DecidableEq, Repr

/-- A cursor that no request has used. -/
def Cursor.reset : Cursor := ⟨false, [], 0, 0, [], 0, ⟨[], 0, 0, 0, 0⟩, none, 0⟩

/-- The peat engine and the trend service. `todo` holds, for the scan in progress of tick `scanTick`, each stream still to scan
with the offset of its next signal, b(t) and b(t + 1) standing in `b0` and `b1`; `fifo` the records made and not yet written;
`lost` per stream the record of R492 (group, oldest, newest); `reply` a TRP reply that EMIT answered FULL. -/
structure PeatUnit where
  streams : Sparse PStream
  sigs : Sparse PSig
  todo : List (Nat × Nat)
  scanTick : Nat
  b0 : Nat
  b1 : Nat
  fifo : List PRec
  hwm : Nat
  lost : Sparse (Option (Nat × Nat × Nat))
  cursors : Sparse Cursor
  reply : Option (List Byte × Nat)
  deriving DecidableEq, Repr

/-- The peat engine at reset. -/
def PeatUnit.reset : PeatUnit := ⟨[], [], [], 0, 0, 0, [], 0, [], [], none⟩

end Sys2Proof.Machine
end

