-- ==== Sys2Proof/Machine/RegMap.lean ====
section
/-! DEFINITION. The register map of BAR0: the offset of every register (Table 23-1 and the header line of
each register in its defining chapter), and for each its reset value, its access masks (Table 00-4) and its
reset class (Table 23-4). -/

namespace Sys2Proof.Machine

/-- The reset classes of Table 23-4 (R515). `m` and `d` are the class C members BLK_MBX_* and DBG, which a
KEEP wake returns to reset instead of restoring. -/
inductive RegClass where
  | a | f | h | c | m | d
  deriving DecidableEq, Repr

/-- One register of the map, replicated over `dims` (count, stride), with the access masks of its fields.
A bit in none of the masks is RO or reserved (R4, R509). -/
structure RegRow where
  name : String
  base : Nat
  dims : List (Nat × Nat)
  reset : Nat
  rw : Nat
  rwl : Nat
  w1c : Nat
  w1s : Nat
  wo : Nat
  cls : RegClass
  deriving DecidableEq, Repr

/-- Is `d` the displacement of some copy of a register replicated over `dims`? (R505) -/
def RegRow.hits : List (Nat × Nat) → Nat → Bool
  | [], d => d == 0
  | (n, st) :: rest, d => decide (d / st < n) && RegRow.hits rest (d % st)

/-- Does the register (one of its copies) lie at BAR0 offset `off`? -/
def RegRow.covers (r : RegRow) (off : Nat) : Bool :=
  decide (r.base ≤ off) && RegRow.hits r.dims (off - r.base)

namespace Reg

/-- TICK_CTRL (02, RWL). -/
def TICK_CTRL : Nat := 0x20000
/-- TICK_PERIOD (02, RWL). -/
def TICK_PERIOD : Nat := 0x20004
/-- TICK_PHASE (02, RWL). -/
def TICK_PHASE : Nat := 0x20008
/-- TICK_STATUS (02, RO, W1C). -/
def TICK_STATUS : Nat := 0x2000C
/-- TICK_NUMBER_LO (02, RWL). -/
def TICK_NUMBER_LO : Nat := 0x20010
/-- TICK_NUMBER_HI (02, RWL). -/
def TICK_NUMBER_HI : Nat := 0x20014
/-- TICK_BTIME_LO (02, RO). -/
def TICK_BTIME_LO : Nat := 0x20018
/-- TICK_BTIME_HI (02, RO). -/
def TICK_BTIME_HI : Nat := 0x2001C
/-- TICK_WINDOW (02, RWL). -/
def TICK_WINDOW : Nat := 0x20020
/-- TICK_OVR_COUNT (02, RO). -/
def TICK_OVR_COUNT : Nat := 0x20024
/-- TICK_OVR_LOG0 (02, RO). -/
def TICK_OVR_LOG0 : Nat := 0x20028
/-- TICK_OVR_LOG1 (02, RO). -/
def TICK_OVR_LOG1 : Nat := 0x2002C
/-- TICK_STRAY (02, RO). -/
def TICK_STRAY : Nat := 0x20030
/-- TICK_LATE_COUNT (02, RO). -/
def TICK_LATE_COUNT : Nat := 0x20034
/-- TICK_OUT_CTRL (02, RW). -/
def TICK_OUT_CTRL : Nat := 0x20038
/-- PTP_TIME_LO (02, RO). -/
def PTP_TIME_LO : Nat := 0x30000
/-- PTP_TIME_HI (02, RO). -/
def PTP_TIME_HI : Nat := 0x30004
/-- PTP_STEP_LO (02, RWL). -/
def PTP_STEP_LO : Nat := 0x30008
/-- PTP_STEP_HI (02, RWL). -/
def PTP_STEP_HI : Nat := 0x3000C
/-- PTP_FADJ (02, RW). -/
def PTP_FADJ : Nat := 0x30010
/-- PTP_PADJ (02, RW). -/
def PTP_PADJ : Nat := 0x30014
/-- PTP_SLEW (02, RW). -/
def PTP_SLEW : Nat := 0x30018
/-- PTP_CTRL (02, RW). -/
def PTP_CTRL : Nat := 0x3001C
/-- PTP_STATUS (02, RO). -/
def PTP_STATUS : Nat := 0x30020
/-- PTP_PPSIN_LO (02, RO). -/
def PTP_PPSIN_LO : Nat := 0x30024
/-- PTP_PPSIN_HI (02, RO). -/
def PTP_PPSIN_HI : Nat := 0x30028
/-- PTP_PPSOUT_W (02, RW). -/
def PTP_PPSOUT_W : Nat := 0x3002C
/-- PTP_TXTS_META (02, RO). -/
def PTP_TXTS_META : Nat := 0x30030
/-- PTP_TXTS_LO (02, RO). -/
def PTP_TXTS_LO : Nat := 0x30034
/-- PTP_TXTS_HI (02, RO). -/
def PTP_TXTS_HI : Nat := 0x30038
/-- PTP_TXTS_LOST (02, RO). -/
def PTP_TXTS_LOST : Nat := 0x3003C
/-- PTP_DOMNUM (02, RW). -/
def PTP_DOMNUM : Nat := 0x30040
/-- PTP_ROLE (02, RW). -/
def PTP_ROLE (d w : Nat) : Nat := 0x30100 + d * 0x10 + w * 0x4
/-- CORE_STATUS (05, RO). -/
def CORE_STATUS (f c : Nat) : Nat := 0x1040000 + f * 0x100000 + c * 0x800
/-- CORE_SLOTMODE (05, RWL). -/
def CORE_SLOTMODE (f c : Nat) : Nat := 0x1040004 + f * 0x100000 + c * 0x800
/-- CORE_FAULT_CNT (05, RO). -/
def CORE_FAULT_CNT (f c : Nat) : Nat := 0x1040008 + f * 0x100000 + c * 0x800
/-- CORE_FAULT_LAST0 (05, RO). -/
def CORE_FAULT_LAST0 (f c : Nat) : Nat := 0x104000C + f * 0x100000 + c * 0x800
/-- CORE_FAULT_LAST1 (05, RO). -/
def CORE_FAULT_LAST1 (f c : Nat) : Nat := 0x1040010 + f * 0x100000 + c * 0x800
/-- CORE_DFAULT_CNT (05, RO). -/
def CORE_DFAULT_CNT (f c : Nat) : Nat := 0x1040014 + f * 0x100000 + c * 0x800
/-- CORE_IPGATE (05, RO). -/
def CORE_IPGATE (f c : Nat) : Nat := 0x1040018 + f * 0x100000 + c * 0x800
/-- CORE_SHARECFG (06, RWL). -/
def CORE_SHARECFG (f c : Nat) : Nat := 0x104001C + f * 0x100000 + c * 0x800
/-- MGT_LD_CMD (06, RW). -/
def MGT_LD_CMD : Nat := 0x100
/-- MGT_LD_ADDR_LO (06, RW). -/
def MGT_LD_ADDR_LO : Nat := 0x104
/-- MGT_LD_ADDR_HI (06, RW). -/
def MGT_LD_ADDR_HI : Nat := 0x108
/-- MGT_LD_LEN (06, RW). -/
def MGT_LD_LEN : Nat := 0x10C
/-- MGT_LD_STATUS (06, RO). -/
def MGT_LD_STATUS : Nat := 0x110
/-- MGT_LD_OFFSET (06, RO). -/
def MGT_LD_OFFSET : Nat := 0x114
/-- MGT_LD_RPT_LO (06, RW). -/
def MGT_LD_RPT_LO : Nat := 0x118
/-- MGT_LD_RPT_HI (06, RW). -/
def MGT_LD_RPT_HI : Nat := 0x11C
/-- MGT_SWAP_TICK_LO (06, RW). -/
def MGT_SWAP_TICK_LO : Nat := 0x120
/-- MGT_SWAP_TICK_HI (06, RW). -/
def MGT_SWAP_TICK_HI : Nat := 0x124
/-- MGT_SWAP_STATUS (06, RO). -/
def MGT_SWAP_STATUS : Nat := 0x128
/-- MGT_SECURE (06, RO). -/
def MGT_SECURE : Nat := 0x12C
/-- FRD_LCK_STATUS (07, RO). -/
def FRD_LCK_STATUS (f : Nat) : Nat := 0x1001000 + f * 0x100000
/-- FRD_LCK_FULLCNT (07, RO). -/
def FRD_LCK_FULLCNT (f : Nat) : Nat := 0x1001004 + f * 0x100000
/-- FRD_LCK_ABNDCNT (07, RO). -/
def FRD_LCK_ABNDCNT (f : Nat) : Nat := 0x1001008 + f * 0x100000
/-- FRD_LCK_INHCNT (07, RO). -/
def FRD_LCK_INHCNT (f : Nat) : Nat := 0x100100C + f * 0x100000
/-- MGT_DLCK_STATUS (07, RO). -/
def MGT_DLCK_STATUS : Nat := 0x800
/-- MGT_DLCK_FULLCNT (07, RO). -/
def MGT_DLCK_FULLCNT : Nat := 0x804
/-- MGT_DLCK_ABNDCNT (07, RO). -/
def MGT_DLCK_ABNDCNT : Nat := 0x808
/-- FRD_TSK_CFG (07, RWL). -/
def FRD_TSK_CFG (f : Nat) : Nat := 0x1003000 + f * 0x100000
/-- FRD_TSK_READY (07, RW). -/
def FRD_TSK_READY (f : Nat) : Nat := 0x1003004 + f * 0x100000
/-- FRD_TSK_LVL (07, RO). -/
def FRD_TSK_LVL (f l : Nat) : Nat := 0x1003100 + f * 0x100000 + l * 0x4
/-- FRD_TSK_WMAX (07, RO). -/
def FRD_TSK_WMAX (f l : Nat) : Nat := 0x1003200 + f * 0x100000 + l * 0x4
/-- FRD_TSK_WMEAN (07, RO). -/
def FRD_TSK_WMEAN (f l : Nat) : Nat := 0x1003280 + f * 0x100000 + l * 0x4
/-- FRD_TSK_REFUSED (07, RO). -/
def FRD_TSK_REFUSED (f l : Nat) : Nat := 0x1003300 + f * 0x100000 + l * 0x4
/-- FRD_TSK_BUSY (07, RO). -/
def FRD_TSK_BUSY (f c : Nat) : Nat := 0x1003380 + f * 0x100000 + c * 0x4
/-- FRD_TSK_EVENTS (07, RO). -/
def FRD_TSK_EVENTS (f : Nat) : Nat := 0x10033C0 + f * 0x100000
/-- FRD_DL_STATUS (07, RO, W1C). -/
def FRD_DL_STATUS (f : Nat) : Nat := 0x1003800 + f * 0x100000
/-- FRD_DL_TICK (07, RO). -/
def FRD_DL_TICK (f : Nat) : Nat := 0x1003804 + f * 0x100000
/-- FRD_DL_COUNT (07, RO). -/
def FRD_DL_COUNT (f : Nat) : Nat := 0x1003808 + f * 0x100000
/-- FRD_DL_EDGE0 (07, RO). -/
def FRD_DL_EDGE0 (f t : Nat) : Nat := 0x1003900 + f * 0x100000 + t * 0x8
/-- FRD_DL_EDGE1 (07, RO). -/
def FRD_DL_EDGE1 (f t : Nat) : Nat := 0x1003904 + f * 0x100000 + t * 0x8
/-- FRD_CQ_CFG (08, RWL). -/
def FRD_CQ_CFG (f k : Nat) : Nat := 0x1005000 + f * 0x100000 + k * 0x4
/-- FRD_CQ_LVL (08, RO, W1C). -/
def FRD_CQ_LVL (f k : Nat) : Nat := 0x1005020 + f * 0x100000 + k * 0x4
/-- FRD_CQ_FULL (08, RO). -/
def FRD_CQ_FULL (f : Nat) : Nat := 0x1005040 + f * 0x100000
/-- FRD_CQ_ORPHAN (08, RO). -/
def FRD_CQ_ORPHAN (f : Nat) : Nat := 0x1005044 + f * 0x100000
/-- FRD_CQ_LATE (08, RO). -/
def FRD_CQ_LATE (f : Nat) : Nat := 0x1005048 + f * 0x100000
/-- FRD_CQ_EXPIRED (08, RO). -/
def FRD_CQ_EXPIRED (f : Nat) : Nat := 0x100504C + f * 0x100000
/-- FRD_CQ_HSUB (08, WO). -/
def FRD_CQ_HSUB (f : Nat) : Nat := 0x1005060 + f * 0x100000
/-- FRD_CQ_HSTAT (08, RO). -/
def FRD_CQ_HSTAT (f : Nat) : Nat := 0x1005064 + f * 0x100000
/-- FRD_CQ_HTAG (08, RO). -/
def FRD_CQ_HTAG (f t : Nat) : Nat := 0x1005080 + f * 0x100000 + t * 0x4
/-- PRS_CTRL (09, RWL). -/
def PRS_CTRL : Nat := 0x100000
/-- PRS_TPID (09, RWL). -/
def PRS_TPID : Nat := 0x100004
/-- PRS_UDPPORTS (09, RWL). -/
def PRS_UDPPORTS : Nat := 0x100008
/-- PRS_RSN_CNT (09, RO). -/
def PRS_RSN_CNT (r : Nat) : Nat := 0x100100 + r * 0x4
/-- CLS_RULE_W (09, RW). -/
def CLS_RULE_W (i : Nat) : Nat := 0x110000 + i * 0x4
/-- CLS_RULE_CMD (09, RW). -/
def CLS_RULE_CMD : Nat := 0x110080
/-- CLS_DEFAULT_W0 (09, RWL). -/
def CLS_DEFAULT_W0 : Nat := 0x110090
/-- CLS_DEFAULT_W1 (09, RWL). -/
def CLS_DEFAULT_W1 : Nat := 0x110094
/-- CLS_DEFAULT_W2 (09, RWL). -/
def CLS_DEFAULT_W2 : Nat := 0x110098
/-- CLS_DEFAULT_W3 (09, RWL). -/
def CLS_DEFAULT_W3 : Nat := 0x11009C
/-- CLS_NOMATCH (09, RO). -/
def CLS_NOMATCH : Nat := 0x1100A0
/-- CLS_RANGE0 (09, RWL). -/
def CLS_RANGE0 (n : Nat) : Nat := 0x111000 + n * 0x8
/-- CLS_RANGE1 (09, RWL). -/
def CLS_RANGE1 (n : Nat) : Nat := 0x111004 + n * 0x8
/-- DSP_EPSET (09, RWL). -/
def DSP_EPSET (e : Nat) : Nat := 0x120000 + e * 0x4
/-- DSP_SLOW_CFG (09, RWL). -/
def DSP_SLOW_CFG : Nat := 0x120400
/-- DSP_HASH_SEED (09, RWL). -/
def DSP_HASH_SEED : Nat := 0x120404
/-- DSP_SLOW_STAT (09, RO). -/
def DSP_SLOW_STAT : Nat := 0x120440
/-- DSP_REDIRECT (09, RO). -/
def DSP_REDIRECT : Nat := 0x120444
/-- DSP_TRUNC (09, RO). -/
def DSP_TRUNC : Nat := 0x120448
/-- DSP_ABORTDROP (09, RO). -/
def DSP_ABORTDROP : Nat := 0x12044C
/-- DSP_WINHOLD (09, RO). -/
def DSP_WINHOLD : Nat := 0x120450
/-- DSP_QLVL (09, RO, W1C). -/
def DSP_QLVL (f : Nat) : Nat := 0x120500 + f * 0x4
/-- SWC_CTRL_RSV (10, RWL). -/
def SWC_CTRL_RSV : Nat := 0x130000
/-- SWC_INJ (10, RWL). -/
def SWC_INJ : Nat := 0x130004
/-- SWC_GLB_XOFF (10, RW). -/
def SWC_GLB_XOFF : Nat := 0x130008
/-- SWC_GLB_XON (10, RW). -/
def SWC_GLB_XON : Nat := 0x13000C
/-- SWC_SHARED_USE (10, RO). -/
def SWC_SHARED_USE : Nat := 0x130010
/-- SWC_CTRL_USE (10, RO). -/
def SWC_CTRL_USE : Nat := 0x130014
/-- SWC_INJ_USE (10, RO). -/
def SWC_INJ_USE : Nat := 0x130018
/-- SWC_PUSHOUT (10, RO). -/
def SWC_PUSHOUT : Nat := 0x13001C
/-- SWC_QPROF (10, RW). -/
def SWC_QPROF (k : Nat) : Nat := 0x130100 + k * 0x4
/-- SWC_QSEL (10, RW). -/
def SWC_QSEL : Nat := 0x130200
/-- SWC_QCFG (10, RW). -/
def SWC_QCFG : Nat := 0x130204
/-- SWC_QSTAT0 (10, RO). -/
def SWC_QSTAT0 : Nat := 0x130208
/-- SWC_QSTAT1 (10, RO). -/
def SWC_QSTAT1 : Nat := 0x13020C
/-- SWC_QSTAT2 (10, RO). -/
def SWC_QSTAT2 : Nat := 0x130210
/-- SWC_MCG_IDX (10, RW). -/
def SWC_MCG_IDX : Nat := 0x130300
/-- SWC_MCG_DATA (10, RW). -/
def SWC_MCG_DATA : Nat := 0x130304
/-- SWC_MCM_IDX (10, RW). -/
def SWC_MCM_IDX : Nat := 0x130308
/-- SWC_MCM_DATA (10, RW). -/
def SWC_MCM_DATA : Nat := 0x13030C
/-- SWC_MC_RES (10, RO). -/
def SWC_MC_RES : Nat := 0x130310
/-- SWC_MC_EXPIRED (10, RO). -/
def SWC_MC_EXPIRED : Nat := 0x130314
/-- SWC_MC_RESHOLD (10, RO). -/
def SWC_MC_RESHOLD : Nat := 0x130318
/-- SWC_MIR_CFG (10, RW). -/
def SWC_MIR_CFG (s : Nat) : Nat := 0x130400 + s * 0x20
/-- SWC_MIR_RING_LO (10, RW). -/
def SWC_MIR_RING_LO (s : Nat) : Nat := 0x130404 + s * 0x20
/-- SWC_MIR_RING_HI (10, RW). -/
def SWC_MIR_RING_HI (s : Nat) : Nat := 0x130408 + s * 0x20
/-- SWC_MIR_SIZE (10, RW, RO, RW). -/
def SWC_MIR_SIZE (s : Nat) : Nat := 0x13040C + s * 0x20
/-- SWC_MIR_WR (10, RW, RO, RW). -/
def SWC_MIR_WR (s : Nat) : Nat := 0x130410 + s * 0x20
/-- SWC_MIR_RD (10, RW, RO, RW). -/
def SWC_MIR_RD (s : Nat) : Nat := 0x130414 + s * 0x20
/-- SWC_MIR_DROP_FULL (10, RO). -/
def SWC_MIR_DROP_FULL (s : Nat) : Nat := 0x130418 + s * 0x20
/-- SWC_MIR_DROP_RATE (10, RO). -/
def SWC_MIR_DROP_RATE (s : Nat) : Nat := 0x13041C + s * 0x20
/-- SWC_IPT (10, RW). -/
def SWC_IPT (p i : Nat) : Nat := 0x131000 + p * 0x20 + i * 0x4
/-- SWC_RXF_CFG (10, RW). -/
def SWC_RXF_CFG (p : Nat) : Nat := 0x132000 + p * 0x10
/-- SWC_RXF_THR (10, RW). -/
def SWC_RXF_THR (p : Nat) : Nat := 0x132004 + p * 0x10
/-- SWC_RXF_PMAP (10, RW). -/
def SWC_RXF_PMAP (p : Nat) : Nat := 0x132008 + p * 0x10
/-- SWC_RXF_OVR (10, RO). -/
def SWC_RXF_OVR (p : Nat) : Nat := 0x13200C + p * 0x10
/-- BPM_CFG (10, RWL). -/
def BPM_CFG (n : Nat) : Nat := 0x140000 + n * 0x40
/-- BPM_BASE_LO (10, RWL). -/
def BPM_BASE_LO (n : Nat) : Nat := 0x140004 + n * 0x40
/-- BPM_BASE_HI (10, RWL). -/
def BPM_BASE_HI (n : Nat) : Nat := 0x140008 + n * 0x40
/-- BPM_COUNT (10, RWL). -/
def BPM_COUNT (n : Nat) : Nat := 0x14000C + n * 0x40
/-- BPM_USERS (10, RWL). -/
def BPM_USERS (n : Nat) : Nat := 0x140010 + n * 0x40
/-- BPM_WARN (10, RW). -/
def BPM_WARN (n : Nat) : Nat := 0x140014 + n * 0x40
/-- BPM_BP (10, RW). -/
def BPM_BP (n : Nat) : Nat := 0x140018 + n * 0x40
/-- BPM_CRIT (10, RW). -/
def BPM_CRIT (n : Nat) : Nat := 0x14001C + n * 0x40
/-- BPM_HYST (10, RW). -/
def BPM_HYST (n : Nat) : Nat := 0x140020 + n * 0x40
/-- BPM_QMINF (10, RWL). -/
def BPM_QMINF (n : Nat) : Nat := 0x140024 + n * 0x40
/-- BPM_QCAPF (10, RWL). -/
def BPM_QCAPF (n : Nat) : Nat := 0x140028 + n * 0x40
/-- BPM_QTHR (10, RWL). -/
def BPM_QTHR (n : Nat) : Nat := 0x14002C + n * 0x40
/-- BPM_QHOST (10, RWL). -/
def BPM_QHOST (n : Nat) : Nat := 0x140030 + n * 0x40
/-- BPM_STAT (10, RO). -/
def BPM_STAT (n : Nat) : Nat := 0x140034 + n * 0x40
/-- BPM_EMPTY (10, RO). -/
def BPM_EMPTY (n : Nat) : Nat := 0x140038 + n * 0x40
/-- BPM_HALLOC (10, RW). -/
def BPM_HALLOC : Nat := 0x141000
/-- BPM_HFREE (10, WO). -/
def BPM_HFREE : Nat := 0x141004
/-- BPM_HSTATUS (10, RO). -/
def BPM_HSTATUS : Nat := 0x141008
/-- BPM_STWIN (10, RWL). -/
def BPM_STWIN : Nat := 0x14100C
/-- BPM_FAILCNT (10, RO). -/
def BPM_FAILCNT : Nat := 0x141010
/-- BPM_TOTAL (10, RO). -/
def BPM_TOTAL : Nat := 0x141014
/-- BPM_EPUSE_LO (10, RWL). -/
def BPM_EPUSE_LO (e : Nat) : Nat := 0x142000 + e * 0x8
/-- BPM_EPUSE_HI (10, RWL). -/
def BPM_EPUSE_HI (e : Nat) : Nat := 0x142004 + e * 0x8
/-- EGR_TCCFG (11, RW). -/
def EGR_TCCFG (p t : Nat) : Nat := 0x150000 + p * 0x100 + t * 0x10
/-- EGR_TCSDU (11, RW). -/
def EGR_TCSDU (p t : Nat) : Nat := 0x150004 + p * 0x100 + t * 0x10
/-- EGR_CBS_IDLE (11, RW). -/
def EGR_CBS_IDLE (p t : Nat) : Nat := 0x150008 + p * 0x100 + t * 0x10
/-- EGR_CBS_CRED (11, RW). -/
def EGR_CBS_CRED (p t : Nat) : Nat := 0x15000C + p * 0x100 + t * 0x10
/-- EGR_PQW (11, RW). -/
def EGR_PQW (p : Nat) : Nat := 0x154000 + p * 0x20
/-- EGR_GCL_CTRL (11, RWL). -/
def EGR_GCL_CTRL (p : Nat) : Nat := 0x154004 + p * 0x20
/-- EGR_GCL_LEN (11, RW). -/
def EGR_GCL_LEN (p : Nat) : Nat := 0x154008 + p * 0x20
/-- EGR_GCL_IDX (11, RW). -/
def EGR_GCL_IDX (p : Nat) : Nat := 0x15400C + p * 0x20
/-- EGR_GCL_DATA0 (11, RW). -/
def EGR_GCL_DATA0 (p : Nat) : Nat := 0x154010 + p * 0x20
/-- EGR_GCL_DATA1 (11, RW). -/
def EGR_GCL_DATA1 (p : Nat) : Nat := 0x154014 + p * 0x20
/-- EGR_GCL_SWAP (11, RW). -/
def EGR_GCL_SWAP (p : Nat) : Nat := 0x154018 + p * 0x20
/-- EGR_GCL_SWSTAT (11, RW). -/
def EGR_GCL_SWSTAT (p : Nat) : Nat := 0x15401C + p * 0x20
/-- EGR_CTX_IDX (11, RW). -/
def EGR_CTX_IDX : Nat := 0x156000
/-- EGR_CTX_DATA0 (11, RW). -/
def EGR_CTX_DATA0 : Nat := 0x156004
/-- EGR_CTX_DATA1 (11, RW). -/
def EGR_CTX_DATA1 : Nat := 0x156008
/-- EGR_XP_STAT (11, RO). -/
def EGR_XP_STAT : Nat := 0x15600C
/-- EGR_XP_L (11, RW). -/
def EGR_XP_L (L : Nat) : Nat := 0x158000 + L * 0x4
/-- PORT_CFG (11, RWL). -/
def PORT_CFG (p : Nat) : Nat := 0x200000 + p * 0x1000
/-- PORT_STATUS (11, RO). -/
def PORT_STATUS (p : Nat) : Nat := 0x200004 + p * 0x1000
/-- PORT_VERIFY (11, RW). -/
def PORT_VERIFY (p : Nat) : Nat := 0x200008 + p * 0x1000
/-- PORT_RXERR (11, RO). -/
def PORT_RXERR (p : Nat) : Nat := 0x200010 + p * 0x1000
/-- PORT_TXERR (11, RO). -/
def PORT_TXERR (p : Nat) : Nat := 0x200014 + p * 0x1000
/-- TBL_CMD (12, RW). -/
def TBL_CMD : Nat := 0x160000
/-- TBL_INDEX (12, RW). -/
def TBL_INDEX : Nat := 0x160004
/-- TBL_ENTRY (12, RW). -/
def TBL_ENTRY (i : Nat) : Nat := 0x160010 + i * 0x4
/-- TBL_RESULT (12, RO). -/
def TBL_RESULT : Nat := 0x160030
/-- TBL_WALK (12, RW). -/
def TBL_WALK : Nat := 0x160034
/-- TBL_AGE (12, RW). -/
def TBL_AGE : Nat := 0x160038
/-- TBL_AGE_STAT (12, RO). -/
def TBL_AGE_STAT : Nat := 0x16003C
/-- TBL_SEED (12, RO (k = 0, 1), RW (k = 2, 3)). -/
def TBL_SEED (t k : Nat) : Nat := 0x160040 + t * 0x10 + k * 0x4
/-- TBL_RHS (12, RW). -/
def TBL_RHS (t : Nat) : Nat := 0x160060 + t * 0x4
/-- TBL_RHS_STUCK (12, RO). -/
def TBL_RHS_STUCK (t : Nat) : Nat := 0x160068 + t * 0x4
/-- TBL_USED (12, RO). -/
def TBL_USED (t : Nat) : Nat := 0x160070 + t * 0x4
/-- TBL_NRH_CNT (12, RO). -/
def TBL_NRH_CNT : Nat := 0x160078
/-- TBL_STRCFG (12, RWL). -/
def TBL_STRCFG : Nat := 0x160080
/-- TBL_LRN_CFG (12, RW). -/
def TBL_LRN_CFG : Nat := 0x160090
/-- TBL_LRN_BASE (12, RW). -/
def TBL_LRN_BASE : Nat := 0x160094
/-- TBL_LRN_DROP (12, RO). -/
def TBL_LRN_DROP : Nat := 0x160098
/-- TBL_LRN_SENT (12, RO). -/
def TBL_LRN_SENT : Nat := 0x16009C
/-- TBL_LRN_PORT (12, RW). -/
def TBL_LRN_PORT (p : Nat) : Nat := 0x160100 + p * 0x4
/-- CTL_CFG (13, RWL). -/
def CTL_CFG : Nat := 0x170000
/-- CTL_WSTAT (13, RO). -/
def CTL_WSTAT : Nat := 0x170004
/-- CTL_SIDX (13, RW). -/
def CTL_SIDX : Nat := 0x170010
/-- CTL_SDATA (13, RW). -/
def CTL_SDATA (i : Nat) : Nat := 0x170014 + i * 0x4
/-- CTL_FIDX (13, RW, RW, RO). -/
def CTL_FIDX : Nat := 0x170030
/-- CTL_FDATA (13, RW, RW, RO). -/
def CTL_FDATA (i : Nat) : Nat := 0x170034 + i * 0x4
/-- CTL_FCNT (13, RW, RW, RO). -/
def CTL_FCNT (j : Nat) : Nat := 0x170040 + j * 0x4
/-- CTL_GIDX (13, RW). -/
def CTL_GIDX : Nat := 0x170060
/-- CTL_GDATA (13, RW). -/
def CTL_GDATA (i : Nat) : Nat := 0x170064 + i * 0x4
/-- CTL_GCTL (13, RW). -/
def CTL_GCTL : Nat := 0x17006C
/-- CTL_GSWAP_TICK (13, RW). -/
def CTL_GSWAP_TICK : Nat := 0x170070
/-- CTL_GSWSTAT (13, RW). -/
def CTL_GSWSTAT : Nat := 0x170074
/-- CTL_MIDX (13, RW). -/
def CTL_MIDX : Nat := 0x170080
/-- CTL_MDATA (13, RW). -/
def CTL_MDATA (i : Nat) : Nat := 0x170084 + i * 0x4
/-- CTL_RIDX (13, RW, RW (words 0–2) or RO, RO). -/
def CTL_RIDX : Nat := 0x1700A0
/-- CTL_RDATA (13, RW, RW (words 0–2) or RO, RO). -/
def CTL_RDATA (i : Nat) : Nat := 0x1700A4 + i * 0x4
/-- CTL_RCNT (13, RW, RW (words 0–2) or RO, RO). -/
def CTL_RCNT (j : Nat) : Nat := 0x1700C4 + j * 0x4
/-- CTL_AIDX (13, RW). -/
def CTL_AIDX : Nat := 0x170100
/-- CTL_ADATA (13, RW). -/
def CTL_ADATA (i : Nat) : Nat := 0x170104 + i * 0x4
/-- CTL_ASTAT (13, RO). -/
def CTL_ASTAT : Nat := 0x170134
/-- CTL_MEAS (13, RO). -/
def CTL_MEAS (k w : Nat) : Nat := 0x170140 + k * 0x10 + w * 0x4
/-- CTL_ADMIT (13, RW). -/
def CTL_ADMIT : Nat := 0x170200
/-- CTL_ADMIT_OBJ (13, RO). -/
def CTL_ADMIT_OBJ : Nat := 0x170204
/-- CTL_UNADMITTED (13, RO). -/
def CTL_UNADMITTED : Nat := 0x170210
/-- CTL_FPT_DROP (13, RO). -/
def CTL_FPT_DROP : Nat := 0x170214
/-- CTL_LOG_LOST (13, RO). -/
def CTL_LOG_LOST : Nat := 0x170218
/-- CTL_LOG (13, RO). -/
def CTL_LOG (i : Nat) : Nat := 0x170220 + i * 0x4
/-- SIG_CFG (14, RWL). -/
def SIG_CFG : Nat := 0x180000
/-- SIG_WSTAT (14, RO). -/
def SIG_WSTAT : Nat := 0x180004
/-- SIG_HV_IDX (14, RW). -/
def SIG_HV_IDX : Nat := 0x180010
/-- SIG_HV_DATA (14, RW). -/
def SIG_HV_DATA (i : Nat) : Nat := 0x180014 + i * 0x4
/-- SIG_HV_CNT (14, RO). -/
def SIG_HV_CNT (j : Nat) : Nat := 0x180030 + j * 0x4
/-- SIG_HV_WRITES (14, RO). -/
def SIG_HV_WRITES : Nat := 0x180040
/-- SIG_VOTE_CFG (14, RWL). -/
def SIG_VOTE_CFG : Nat := 0x180080
/-- SIG_VG_IDX (14, RW). -/
def SIG_VG_IDX : Nat := 0x180084
/-- SIG_VG_DATA (14, RW). -/
def SIG_VG_DATA (i : Nat) : Nat := 0x180088 + i * 0x4
/-- SIG_VG_STATE (14, RO). -/
def SIG_VG_STATE : Nat := 0x1800A8
/-- SIG_VOTE_DISC (14, RO). -/
def SIG_VOTE_DISC : Nat := 0x1800AC
/-- SIG_VOTE_CHFULL (14, RO). -/
def SIG_VOTE_CHFULL : Nat := 0x1800B0
/-- SIG_PUB_IDX (14, RW (DATA7 RO)). -/
def SIG_PUB_IDX : Nat := 0x180100
/-- SIG_PUB_DATA (14, RW (DATA7 RO)). -/
def SIG_PUB_DATA (i : Nat) : Nat := 0x180104 + i * 0x4
/-- SIG_PUB_UTCOFF (14, RW). -/
def SIG_PUB_UTCOFF : Nat := 0x180124
/-- SIG_PUB_SENT (14, RO). -/
def SIG_PUB_SENT : Nat := 0x180128
/-- SIG_PUB_SKIPPED (14, RO). -/
def SIG_PUB_SKIPPED : Nat := 0x18012C
/-- SIG_PUB_STALE (14, RO). -/
def SIG_PUB_STALE : Nat := 0x180130
/-- SIG_SVC_IDX (14, RW). -/
def SIG_SVC_IDX : Nat := 0x180200
/-- SIG_SVC_DATA (14, RW). -/
def SIG_SVC_DATA (i : Nat) : Nat := 0x180204 + i * 0x4
/-- SIG_SVC_CFG (14, RW). -/
def SIG_SVC_CFG : Nat := 0x180240
/-- SIG_SVC_CNT (14, RO). -/
def SIG_SVC_CNT (j : Nat) : Nat := 0x180244 + j * 0x4
/-- PEAT_CFG (15, RWL). -/
def PEAT_CFG : Nat := 0x190000
/-- PEAT_WSTAT (15, RO). -/
def PEAT_WSTAT : Nat := 0x190004
/-- PEAT_P_IDX (15, RW). -/
def PEAT_P_IDX : Nat := 0x190010
/-- PEAT_P_DATA (15, RW). -/
def PEAT_P_DATA (i : Nat) : Nat := 0x190014 + i * 0x4
/-- PEAT_S_IDX (15, RW). -/
def PEAT_S_IDX : Nat := 0x190030
/-- PEAT_S_DATA (15, RW). -/
def PEAT_S_DATA (i : Nat) : Nat := 0x190034 + i * 0x4
/-- PEAT_S_STAT (15, RO). -/
def PEAT_S_STAT (j : Nat) : Nat := 0x190060 + j * 0x4
/-- PEAT_FIFO (15, RO, RO and W1C). -/
def PEAT_FIFO : Nat := 0x190070
/-- PEAT_FIFO_HWM (15, RO, RO and W1C). -/
def PEAT_FIFO_HWM : Nat := 0x190074
/-- PEAT_DROP (15, RO). -/
def PEAT_DROP : Nat := 0x190078
/-- PEAT_SKIP (15, RO). -/
def PEAT_SKIP : Nat := 0x19007C
/-- PEAT_RECS (15, RO). -/
def PEAT_RECS : Nat := 0x190080
/-- PEAT_BUDGET0 (15, RO). -/
def PEAT_BUDGET0 : Nat := 0x190084
/-- PEAT_BUDGET1 (15, RO). -/
def PEAT_BUDGET1 : Nat := 0x190088
/-- PEAT_TRP_CFG0 (15, RW). -/
def PEAT_TRP_CFG0 : Nat := 0x190100
/-- PEAT_TRP_CFG1 (15, RW). -/
def PEAT_TRP_CFG1 : Nat := 0x190104
/-- PEAT_CL_IDX (15, RW). -/
def PEAT_CL_IDX : Nat := 0x190110
/-- PEAT_CL_DATA (15, RW). -/
def PEAT_CL_DATA (i : Nat) : Nat := 0x190114 + i * 0x4
/-- PEAT_TRP_CNT (15, RO). -/
def PEAT_TRP_CNT (j : Nat) : Nat := 0x190140 + j * 0x4
/-- DRC_CFG (16, RWL). -/
def DRC_CFG : Nat := 0x1B1000
/-- DRC_STATUS (16, RO). -/
def DRC_STATUS : Nat := 0x1B1004
/-- DRC_PANIC_HI (16, RW). -/
def DRC_PANIC_HI : Nat := 0x1B1008
/-- DRC_PANIC_LO (16, RW). -/
def DRC_PANIC_LO : Nat := 0x1B100C
/-- DRC_RETRAIN_INTERVAL (16, RW). -/
def DRC_RETRAIN_INTERVAL : Nat := 0x1B1010
/-- DRC_KEEP (16, RW). -/
def DRC_KEEP : Nat := 0x1B1014
/-- DRC_PWRUP (16, RW). -/
def DRC_PWRUP : Nat := 0x1B1018
/-- DRC_SCRUB (16, RW). -/
def DRC_SCRUB : Nat := 0x1B101C
/-- DRC_ERRTHR (16, RW). -/
def DRC_ERRTHR : Nat := 0x1B1020
/-- DRC_ERRWIN (16, RW). -/
def DRC_ERRWIN : Nat := 0x1B1024
/-- DRC_RETIRE (16, W1S). -/
def DRC_RETIRE : Nat := 0x1B1028
/-- DRC_CNT_PANIC (16, RO). -/
def DRC_CNT_PANIC : Nat := 0x1B1030
/-- DRC_CNT_POSTPONE (16, RO). -/
def DRC_CNT_POSTPONE : Nat := 0x1B1034
/-- DRC_CNT_INSERT (16, RO). -/
def DRC_CNT_INSERT : Nat := 0x1B1038
/-- DRC_CNT_RETIREDACC (16, RO). -/
def DRC_CNT_RETIREDACC : Nat := 0x1B103C
/-- DRC_CH_STATUS (16, RO). -/
def DRC_CH_STATUS (c : Nat) : Nat := 0x1B0000 + c * 0x2000
/-- DRC_CH_CE (16, RO). -/
def DRC_CH_CE (c : Nat) : Nat := 0x1B0004 + c * 0x2000
/-- DRC_CH_UE (16, RO). -/
def DRC_CH_UE (c : Nat) : Nat := 0x1B0008 + c * 0x2000
/-- DRC_CH_RECOVERED (16, RO). -/
def DRC_CH_RECOVERED (c : Nat) : Nat := 0x1B000C + c * 0x2000
/-- DRC_CH_ELOG0 (16, RO). -/
def DRC_CH_ELOG0 (c : Nat) : Nat := 0x1B0010 + c * 0x2000
/-- DRC_CH_ELOG1 (16, RO). -/
def DRC_CH_ELOG1 (c : Nat) : Nat := 0x1B0014 + c * 0x2000
/-- DRC_CH_ELOG2 (16, RO). -/
def DRC_CH_ELOG2 (c : Nat) : Nat := 0x1B0018 + c * 0x2000
/-- CHK_CH_CFG (17, RW). -/
def CHK_CH_CFG (n : Nat) : Nat := 0x1A0000 + n * 0x10
/-- CHK_CH_SEED_LO (17, RW). -/
def CHK_CH_SEED_LO (n : Nat) : Nat := 0x1A0004 + n * 0x10
/-- CHK_CH_SEED_HI (17, RW). -/
def CHK_CH_SEED_HI (n : Nat) : Nat := 0x1A0008 + n * 0x10
/-- CHK_CH_MISCNT (17, RO). -/
def CHK_CH_MISCNT (n : Nat) : Nat := 0x1A000C + n * 0x10
/-- CHK_HJ_W (17, RW). -/
def CHK_HJ_W (i : Nat) : Nat := 0x1A0800 + i * 0x4
/-- CHK_HJ_CMD (17, RW). -/
def CHK_HJ_CMD : Nat := 0x1A0818
/-- CHK_HJ_RES_LO (17, RO). -/
def CHK_HJ_RES_LO : Nat := 0x1A081C
/-- CHK_HJ_RES_HI (17, RO). -/
def CHK_HJ_RES_HI : Nat := 0x1A0820
/-- CHK_MLOG0 (17, RO). -/
def CHK_MLOG0 : Nat := 0x1A0900
/-- CHK_MLOG1 (17, RO). -/
def CHK_MLOG1 (i : Nat) : Nat := 0x1A0904 + i * 0x4
/-- CHK_MLOG_LOST (17, RO). -/
def CHK_MLOG_LOST : Nat := 0x1A0918
/-- BLK_CFG (18, RW). -/
def BLK_CFG : Nat := 0x50000
/-- BLK_STATUS (18, RO). -/
def BLK_STATUS : Nat := 0x50004
/-- BLK_VIOL0 (18, RO). -/
def BLK_VIOL0 : Nat := 0x50010
/-- BLK_VIOL1 (18, RO). -/
def BLK_VIOL1 : Nat := 0x50014
/-- BLK_VIOL2 (18, RO). -/
def BLK_VIOL2 : Nat := 0x50018
/-- BLK_VIOL_CNT (18, RO). -/
def BLK_VIOL_CNT : Nat := 0x5001C
/-- BLK_CH_ADDR_LO (18, RW). -/
def BLK_CH_ADDR_LO (c : Nat) : Nat := 0x50100 + c * 0x40
/-- BLK_CH_ADDR_HI (18, RW). -/
def BLK_CH_ADDR_HI (c : Nat) : Nat := 0x50104 + c * 0x40
/-- BLK_CH_LIMIT (18, RW). -/
def BLK_CH_LIMIT (c : Nat) : Nat := 0x50108 + c * 0x40
/-- BLK_CH_STAT (18, RO). -/
def BLK_CH_STAT (c : Nat) : Nat := 0x5010C + c * 0x40
/-- BLK_CH_HOST_LO (18, RW). -/
def BLK_CH_HOST_LO (c : Nat) : Nat := 0x50110 + c * 0x40
/-- BLK_CH_HOST_HI (18, RW). -/
def BLK_CH_HOST_HI (c : Nat) : Nat := 0x50114 + c * 0x40
/-- BLK_CH_LEN (18, RW). -/
def BLK_CH_LEN (c : Nat) : Nat := 0x50118 + c * 0x40
/-- BLK_CH_COOKIE (18, RW). -/
def BLK_CH_COOKIE (c : Nat) : Nat := 0x5011C + c * 0x40
/-- BLK_CH_CMD (18, WO). -/
def BLK_CH_CMD (c : Nat) : Nat := 0x50120 + c * 0x40
/-- BLK_RNG_BASE_LO (18, RW). -/
def BLK_RNG_BASE_LO (r : Nat) : Nat := 0x50800 + r * 0x20
/-- BLK_RNG_BASE_HI (18, RW). -/
def BLK_RNG_BASE_HI (r : Nat) : Nat := 0x50804 + r * 0x20
/-- BLK_RNG_WB_LO (18, RW). -/
def BLK_RNG_WB_LO (r : Nat) : Nat := 0x5080C + r * 0x20
/-- BLK_RNG_WB_HI (18, RW). -/
def BLK_RNG_WB_HI (r : Nat) : Nat := 0x50810 + r * 0x20
/-- BLK_RNG_CFG (18, RW). -/
def BLK_RNG_CFG (r : Nat) : Nat := 0x50808 + r * 0x20
/-- BLK_RNG_RD (18, RW, RO, RO). -/
def BLK_RNG_RD (r : Nat) : Nat := 0x50814 + r * 0x20
/-- BLK_RNG_WR (18, RW, RO, RO). -/
def BLK_RNG_WR (r : Nat) : Nat := 0x50818 + r * 0x20
/-- BLK_RNG_LOST (18, RW, RO, RO). -/
def BLK_RNG_LOST (r : Nat) : Nat := 0x5081C + r * 0x20
/-- BLK_MBX_H2D (18, RW, RO). -/
def BLK_MBX_H2D (w : Nat) : Nat := 0x51000 + w * 0x4
/-- BLK_MBX_D2H (18, RW, RO). -/
def BLK_MBX_D2H (w : Nat) : Nat := 0x51080 + w * 0x4
/-- BLK_MBX_DB (18, WO, RO and W1C, RO). -/
def BLK_MBX_DB : Nat := 0x51100
/-- BLK_MBX_STAT (18, WO, RO and W1C, RO). -/
def BLK_MBX_STAT : Nat := 0x51104
/-- BLK_MBX_D2HDB (18, WO, RO and W1C, RO). -/
def BLK_MBX_D2HDB : Nat := 0x51108
/-- MGT_HEARTBEAT (18, WO, RW, RO). -/
def MGT_HEARTBEAT : Nat := 0x40
/-- MGT_HB_TICKS (18, WO, RW, RO). -/
def MGT_HB_TICKS : Nat := 0x44
/-- MGT_HB_STAT (18, WO, RW, RO). -/
def MGT_HB_STAT : Nat := 0x48
/-- CHN_CFG (19, RWL). -/
def CHN_CFG : Nat := 0x40000
/-- CHN_STATUS (19, RO, W1C). -/
def CHN_STATUS : Nat := 0x40004
/-- CHN_CMD (19, W1S, RW, RW). -/
def CHN_CMD : Nat := 0x40008
/-- CHN_TICKADJ (19, W1S, RW, RW). -/
def CHN_TICKADJ : Nat := 0x4000C
/-- CHN_MSGTO (19, W1S, RW, RW). -/
def CHN_MSGTO : Nat := 0x40010
/-- CHN_TX_HDR (19, RW). -/
def CHN_TX_HDR : Nat := 0x40020
/-- CHN_TX_DATA (19, RW). -/
def CHN_TX_DATA (i : Nat) : Nat := 0x40024 + i * 0x4
/-- CHN_TX_CMD (19, WO, RO). -/
def CHN_TX_CMD : Nat := 0x40044
/-- CHN_TX_STAT (19, WO, RO). -/
def CHN_TX_STAT : Nat := 0x40048
/-- CHN_CNT_RECOVERED (19, RO). -/
def CHN_CNT_RECOVERED : Nat := 0x40080
/-- CHN_CNT_EXHAUSTED (19, RO). -/
def CHN_CNT_EXHAUSTED : Nat := 0x40084
/-- CHN_CNT_TIMEOUT (19, RO). -/
def CHN_CNT_TIMEOUT : Nat := 0x40088
/-- CHN_CNT_LATECOMP (19, RO). -/
def CHN_CNT_LATECOMP : Nat := 0x4008C
/-- CHN_CNT_BADADDR (19, RO). -/
def CHN_CNT_BADADDR : Nat := 0x40090
/-- CHN_CNT_TICKBAD (19, RO). -/
def CHN_CNT_TICKBAD : Nat := 0x40094
/-- CHN_CNT_BREAKS (19, RO). -/
def CHN_CNT_BREAKS : Nat := 0x40098
/-- CHN_REPL_LOG (19, RO). -/
def CHN_REPL_LOG : Nat := 0x400A0
/-- MGT_ID (20, RO). -/
def MGT_ID : Nat := 0x0
/-- MGT_REV (20, RO). -/
def MGT_REV : Nat := 0x4
/-- MGT_MODE (20, RO). -/
def MGT_MODE : Nat := 0x8
/-- MGT_MODE_CMD (20, RW). -/
def MGT_MODE_CMD : Nat := 0xC
/-- MGT_MODE_STAT (20, RO). -/
def MGT_MODE_STAT : Nat := 0x10
/-- MGT_DRAIN_LIMIT (20, RW). -/
def MGT_DRAIN_LIMIT : Nat := 0x14
/-- MGT_KEEP_CFG (20, RWS). -/
def MGT_KEEP_CFG : Nat := 0x18
/-- MGT_KEEP_BASE_LO (20, RWS). -/
def MGT_KEEP_BASE_LO : Nat := 0x1C
/-- MGT_KEEP_BASE_HI (20, RWS). -/
def MGT_KEEP_BASE_HI : Nat := 0x20
/-- MGT_KEEP_STAT (20, RWS (RO)). -/
def MGT_KEEP_STAT : Nat := 0x24
/-- MGT_KEEP_SEQ (20, RO (always-on)). -/
def MGT_KEEP_SEQ : Nat := 0x28
/-- MGT_RESET (20, WO). -/
def MGT_RESET : Nat := 0x2C
/-- MGT_DP_RESET (20, WO). -/
def MGT_DP_RESET : Nat := 0x30
/-- MGT_RST_CAUSE (20, RWS (W1C)). -/
def MGT_RST_CAUSE : Nat := 0x34
/-- MGT_DRAIN_DROP (20, RO). -/
def MGT_DRAIN_DROP : Nat := 0x38
/-- MGT_DPR_DROP (20, RO). -/
def MGT_DPR_DROP : Nat := 0x3C
/-- MGT_AON_SCRATCH (20, RWS). -/
def MGT_AON_SCRATCH (w : Nat) : Nat := 0x6000 + w * 0x4
/-- CLK_STATUS (20, RO). -/
def CLK_STATUS : Nat := 0x60000
/-- CLK_GATE (20, RWL). -/
def CLK_GATE : Nat := 0x60004
/-- CLK_PLLOFF (20, RWL). -/
def CLK_PLLOFF : Nat := 0x6000C
/-- CLK_GATE_IDLE (20, RW). -/
def CLK_GATE_IDLE : Nat := 0x60008
/-- CLK_CDC_OVR (20, W1C). -/
def CLK_CDC_OVR : Nat := 0x60010
/-- CLK_CDC_OVRCNT (20, RO). -/
def CLK_CDC_OVRCNT : Nat := 0x60014
/-- CLK_WAKECNT (20, RO). -/
def CLK_WAKECNT : Nat := 0x60018
/-- MGT_ABORT_LO (21, RW). -/
def MGT_ABORT_LO : Nat := 0x200
/-- MGT_ABORT_HI (21, RW). -/
def MGT_ABORT_HI : Nat := 0x204
/-- MGT_ABORT_STAT (21, RO). -/
def MGT_ABORT_STAT : Nat := 0x208
/-- RAS_REPLACE (21, RWS, W1C). -/
def RAS_REPLACE : Nat := 0x10000
/-- RAS_STATUS (21, RO). -/
def RAS_STATUS : Nat := 0x10004
/-- RAS_LOGLOST (21, RO). -/
def RAS_LOGLOST : Nat := 0x10008
/-- RAS_ABORT_DROP (21, RO). -/
def RAS_ABORT_DROP : Nat := 0x1000C
/-- RAS_LOG (21, RO). -/
def RAS_LOG (i : Nat) : Nat := 0x10010 + i * 0x4
/-- RAS_CETHR (21, RW). -/
def RAS_CETHR : Nat := 0x10030
/-- RAS_CEWIN (21, RW). -/
def RAS_CEWIN : Nat := 0x10034
/-- RAS_THERM (21, RW). -/
def RAS_THERM : Nat := 0x10038
/-- RAS_PORTHOLD_LO (21, W1C). -/
def RAS_PORTHOLD_LO : Nat := 0x10040
/-- RAS_PORTHOLD_HI (21, W1C). -/
def RAS_PORTHOLD_HI : Nat := 0x10044
/-- RAS_LOST_IDX (21, RW, RO). -/
def RAS_LOST_IDX : Nat := 0x10050
/-- RAS_LOST_DATA (21, RW, RO). -/
def RAS_LOST_DATA (i : Nat) : Nat := 0x10054 + i * 0x4
/-- PORT_PAUSEWD (21, RW, RO). -/
def PORT_PAUSEWD (p : Nat) : Nat := 0x200018 + p * 0x1000
/-- PORT_PAUSECNT (21, RW, RO). -/
def PORT_PAUSECNT (p : Nat) : Nat := 0x20001C + p * 0x1000
/-- DBG_LOCK (22, RW). -/
def DBG_LOCK : Nat := 0x70000
/-- DBG_STATUS (22, RO). -/
def DBG_STATUS : Nat := 0x70004
/-- DBG_TSEL (22, RW, RW, WO). -/
def DBG_TSEL : Nat := 0x70010
/-- DBG_TCTL (22, RW, RW, WO). -/
def DBG_TCTL : Nat := 0x70014
/-- DBG_TCMD (22, RW, RW, WO). -/
def DBG_TCMD : Nat := 0x70018
/-- DBG_TSTAT (22, RO). -/
def DBG_TSTAT : Nat := 0x7001C
/-- DBG_TREG_IDX (22, RW). -/
def DBG_TREG_IDX : Nat := 0x70020
/-- DBG_TREG_DATA (22, RW). -/
def DBG_TREG_DATA : Nat := 0x70024
/-- DBG_CSEL (22, RW, RO). -/
def DBG_CSEL : Nat := 0x70030
/-- DBG_CSTAT (22, RW, RO). -/
def DBG_CSTAT : Nat := 0x70034
/-- DBG_BP (22, RW). -/
def DBG_BP (k : Nat) : Nat := 0x70040 + k * 0x4
/-- DBG_WP_ADDR (22, RW). -/
def DBG_WP_ADDR (k : Nat) : Nat := 0x70050 + k * 0x8
/-- DBG_WP_CTL (22, RW). -/
def DBG_WP_CTL (k : Nat) : Nat := 0x70054 + k * 0x8
/-- DBG_LKREL (22, RW). -/
def DBG_LKREL : Nat := 0x70060
/-- DBG_LKREL_CTL (22, RW). -/
def DBG_LKREL_CTL : Nat := 0x70064
/-- DBG_CNTCLR (22, WO). -/
def DBG_CNTCLR : Nat := 0x70070
/-- DBG_TEL_CTL (22, RW, RO, RO). -/
def DBG_TEL_CTL : Nat := 0x70100
/-- DBG_TEL_TICK_LO (22, RW, RO, RO). -/
def DBG_TEL_TICK_LO : Nat := 0x70104
/-- DBG_TEL_TICK_HI (22, RW, RO, RO). -/
def DBG_TEL_TICK_HI : Nat := 0x70108
/-- DBG_TEL (22, RO). -/
def DBG_TEL (f w : Nat) : Nat := 0x70200 + f * 0x10 + w * 0x4
/-- DBG_QW (22, RW (w = 0), RO). -/
def DBG_QW (k : Nat) : Nat := 0x70300 + k * 0x10
/-- DBG_QW_M (22, RW (w = 0), RO). -/
def DBG_QW_M (k w : Nat) : Nat := 0x70304 + k * 0x10 + w * 0x4

end Reg

/-- Registers of the map, part 0. -/
def regRows0 : List RegRow := [
  ⟨"TICK_CTRL", 0x20000, [], 0x30, 0, 0x3D, 0, 0, 0, .c⟩,
  ⟨"TICK_PERIOD", 0x20004, [], 0x1F4, 0, 0xFFFF, 0, 0, 0, .c⟩,
  ⟨"TICK_PHASE", 0x20008, [], 0x0, 0, 0xFFFFFFFF, 0, 0, 0, .c⟩,
  ⟨"TICK_STATUS", 0x2000C, [], 0x0, 0, 0, 0x70, 0, 0, .c⟩,
  ⟨"TICK_NUMBER_LO", 0x20010, [], 0x0, 0, 0xFFFFFFFF, 0, 0, 0, .c⟩,
  ⟨"TICK_NUMBER_HI", 0x20014, [], 0x0, 0, 0xFFFF, 0, 0, 0, .c⟩,
  ⟨"TICK_BTIME_LO", 0x20018, [], 0x0, 0, 0, 0, 0, 0, .c⟩,
  ⟨"TICK_BTIME_HI", 0x2001C, [], 0x0, 0, 0, 0, 0, 0, .c⟩,
  ⟨"TICK_WINDOW", 0x20020, [], 0x64, 0, 0xFFFF, 0, 0, 0, .c⟩,
  ⟨"TICK_OVR_COUNT", 0x20024, [], 0x0, 0, 0, 0, 0, 0, .c⟩,
  ⟨"TICK_OVR_LOG0", 0x20028, [], 0x0, 0, 0, 0, 0, 0, .c⟩,
  ⟨"TICK_OVR_LOG1", 0x2002C, [], 0x0, 0, 0, 0, 0, 0, .c⟩,
  ⟨"TICK_STRAY", 0x20030, [], 0x0, 0, 0, 0, 0, 0, .c⟩,
  ⟨"TICK_LATE_COUNT", 0x20034, [], 0x0, 0, 0, 0, 0, 0, .c⟩,
  ⟨"TICK_OUT_CTRL", 0x20038, [], 0x10000, 0xFFFFFFFF, 0, 0, 0, 0, .c⟩,
  ⟨"PTP_TIME_LO", 0x30000, [], 0x0, 0, 0, 0, 0, 0, .c⟩,
  ⟨"PTP_TIME_HI", 0x30004, [], 0x0, 0, 0, 0, 0, 0, .c⟩,
  ⟨"PTP_STEP_LO", 0x30008, [], 0x0, 0, 0xFFFFFFFF, 0, 0, 0, .c⟩,
  ⟨"PTP_STEP_HI", 0x3000C, [], 0x0, 0, 0xFFFFFFFF, 0, 0, 0, .c⟩,
  ⟨"PTP_FADJ", 0x30010, [], 0x0, 0xFFFFFFFF, 0, 0, 0, 0, .c⟩,
  ⟨"PTP_PADJ", 0x30014, [], 0x0, 0xFFFFFFFF, 0, 0, 0, 0, .c⟩,
  ⟨"PTP_SLEW", 0x30018, [], 0x32, 0x7F, 0, 0, 0, 0, .c⟩,
  ⟨"PTP_CTRL", 0x3001C, [], 0x0, 0x1E, 0, 0, 0, 0, .c⟩,
  ⟨"PTP_STATUS", 0x30020, [], 0x0, 0, 0, 0, 0, 0, .c⟩,
  ⟨"PTP_PPSIN_LO", 0x30024, [], 0x0, 0, 0, 0, 0, 0, .c⟩,
  ⟨"PTP_PPSIN_HI", 0x30028, [], 0x0, 0, 0, 0, 0, 0, .c⟩,
  ⟨"PTP_PPSOUT_W", 0x3002C, [], 0x64, 0xFFFFF, 0, 0, 0, 0, .c⟩,
  ⟨"PTP_TXTS_META", 0x30030, [], 0x0, 0, 0, 0, 0, 0, .c⟩,
  ⟨"PTP_TXTS_LO", 0x30034, [], 0x0, 0, 0, 0, 0, 0, .c⟩,
  ⟨"PTP_TXTS_HI", 0x30038, [], 0x0, 0, 0, 0, 0, 0, .c⟩,
  ⟨"PTP_TXTS_LOST", 0x3003C, [], 0x0, 0, 0, 0, 0, 0, .c⟩,
  ⟨"PTP_DOMNUM", 0x30040, [], 0x0, 0xFFFFFFFF, 0, 0, 0, 0, .c⟩,
  ⟨"PTP_ROLE", 0x30100, [(4, 0x10), (4, 0x4)], 0x0, 0xFFFFFFFF, 0, 0, 0, 0, .c⟩,
  ⟨"CORE_STATUS", 0x1040000, [(16, 0x100000), (17, 0x800)], 0x0, 0, 0, 0, 0, 0, .c⟩,
  ⟨"CORE_SLOTMODE", 0x1040004, [(16, 0x100000), (17, 0x800)], 0x0, 0, 0x3, 0, 0, 0, .c⟩,
  ⟨"CORE_FAULT_CNT", 0x1040008, [(16, 0x100000), (17, 0x800)], 0x0, 0, 0, 0, 0, 0, .c⟩,
  ⟨"CORE_FAULT_LAST0", 0x104000C, [(16, 0x100000), (17, 0x800)], 0x0, 0, 0, 0, 0, 0, .c⟩,
  ⟨"CORE_FAULT_LAST1", 0x1040010, [(16, 0x100000), (17, 0x800)], 0x0, 0, 0, 0, 0, 0, .c⟩,
  ⟨"CORE_DFAULT_CNT", 0x1040014, [(16, 0x100000), (17, 0x800)], 0x0, 0, 0, 0, 0, 0, .c⟩,
  ⟨"CORE_IPGATE", 0x1040018, [(16, 0x100000), (17, 0x800)], 0x0, 0, 0, 0, 0, 0, .c⟩]

/-- Registers of the map, part 1. -/
def regRows1 : List RegRow := [
  ⟨"CORE_SHARECFG", 0x104001C, [(16, 0x100000), (17, 0x800)], 0x0, 0, 0xFF1F, 0, 0, 0, .c⟩,
  ⟨"MGT_LD_CMD", 0x100, [], 0x0, 0x70F, 0, 0, 0, 0, .c⟩,
  ⟨"MGT_LD_ADDR_LO", 0x104, [], 0x0, 0xFFFFFFFF, 0, 0, 0, 0, .c⟩,
  ⟨"MGT_LD_ADDR_HI", 0x108, [], 0x0, 0xFFFF, 0, 0, 0, 0, .c⟩,
  ⟨"MGT_LD_LEN", 0x10C, [], 0x0, 0x7FFFFF, 0, 0, 0, 0, .c⟩,
  ⟨"MGT_LD_STATUS", 0x110, [], 0x0, 0, 0, 0, 0, 0, .c⟩,
  ⟨"MGT_LD_OFFSET", 0x114, [], 0x0, 0, 0, 0, 0, 0, .c⟩,
  ⟨"MGT_LD_RPT_LO", 0x118, [], 0x0, 0xFFFFFFFF, 0, 0, 0, 0, .c⟩,
  ⟨"MGT_LD_RPT_HI", 0x11C, [], 0x0, 0xFFFF, 0, 0, 0, 0, .c⟩,
  ⟨"MGT_SWAP_TICK_LO", 0x120, [], 0x0, 0xFFFFFFFF, 0, 0, 0, 0, .c⟩,
  ⟨"MGT_SWAP_TICK_HI", 0x124, [], 0x0, 0xFFFF, 0, 0, 0, 0, .c⟩,
  ⟨"MGT_SWAP_STATUS", 0x128, [], 0x0, 0, 0, 0, 0, 0, .c⟩,
  ⟨"MGT_SECURE", 0x12C, [], 0x0, 0, 0, 0, 0, 0, .f⟩,
  ⟨"FRD_LCK_STATUS", 0x1001000, [(16, 0x100000)], 0x0, 0, 0, 0, 0, 0, .c⟩,
  ⟨"FRD_LCK_FULLCNT", 0x1001004, [(16, 0x100000)], 0x0, 0, 0, 0, 0, 0, .c⟩,
  ⟨"FRD_LCK_ABNDCNT", 0x1001008, [(16, 0x100000)], 0x0, 0, 0, 0, 0, 0, .c⟩,
  ⟨"FRD_LCK_INHCNT", 0x100100C, [(16, 0x100000)], 0x0, 0, 0, 0, 0, 0, .c⟩,
  ⟨"MGT_DLCK_STATUS", 0x800, [], 0x0, 0, 0, 0, 0, 0, .c⟩,
  ⟨"MGT_DLCK_FULLCNT", 0x804, [], 0x0, 0, 0, 0, 0, 0, .c⟩,
  ⟨"MGT_DLCK_ABNDCNT", 0x808, [], 0x0, 0, 0, 0, 0, 0, .c⟩,
  ⟨"FRD_TSK_CFG", 0x1003000, [(16, 0x100000)], 0x0, 0, 0xFFFC0, 0, 0, 0, .c⟩,
  ⟨"FRD_TSK_READY", 0x1003004, [(16, 0x100000)], 0x0, 0x3FF, 0, 0, 0, 0, .c⟩,
  ⟨"FRD_TSK_LVL", 0x1003100, [(16, 0x100000), (32, 0x4)], 0x0, 0, 0, 0, 0, 0, .c⟩,
  ⟨"FRD_TSK_WMAX", 0x1003200, [(16, 0x100000), (32, 0x4)], 0x0, 0, 0, 0, 0, 0, .c⟩,
  ⟨"FRD_TSK_WMEAN", 0x1003280, [(16, 0x100000), (32, 0x4)], 0x0, 0, 0, 0, 0, 0, .c⟩,
  ⟨"FRD_TSK_REFUSED", 0x1003300, [(16, 0x100000), (32, 0x4)], 0x0, 0, 0, 0, 0, 0, .c⟩,
  ⟨"FRD_TSK_BUSY", 0x1003380, [(16, 0x100000), (16, 0x4)], 0x0, 0, 0, 0, 0, 0, .c⟩,
  ⟨"FRD_TSK_EVENTS", 0x10033C0, [(16, 0x100000)], 0x0, 0, 0, 0, 0, 0, .c⟩,
  ⟨"FRD_DL_STATUS", 0x1003800, [(16, 0x100000)], 0x0, 0, 0, 0x80000000, 0, 0, .c⟩,
  ⟨"FRD_DL_TICK", 0x1003804, [(16, 0x100000)], 0x0, 0, 0, 0, 0, 0, .c⟩,
  ⟨"FRD_DL_COUNT", 0x1003808, [(16, 0x100000)], 0x0, 0, 0, 0, 0, 0, .c⟩,
  ⟨"FRD_DL_EDGE0", 0x1003900, [(16, 0x100000), (128, 0x8)], 0x0, 0, 0, 0, 0, 0, .c⟩,
  ⟨"FRD_DL_EDGE1", 0x1003904, [(16, 0x100000), (128, 0x8)], 0x0, 0, 0, 0, 0, 0, .c⟩,
  ⟨"FRD_CQ_CFG", 0x1005000, [(16, 0x100000)], 0x11100, 0, 0x11FFF, 0, 0, 0, .c⟩,
  ⟨"FRD_CQ_CFG", 0x1005004, [(16, 0x100000), (4, 0x4)], 0x1100, 0, 0x1FFF, 0, 0, 0, .c⟩,
  ⟨"FRD_CQ_LVL", 0x1005020, [(16, 0x100000), (5, 0x4)], 0x0, 0, 0, 0x80000000, 0, 0, .c⟩,
  ⟨"FRD_CQ_FULL", 0x1005040, [(16, 0x100000)], 0x0, 0, 0, 0, 0, 0, .c⟩,
  ⟨"FRD_CQ_ORPHAN", 0x1005044, [(16, 0x100000)], 0x0, 0, 0, 0, 0, 0, .c⟩,
  ⟨"FRD_CQ_LATE", 0x1005048, [(16, 0x100000)], 0x0, 0, 0, 0, 0, 0, .c⟩,
  ⟨"FRD_CQ_EXPIRED", 0x100504C, [(16, 0x100000)], 0x0, 0, 0, 0, 0, 0, .c⟩]

/-- Registers of the map, part 2. -/
def regRows2 : List RegRow := [
  ⟨"FRD_CQ_HSUB", 0x1005060, [(16, 0x100000)], 0x0, 0, 0, 0, 0, 0xE00FFFE0, .c⟩,
  ⟨"FRD_CQ_HSTAT", 0x1005064, [(16, 0x100000)], 0x0, 0, 0, 0, 0, 0, .c⟩,
  ⟨"FRD_CQ_HTAG", 0x1005080, [(16, 0x100000), (16, 0x4)], 0x0, 0, 0, 0, 0, 0, .c⟩,
  ⟨"PRS_CTRL", 0x100000, [], 0x100, 0, 0x1FF, 0, 0, 0, .c⟩,
  ⟨"PRS_TPID", 0x100004, [], 0x0, 0, 0xFFFFFFFF, 0, 0, 0, .c⟩,
  ⟨"PRS_UDPPORTS", 0x100008, [], 0x12E812B5, 0, 0xFFFFFFFF, 0, 0, 0, .c⟩,
  ⟨"PRS_RSN_CNT", 0x100100, [(16, 0x4)], 0x0, 0, 0, 0, 0, 0, .c⟩,
  ⟨"CLS_RULE_W", 0x110000, [(32, 0x4)], 0x0, 0xFFFFFFFF, 0, 0, 0, 0, .c⟩,
  ⟨"CLS_RULE_CMD", 0x110080, [], 0x0, 0x3000FFF, 0, 0, 0, 0, .c⟩,
  ⟨"CLS_DEFAULT_W0", 0x110090, [], 0x200, 0, 0xFFFFFFFF, 0, 0, 0, .c⟩,
  ⟨"CLS_DEFAULT_W1", 0x110094, [], 0xFFFF0000, 0, 0xFFFFFFFF, 0, 0, 0, .c⟩,
  ⟨"CLS_DEFAULT_W2", 0x110098, [], 0x0, 0, 0xFFFFFFFF, 0, 0, 0, .c⟩,
  ⟨"CLS_DEFAULT_W3", 0x11009C, [], 0x0, 0, 0xFFFFFFFF, 0, 0, 0, .c⟩,
  ⟨"CLS_NOMATCH", 0x1100A0, [], 0x0, 0, 0, 0, 0, 0, .c⟩,
  ⟨"CLS_RANGE0", 0x111000, [(256, 0x8)], 0x0, 0, 0x8000003F, 0, 0, 0, .c⟩,
  ⟨"CLS_RANGE1", 0x111004, [(256, 0x8)], 0x0, 0, 0xFFFFFFFF, 0, 0, 0, .c⟩,
  ⟨"DSP_EPSET", 0x120000, [(256, 0x4)], 0x0, 0, 0xFFFF, 0, 0, 0, .c⟩,
  ⟨"DSP_SLOW_CFG", 0x120400, [], 0x0, 0, 0x1FFFF, 0, 0, 0, .c⟩,
  ⟨"DSP_HASH_SEED", 0x120404, [], 0x0, 0, 0xFFFFFFFF, 0, 0, 0, .c⟩,
  ⟨"DSP_SLOW_STAT", 0x120440, [], 0x0, 0, 0, 0, 0, 0, .c⟩,
  ⟨"DSP_REDIRECT", 0x120444, [], 0x0, 0, 0, 0, 0, 0, .c⟩,
  ⟨"DSP_TRUNC", 0x120448, [], 0x0, 0, 0, 0, 0, 0, .c⟩,
  ⟨"DSP_ABORTDROP", 0x12044C, [], 0x0, 0, 0, 0, 0, 0, .c⟩,
  ⟨"DSP_WINHOLD", 0x120450, [], 0x0, 0, 0, 0, 0, 0, .c⟩,
  ⟨"DSP_QLVL", 0x120500, [(16, 0x4)], 0x0, 0, 0, 0x80000000, 0, 0, .c⟩,
  ⟨"SWC_CTRL_RSV", 0x130000, [], 0x2000, 0, 0xFFFFF, 0, 0, 0, .c⟩,
  ⟨"SWC_INJ", 0x130004, [], 0x8001000, 0, 0xFFFFFFFF, 0, 0, 0, .c⟩,
  ⟨"SWC_GLB_XOFF", 0x130008, [], 0x75300, 0xFFFFF, 0, 0, 0, 0, .c⟩,
  ⟨"SWC_GLB_XON", 0x13000C, [], 0x6D600, 0xFFFFF, 0, 0, 0, 0, .c⟩,
  ⟨"SWC_SHARED_USE", 0x130010, [], 0x0, 0, 0, 0, 0, 0, .c⟩,
  ⟨"SWC_CTRL_USE", 0x130014, [], 0x0, 0, 0, 0, 0, 0, .c⟩,
  ⟨"SWC_INJ_USE", 0x130018, [], 0x0, 0, 0, 0, 0, 0, .c⟩,
  ⟨"SWC_PUSHOUT", 0x13001C, [], 0x0, 0, 0, 0, 0, 0, .c⟩,
  ⟨"SWC_QPROF", 0x130100, [(16, 0x4)], 0x10000, 0xFFFFF, 0, 0, 0, 0, .c⟩,
  ⟨"SWC_QSEL", 0x130200, [], 0x0, 0xFFFF, 0, 0, 0, 0, .c⟩,
  ⟨"SWC_QCFG", 0x130204, [], 0x0, 0xF, 0, 0, 0, 0, .c⟩,
  ⟨"SWC_QSTAT0", 0x130208, [], 0x0, 0, 0, 0, 0, 0, .c⟩,
  ⟨"SWC_QSTAT1", 0x13020C, [], 0x0, 0, 0, 0, 0, 0, .c⟩,
  ⟨"SWC_QSTAT2", 0x130210, [], 0x0, 0, 0, 0, 0, 0, .c⟩,
  ⟨"SWC_MCG_IDX", 0x130300, [], 0x0, 0x3FFF, 0, 0, 0, 0, .c⟩]

/-- Registers of the map, part 3. -/
def regRows3 : List RegRow := [
  ⟨"SWC_MCG_DATA", 0x130304, [], 0x0, 0x83FFFFFF, 0, 0, 0, 0, .c⟩,
  ⟨"SWC_MCM_IDX", 0x130308, [], 0x0, 0xFFFF, 0, 0, 0, 0, .c⟩,
  ⟨"SWC_MCM_DATA", 0x13030C, [], 0x0, 0xFFFFFFF, 0, 0, 0, 0, .c⟩,
  ⟨"SWC_MC_RES", 0x130310, [], 0x0, 0, 0, 0, 0, 0, .c⟩,
  ⟨"SWC_MC_EXPIRED", 0x130314, [], 0x0, 0, 0, 0, 0, 0, .c⟩,
  ⟨"SWC_MC_RESHOLD", 0x130318, [], 0x0, 0, 0, 0, 0, 0, .c⟩,
  ⟨"SWC_MIR_CFG", 0x130400, [(16, 0x20)], 0x0, 0xFFFF0007, 0, 0, 0, 0, .c⟩,
  ⟨"SWC_MIR_RING_LO", 0x130404, [(16, 0x20)], 0x0, 0xFFFFFFFF, 0, 0, 0, 0, .c⟩,
  ⟨"SWC_MIR_RING_HI", 0x130408, [(16, 0x20)], 0x0, 0xFFFF, 0, 0, 0, 0, .c⟩,
  ⟨"SWC_MIR_SIZE", 0x13040C, [(16, 0x20)], 0x0, 0xFFFFF, 0, 0, 0, 0, .c⟩,
  ⟨"SWC_MIR_WR", 0x130410, [(16, 0x20)], 0x0, 0, 0, 0, 0, 0, .c⟩,
  ⟨"SWC_MIR_RD", 0x130414, [(16, 0x20)], 0x0, 0xFFFFF, 0, 0, 0, 0, .c⟩,
  ⟨"SWC_MIR_DROP_FULL", 0x130418, [(16, 0x20)], 0x0, 0, 0, 0, 0, 0, .c⟩,
  ⟨"SWC_MIR_DROP_RATE", 0x13041C, [(16, 0x20)], 0x0, 0, 0, 0, 0, 0, .c⟩,
  ⟨"SWC_IPT", 0x131000, [(64, 0x20), (8, 0x4)], 0x30004000, 0xFFFFFFFF, 0, 0, 0, 0, .c⟩,
  ⟨"SWC_RXF_CFG", 0x132000, [(64, 0x10)], 0xFFFFFF02, 0xFFFFFF03, 0, 0, 0, 0, .c⟩,
  ⟨"SWC_RXF_THR", 0x132004, [(64, 0x10)], 0x58007A, 0xFFFFFFFF, 0, 0, 0, 0, .c⟩,
  ⟨"SWC_RXF_PMAP", 0x132008, [(64, 0x10)], 0xFAC688, 0x7FFFFFF, 0, 0, 0, 0, .c⟩,
  ⟨"SWC_RXF_OVR", 0x13200C, [(64, 0x10)], 0x0, 0, 0, 0, 0, 0, .c⟩,
  ⟨"BPM_CFG", 0x140000, [(64, 0x40)], 0x6, 0, 0xFE00001F, 0, 0, 0, .c⟩,
  ⟨"BPM_BASE_LO", 0x140004, [(64, 0x40)], 0x0, 0, 0xFFFFFFFF, 0, 0, 0, .c⟩,
  ⟨"BPM_BASE_HI", 0x140008, [(64, 0x40)], 0x0, 0, 0xFFFF, 0, 0, 0, .c⟩,
  ⟨"BPM_COUNT", 0x14000C, [(64, 0x40)], 0x0, 0, 0x7FFFFF, 0, 0, 0, .c⟩,
  ⟨"BPM_USERS", 0x140010, [(64, 0x40)], 0x0, 0, 0xFFFFFFFF, 0, 0, 0, .c⟩,
  ⟨"BPM_WARN", 0x140014, [(64, 0x40)], 0x0, 0x7FFFFF, 0, 0, 0, 0, .c⟩,
  ⟨"BPM_BP", 0x140018, [(64, 0x40)], 0x0, 0x7FFFFF, 0, 0, 0, 0, .c⟩,
  ⟨"BPM_CRIT", 0x14001C, [(64, 0x40)], 0x0, 0x7FFFFF, 0, 0, 0, 0, .c⟩,
  ⟨"BPM_HYST", 0x140020, [(64, 0x40)], 0x0, 0x807FFFFF, 0, 0, 0, 0, .c⟩,
  ⟨"BPM_QMINF", 0x140024, [(64, 0x40)], 0x0, 0, 0x7FFFFF, 0, 0, 0, .c⟩,
  ⟨"BPM_QCAPF", 0x140028, [(64, 0x40)], 0x0, 0, 0x7FFFFF, 0, 0, 0, .c⟩,
  ⟨"BPM_QTHR", 0x14002C, [(64, 0x40)], 0x0, 0, 0xFFFFFFFF, 0, 0, 0, .c⟩,
  ⟨"BPM_QHOST", 0x140030, [(64, 0x40)], 0x0, 0, 0xFFFFFFFF, 0, 0, 0, .c⟩,
  ⟨"BPM_STAT", 0x140034, [(64, 0x40)], 0x0, 0, 0, 0, 0, 0, .c⟩,
  ⟨"BPM_EMPTY", 0x140038, [(64, 0x40)], 0x0, 0, 0, 0, 0, 0, .c⟩,
  ⟨"BPM_HALLOC", 0x141000, [], 0x0, 0, 0, 0, 0, 0x3F, .c⟩,
  ⟨"BPM_HFREE", 0x141004, [], 0x0, 0, 0, 0, 0, 0x3F7FFFFF, .c⟩,
  ⟨"BPM_HSTATUS", 0x141008, [], 0x0, 0, 0, 0, 0, 0, .c⟩,
  ⟨"BPM_STWIN", 0x14100C, [], 0x0, 0, 0x7FFE00, 0, 0, 0, .c⟩,
  ⟨"BPM_FAILCNT", 0x141010, [], 0x0, 0, 0, 0, 0, 0, .c⟩,
  ⟨"BPM_TOTAL", 0x141014, [], 0x0, 0, 0, 0, 0, 0, .c⟩]

/-- Registers of the map, part 4. -/
def regRows4 : List RegRow := [
  ⟨"BPM_EPUSE_LO", 0x142000, [(256, 0x8)], 0x0, 0, 0xFFFFFFFF, 0, 0, 0, .c⟩,
  ⟨"BPM_EPUSE_HI", 0x142004, [(256, 0x8)], 0x0, 0, 0xFFFFFFFF, 0, 0, 0, .c⟩,
  ⟨"EGR_TCCFG", 0x150000, [(64, 0x100), (8, 0x10)], 0x2000000, 0xFFFF0007, 0, 0, 0, 0, .c⟩,
  ⟨"EGR_TCSDU", 0x150004, [(64, 0x100), (8, 0x10)], 0x4000, 0x7FFF, 0, 0, 0, 0, .c⟩,
  ⟨"EGR_CBS_IDLE", 0x150008, [(64, 0x100), (8, 0x10)], 0x0, 0x3FFFFFFF, 0, 0, 0, 0, .c⟩,
  ⟨"EGR_CBS_CRED", 0x15000C, [(64, 0x100), (8, 0x10)], 0xFFFFFFFF, 0xFFFFFFFF, 0, 0, 0, 0, .c⟩,
  ⟨"EGR_PQW", 0x154000, [(64, 0x20)], 0x80008, 0xFFF0FFF, 0, 0, 0, 0, .c⟩,
  ⟨"EGR_GCL_CTRL", 0x154004, [(64, 0x20)], 0x0, 0, 0xF3, 0, 0, 0, .c⟩,
  ⟨"EGR_GCL_LEN", 0x154008, [(64, 0x20)], 0x10001, 0x1FF01FF, 0, 0, 0, 0, .c⟩,
  ⟨"EGR_GCL_IDX", 0x15400C, [(64, 0x20)], 0x0, 0x1FF, 0, 0, 0, 0, .c⟩,
  ⟨"EGR_GCL_DATA0", 0x154010, [(64, 0x20)], 0x0, 0xFFFFFFFF, 0, 0, 0, 0, .c⟩,
  ⟨"EGR_GCL_DATA1", 0x154014, [(64, 0x20)], 0x0, 0xFFFFFFFF, 0, 0, 0, 0, .c⟩,
  ⟨"EGR_GCL_SWAP", 0x154018, [(64, 0x20)], 0x0, 0xFFFFFFFF, 0, 0, 0, 0, .c⟩,
  ⟨"EGR_GCL_SWSTAT", 0x15401C, [(64, 0x20)], 0x0, 0, 0, 0, 0x3, 0, .c⟩,
  ⟨"EGR_CTX_IDX", 0x156000, [], 0x0, 0xFFF, 0, 0, 0, 0, .c⟩,
  ⟨"EGR_CTX_DATA0", 0x156004, [], 0x0, 0xFFFFFFFF, 0, 0, 0, 0, .c⟩,
  ⟨"EGR_CTX_DATA1", 0x156008, [], 0x0, 0xFFFFFFFF, 0, 0, 0, 0, .c⟩,
  ⟨"EGR_XP_STAT", 0x15600C, [], 0x0, 0, 0, 0, 0, 0, .c⟩,
  ⟨"EGR_XP_L", 0x158100, [(4032, 0x4)], 0x0, 0xBFFFFFFF, 0, 0, 0, 0, .c⟩,
  ⟨"PORT_CFG", 0x200000, [(64, 0x1000)], 0x30000000, 0, 0xFFFF3E0F, 0, 0, 0, .c⟩,
  ⟨"PORT_STATUS", 0x200004, [(64, 0x1000)], 0x0, 0, 0, 0, 0, 0, .c⟩,
  ⟨"PORT_VERIFY", 0x200008, [(64, 0x1000)], 0xA, 0xFF, 0, 0, 0, 0, .c⟩,
  ⟨"PORT_RXERR", 0x200010, [(64, 0x1000)], 0x0, 0, 0, 0, 0, 0, .c⟩,
  ⟨"PORT_TXERR", 0x200014, [(64, 0x1000)], 0x0, 0, 0, 0, 0, 0, .c⟩,
  ⟨"TBL_CMD", 0x160000, [], 0x0, 0x4000000F, 0, 0, 0, 0, .c⟩,
  ⟨"TBL_INDEX", 0x160004, [], 0x0, 0x3FFFF, 0, 0, 0, 0, .c⟩,
  ⟨"TBL_ENTRY", 0x160010, [(8, 0x4)], 0x0, 0xFFFFFFFF, 0, 0, 0, 0, .c⟩,
  ⟨"TBL_RESULT", 0x160030, [], 0x0, 0, 0, 0, 0, 0, .c⟩,
  ⟨"TBL_WALK", 0x160034, [], 0x0, 0x80000FFF, 0, 0, 0, 0, .c⟩,
  ⟨"TBL_AGE", 0x160038, [], 0x3F, 0xFFFF, 0, 0, 0, 0, .c⟩,
  ⟨"TBL_AGE_STAT", 0x16003C, [], 0x0, 0, 0, 0, 0, 0, .c⟩,
  ⟨"TBL_SEED", 0x160040, [], 0x13579BDF, 0, 0, 0, 0, 0, .c⟩,
  ⟨"TBL_SEED", 0x160044, [], 0x2468ACE0, 0, 0, 0, 0, 0, .c⟩,
  ⟨"TBL_SEED", 0x160048, [(2, 0x4)], 0x0, 0xFFFFFFFF, 0, 0, 0, 0, .c⟩,
  ⟨"TBL_SEED", 0x160050, [], 0x13579BDF, 0, 0, 0, 0, 0, .c⟩,
  ⟨"TBL_SEED", 0x160054, [], 0x2468ACE0, 0, 0, 0, 0, 0, .c⟩,
  ⟨"TBL_SEED", 0x160058, [(2, 0x4)], 0x0, 0xFFFFFFFF, 0, 0, 0, 0, .c⟩,
  ⟨"TBL_RHS", 0x160060, [(2, 0x4)], 0x0, 0, 0, 0, 0xC0000000, 0, .c⟩,
  ⟨"TBL_RHS_STUCK", 0x160068, [(2, 0x4)], 0x0, 0, 0, 0, 0, 0, .c⟩,
  ⟨"TBL_USED", 0x160070, [(2, 0x4)], 0x0, 0, 0, 0, 0, 0, .c⟩]

/-- Registers of the map, part 5. -/
def regRows5 : List RegRow := [
  ⟨"TBL_NRH_CNT", 0x160078, [], 0x0, 0, 0, 0, 0, 0, .c⟩,
  ⟨"TBL_STRCFG", 0x160080, [], 0x7F0F, 0, 0x7F0F, 0, 0, 0, .c⟩,
  ⟨"TBL_LRN_CFG", 0x160090, [], 0x0, 0xC01F0000, 0, 0, 0, 0, .c⟩,
  ⟨"TBL_LRN_BASE", 0x160094, [], 0x0, 0x7FFFF0, 0, 0, 0, 0, .c⟩,
  ⟨"TBL_LRN_DROP", 0x160098, [], 0x0, 0, 0, 0, 0, 0, .c⟩,
  ⟨"TBL_LRN_SENT", 0x16009C, [], 0x0, 0, 0, 0, 0, 0, .c⟩,
  ⟨"TBL_LRN_PORT", 0x160100, [(64, 0x4)], 0x40, 0x8000FFFF, 0, 0, 0, 0, .c⟩,
  ⟨"CTL_CFG", 0x170000, [], 0x2, 0, 0x3, 0, 0, 0, .c⟩,
  ⟨"CTL_WSTAT", 0x170004, [], 0x0, 0, 0, 0, 0, 0, .c⟩,
  ⟨"CTL_SIDX", 0x170010, [], 0x0, 0x3FFFF, 0, 0, 0, 0, .c⟩,
  ⟨"CTL_SDATA", 0x170014, [(4, 0x4)], 0x0, 0xFFFFFFFF, 0, 0, 0, 0, .c⟩,
  ⟨"CTL_FIDX", 0x170030, [], 0x0, 0xFFF, 0, 0, 0, 0, .c⟩,
  ⟨"CTL_FDATA", 0x170034, [(2, 0x4)], 0x0, 0xFFFFFFFF, 0, 0, 0, 0, .c⟩,
  ⟨"CTL_FCNT", 0x170040, [(5, 0x4)], 0x0, 0, 0, 0, 0, 0, .c⟩,
  ⟨"CTL_GIDX", 0x170060, [], 0x0, 0x7FFF, 0, 0, 0, 0, .c⟩,
  ⟨"CTL_GDATA", 0x170064, [(2, 0x4)], 0x0, 0xFFFFFFFF, 0, 0, 0, 0, .c⟩,
  ⟨"CTL_GCTL", 0x17006C, [], 0x10001, 0xF11F001F, 0, 0x2000000, 0, 0, .c⟩,
  ⟨"CTL_GSWAP_TICK", 0x170070, [], 0x0, 0xFFFFFFFF, 0, 0, 0, 0, .c⟩,
  ⟨"CTL_GSWSTAT", 0x170074, [], 0x0, 0, 0, 0, 0x3, 0, .c⟩,
  ⟨"CTL_MIDX", 0x170080, [], 0x0, 0xFFF, 0, 0, 0, 0, .c⟩,
  ⟨"CTL_MDATA", 0x170084, [(5, 0x4)], 0x0, 0xFFFFFFFF, 0, 0, 0, 0, .c⟩,
  ⟨"CTL_RIDX", 0x1700A0, [], 0x0, 0xFFFF, 0, 0, 0, 0, .c⟩,
  ⟨"CTL_RDATA", 0x1700A4, [(3, 0x4)], 0x0, 0xFFFFFFFF, 0, 0, 0, 0, .c⟩,
  ⟨"CTL_RDATA", 0x1700B0, [(5, 0x4)], 0x0, 0, 0, 0, 0, 0, .c⟩,
  ⟨"CTL_RCNT", 0x1700C4, [(8, 0x4)], 0x0, 0, 0, 0, 0, 0, .c⟩,
  ⟨"CTL_AIDX", 0x170100, [], 0x0, 0x3FFF, 0, 0, 0, 0, .c⟩,
  ⟨"CTL_ADATA", 0x170104, [(12, 0x4)], 0x0, 0xFFFFFFFF, 0, 0, 0, 0, .c⟩,
  ⟨"CTL_ASTAT", 0x170134, [], 0x0, 0, 0, 0, 0, 0, .c⟩,
  ⟨"CTL_MEAS", 0x170140, [(4, 0x10), (4, 0x4)], 0x0, 0, 0, 0, 0, 0, .c⟩,
  ⟨"CTL_ADMIT", 0x170200, [], 0x0, 0, 0, 0, 0x1, 0, .c⟩,
  ⟨"CTL_ADMIT_OBJ", 0x170204, [], 0x0, 0, 0, 0, 0, 0, .c⟩,
  ⟨"CTL_UNADMITTED", 0x170210, [], 0x0, 0, 0, 0, 0, 0, .c⟩,
  ⟨"CTL_FPT_DROP", 0x170214, [], 0x0, 0, 0, 0, 0, 0, .c⟩,
  ⟨"CTL_LOG_LOST", 0x170218, [], 0x0, 0, 0, 0, 0, 0, .c⟩,
  ⟨"CTL_LOG", 0x170220, [(4, 0x4)], 0x0, 0, 0, 0, 0, 0, .c⟩,
  ⟨"SIG_CFG", 0x180000, [], 0x7, 0, 0x8000000F, 0, 0, 0, .c⟩,
  ⟨"SIG_WSTAT", 0x180004, [], 0x0, 0, 0, 0, 0, 0, .c⟩,
  ⟨"SIG_HV_IDX", 0x180010, [], 0x0, 0xFFFF, 0, 0, 0, 0, .c⟩,
  ⟨"SIG_HV_DATA", 0x180014, [(4, 0x4)], 0x0, 0xFFFFFFFF, 0, 0, 0, 0, .c⟩,
  ⟨"SIG_HV_CNT", 0x180030, [(4, 0x4)], 0x0, 0, 0, 0, 0, 0, .c⟩]

/-- Registers of the map, part 6. -/
def regRows6 : List RegRow := [
  ⟨"SIG_HV_WRITES", 0x180040, [], 0x0, 0, 0, 0, 0, 0, .c⟩,
  ⟨"SIG_VOTE_CFG", 0x180080, [], 0x0, 0, 0x81FFFFFF, 0, 0, 0, .c⟩,
  ⟨"SIG_VG_IDX", 0x180084, [], 0x0, 0xFFFF, 0, 0, 0, 0, .c⟩,
  ⟨"SIG_VG_DATA", 0x180088, [(8, 0x4)], 0x0, 0xFFFFFFFF, 0, 0, 0, 0, .c⟩,
  ⟨"SIG_VG_STATE", 0x1800A8, [], 0x0, 0, 0, 0, 0, 0, .c⟩,
  ⟨"SIG_VOTE_DISC", 0x1800AC, [], 0x0, 0, 0, 0, 0, 0, .c⟩,
  ⟨"SIG_VOTE_CHFULL", 0x1800B0, [], 0x0, 0, 0, 0, 0, 0, .c⟩,
  ⟨"SIG_PUB_IDX", 0x180100, [], 0x0, 0xFFF, 0, 0, 0, 0, .c⟩,
  ⟨"SIG_PUB_DATA", 0x180104, [(7, 0x4)], 0x0, 0xFFFFFFFF, 0, 0, 0, 0, .c⟩,
  ⟨"SIG_PUB_DATA", 0x180120, [], 0x0, 0, 0, 0, 0, 0, .c⟩,
  ⟨"SIG_PUB_UTCOFF", 0x180124, [], 0x0, 0xFFFF, 0, 0, 0, 0, .c⟩,
  ⟨"SIG_PUB_SENT", 0x180128, [], 0x0, 0, 0, 0, 0, 0, .c⟩,
  ⟨"SIG_PUB_SKIPPED", 0x18012C, [], 0x0, 0, 0, 0, 0, 0, .c⟩,
  ⟨"SIG_PUB_STALE", 0x180130, [], 0x0, 0, 0, 0, 0, 0, .c⟩,
  ⟨"SIG_SVC_IDX", 0x180200, [], 0x0, 0xF, 0, 0, 0, 0, .c⟩,
  ⟨"SIG_SVC_DATA", 0x180204, [(8, 0x4)], 0x0, 0xFFFFFFFF, 0, 0, 0, 0, .c⟩,
  ⟨"SIG_SVC_CFG", 0x180240, [], 0xE0000, 0xFFF00, 0, 0, 0x100000, 0, .c⟩,
  ⟨"SIG_SVC_CNT", 0x180244, [(4, 0x4)], 0x0, 0, 0, 0, 0, 0, .c⟩,
  ⟨"PEAT_CFG", 0x190000, [], 0x0, 0, 0x80000000, 0, 0, 0, .c⟩,
  ⟨"PEAT_WSTAT", 0x190004, [], 0x0, 0, 0, 0, 0, 0, .c⟩,
  ⟨"PEAT_P_IDX", 0x190010, [], 0x0, 0xFF, 0, 0, 0, 0, .c⟩,
  ⟨"PEAT_P_DATA", 0x190014, [(4, 0x4)], 0x0, 0xFFFFFFFF, 0, 0, 0, 0, .c⟩,
  ⟨"PEAT_S_IDX", 0x190030, [], 0x0, 0xFFF, 0, 0, 0, 0, .c⟩,
  ⟨"PEAT_S_DATA", 0x190034, [(8, 0x4)], 0x0, 0xFFFFFFFF, 0, 0, 0, 0, .c⟩,
  ⟨"PEAT_S_STAT", 0x190060, [(4, 0x4)], 0x0, 0, 0, 0, 0, 0, .c⟩,
  ⟨"PEAT_FIFO", 0x190070, [], 0x0, 0, 0, 0, 0, 0, .c⟩,
  ⟨"PEAT_FIFO_HWM", 0x190074, [], 0x0, 0, 0, 0x80000000, 0, 0, .c⟩,
  ⟨"PEAT_DROP", 0x190078, [], 0x0, 0, 0, 0, 0, 0, .c⟩,
  ⟨"PEAT_SKIP", 0x19007C, [], 0x0, 0, 0, 0, 0, 0, .c⟩,
  ⟨"PEAT_RECS", 0x190080, [], 0x0, 0, 0, 0, 0, 0, .c⟩,
  ⟨"PEAT_BUDGET0", 0x190084, [], 0x0, 0, 0, 0, 0, 0, .c⟩,
  ⟨"PEAT_BUDGET1", 0x190088, [], 0x0, 0, 0, 0, 0, 0, .c⟩,
  ⟨"PEAT_TRP_CFG0", 0x190100, [], 0x0, 0xFFFFFFFF, 0, 0, 0, 0, .c⟩,
  ⟨"PEAT_TRP_CFG1", 0x190104, [], 0x51E00, 0x8007FFFF, 0, 0, 0, 0, .c⟩,
  ⟨"PEAT_CL_IDX", 0x190110, [], 0x0, 0x3F, 0, 0, 0, 0, .c⟩,
  ⟨"PEAT_CL_DATA", 0x190114, [(8, 0x4)], 0x0, 0xFFFFFFFF, 0, 0, 0, 0, .c⟩,
  ⟨"PEAT_TRP_CNT", 0x190140, [(8, 0x4)], 0x0, 0, 0, 0, 0, 0, .c⟩,
  ⟨"DRC_CFG", 0x1B1000, [], 0x0, 0, 0x80000700, 0, 0, 0, .c⟩,
  ⟨"DRC_STATUS", 0x1B1004, [], 0x0, 0, 0, 0, 0, 0, .c⟩,
  ⟨"DRC_PANIC_HI", 0x1B1008, [], 0xC00, 0x1FFF, 0, 0, 0, 0, .c⟩]

/-- Registers of the map, part 7. -/
def regRows7 : List RegRow := [
  ⟨"DRC_PANIC_LO", 0x1B100C, [], 0x400, 0x1FFF, 0, 0, 0, 0, .c⟩,
  ⟨"DRC_RETRAIN_INTERVAL", 0x1B1010, [], 0x64, 0xFFFF, 0, 0, 0, 0, .c⟩,
  ⟨"DRC_KEEP", 0x1B1014, [], 0x0, 0xFFFF, 0, 0, 0, 0, .a⟩,
  ⟨"DRC_PWRUP", 0x1B1018, [], 0x4E20, 0xFFFFFFFF, 0, 0, 0, 0, .c⟩,
  ⟨"DRC_SCRUB", 0x1B101C, [], 0x18, 0xFFFF, 0, 0, 0, 0, .c⟩,
  ⟨"DRC_ERRTHR", 0x1B1020, [], 0x4000100, 0xFFFFFF00, 0, 0, 0, 0, .c⟩,
  ⟨"DRC_ERRWIN", 0x1B1024, [], 0x1E848, 0xFFFFFFFF, 0, 0, 0, 0, .c⟩,
  ⟨"DRC_RETIRE", 0x1B1028, [], 0x0, 0, 0, 0, 0xFF, 0, .c⟩,
  ⟨"DRC_CNT_PANIC", 0x1B1030, [], 0x0, 0, 0, 0, 0, 0, .c⟩,
  ⟨"DRC_CNT_POSTPONE", 0x1B1034, [], 0x0, 0, 0, 0, 0, 0, .c⟩,
  ⟨"DRC_CNT_INSERT", 0x1B1038, [], 0x0, 0, 0, 0, 0, 0, .c⟩,
  ⟨"DRC_CNT_RETIREDACC", 0x1B103C, [], 0x0, 0, 0, 0, 0, 0, .c⟩,
  ⟨"DRC_CH_STATUS", 0x1B0000, [(8, 0x2000)], 0x0, 0, 0, 0, 0, 0, .c⟩,
  ⟨"DRC_CH_CE", 0x1B0004, [(8, 0x2000)], 0x0, 0, 0, 0, 0, 0, .c⟩,
  ⟨"DRC_CH_UE", 0x1B0008, [(8, 0x2000)], 0x0, 0, 0, 0, 0, 0, .c⟩,
  ⟨"DRC_CH_RECOVERED", 0x1B000C, [(8, 0x2000)], 0x0, 0, 0, 0, 0, 0, .c⟩,
  ⟨"DRC_CH_ELOG0", 0x1B0010, [(8, 0x2000)], 0x0, 0, 0, 0, 0, 0, .c⟩,
  ⟨"DRC_CH_ELOG1", 0x1B0014, [(8, 0x2000)], 0x0, 0, 0, 0, 0, 0, .c⟩,
  ⟨"DRC_CH_ELOG2", 0x1B0018, [(8, 0x2000)], 0x0, 0, 0, 0, 0, 0, .c⟩,
  ⟨"CHK_CH_CFG", 0x1A0000, [(64, 0x10)], 0x1, 0x80000003, 0, 0, 0, 0, .c⟩,
  ⟨"CHK_CH_SEED_LO", 0x1A0004, [(64, 0x10)], 0xFFFFFFFF, 0xFFFFFFFF, 0, 0, 0, 0, .c⟩,
  ⟨"CHK_CH_SEED_HI", 0x1A0008, [(64, 0x10)], 0x0, 0xFFFFFFFF, 0, 0, 0, 0, .c⟩,
  ⟨"CHK_CH_MISCNT", 0x1A000C, [(64, 0x10)], 0x0, 0, 0, 0, 0, 0, .c⟩,
  ⟨"CHK_HJ_W", 0x1A0800, [(6, 0x4)], 0x0, 0xFFFFFFFF, 0, 0, 0, 0, .c⟩,
  ⟨"CHK_HJ_CMD", 0x1A0818, [], 0x0, 0x3, 0, 0, 0, 0, .c⟩,
  ⟨"CHK_HJ_RES_LO", 0x1A081C, [], 0x0, 0, 0, 0, 0, 0, .c⟩,
  ⟨"CHK_HJ_RES_HI", 0x1A0820, [], 0x0, 0, 0, 0, 0, 0, .c⟩,
  ⟨"CHK_MLOG0", 0x1A0900, [], 0x0, 0, 0, 0, 0, 0, .c⟩,
  ⟨"CHK_MLOG1", 0x1A0904, [(5, 0x4)], 0x0, 0, 0, 0, 0, 0, .c⟩,
  ⟨"CHK_MLOG_LOST", 0x1A0918, [], 0x0, 0, 0, 0, 0, 0, .c⟩,
  ⟨"BLK_CFG", 0x50000, [], 0x0, 0x1, 0, 0, 0, 0, .h⟩,
  ⟨"BLK_STATUS", 0x50004, [], 0x0, 0, 0, 0, 0, 0, .c⟩,
  ⟨"BLK_VIOL0", 0x50010, [], 0x0, 0, 0, 0, 0, 0, .c⟩,
  ⟨"BLK_VIOL1", 0x50014, [], 0x0, 0, 0, 0, 0, 0, .c⟩,
  ⟨"BLK_VIOL2", 0x50018, [], 0x0, 0, 0, 0, 0, 0, .c⟩,
  ⟨"BLK_VIOL_CNT", 0x5001C, [], 0x0, 0, 0, 0, 0, 0, .c⟩,
  ⟨"BLK_CH_ADDR_LO", 0x50100, [(8, 0x40)], 0x0, 0xFFFFFFFF, 0, 0, 0, 0, .h⟩,
  ⟨"BLK_CH_ADDR_HI", 0x50104, [(8, 0x40)], 0x0, 0xFFFF, 0, 0, 0, 0, .h⟩,
  ⟨"BLK_CH_LIMIT", 0x50108, [(8, 0x40)], 0x0, 0xFFFFFFFF, 0, 0, 0, 0, .h⟩,
  ⟨"BLK_CH_STAT", 0x5010C, [(8, 0x40)], 0x0, 0, 0, 0, 0, 0, .h⟩]

/-- Registers of the map, part 8. -/
def regRows8 : List RegRow := [
  ⟨"BLK_CH_HOST_LO", 0x50110, [(8, 0x40)], 0x0, 0xFFFFFFFF, 0, 0, 0, 0, .h⟩,
  ⟨"BLK_CH_HOST_HI", 0x50114, [(8, 0x40)], 0x0, 0xFFFFFFFF, 0, 0, 0, 0, .h⟩,
  ⟨"BLK_CH_LEN", 0x50118, [(8, 0x40)], 0x0, 0xFFFFFFFF, 0, 0, 0, 0, .h⟩,
  ⟨"BLK_CH_COOKIE", 0x5011C, [(8, 0x40)], 0x0, 0xFFFFFFFF, 0, 0, 0, 0, .h⟩,
  ⟨"BLK_CH_CMD", 0x50120, [(8, 0x40)], 0x0, 0, 0, 0, 0, 0x3, .h⟩,
  ⟨"BLK_RNG_BASE_LO", 0x50800, [(16, 0x20)], 0x0, 0xFFFFFFFF, 0, 0, 0, 0, .h⟩,
  ⟨"BLK_RNG_BASE_HI", 0x50804, [(16, 0x20)], 0x0, 0xFFFFFFFF, 0, 0, 0, 0, .h⟩,
  ⟨"BLK_RNG_WB_LO", 0x5080C, [(16, 0x20)], 0x0, 0xFFFFFFFF, 0, 0, 0, 0, .h⟩,
  ⟨"BLK_RNG_WB_HI", 0x50810, [(16, 0x20)], 0x0, 0xFFFFFFFF, 0, 0, 0, 0, .h⟩,
  ⟨"BLK_RNG_CFG", 0x50808, [], 0x4, 0xBFE0FF1F, 0, 0, 0x40000000, 0, .h⟩,
  ⟨"BLK_RNG_CFG", 0x50828, [], 0x200004, 0xBFE0FF1F, 0, 0, 0x40000000, 0, .h⟩,
  ⟨"BLK_RNG_CFG", 0x50848, [], 0x400004, 0xBFE0FF1F, 0, 0, 0x40000000, 0, .h⟩,
  ⟨"BLK_RNG_CFG", 0x50868, [], 0x600004, 0xBFE0FF1F, 0, 0, 0x40000000, 0, .h⟩,
  ⟨"BLK_RNG_CFG", 0x50888, [], 0x800004, 0xBFE0FF1F, 0, 0, 0x40000000, 0, .h⟩,
  ⟨"BLK_RNG_CFG", 0x508A8, [], 0xA00004, 0xBFE0FF1F, 0, 0, 0x40000000, 0, .h⟩,
  ⟨"BLK_RNG_CFG", 0x508C8, [], 0xC00004, 0xBFE0FF1F, 0, 0, 0x40000000, 0, .h⟩,
  ⟨"BLK_RNG_CFG", 0x508E8, [], 0xE00004, 0xBFE0FF1F, 0, 0, 0x40000000, 0, .h⟩,
  ⟨"BLK_RNG_CFG", 0x50908, [], 0x1000004, 0xBFE0FF1F, 0, 0, 0x40000000, 0, .h⟩,
  ⟨"BLK_RNG_CFG", 0x50928, [], 0x1200004, 0xBFE0FF1F, 0, 0, 0x40000000, 0, .h⟩,
  ⟨"BLK_RNG_CFG", 0x50948, [], 0x1400004, 0xBFE0FF1F, 0, 0, 0x40000000, 0, .h⟩,
  ⟨"BLK_RNG_CFG", 0x50968, [], 0x1600004, 0xBFE0FF1F, 0, 0, 0x40000000, 0, .h⟩,
  ⟨"BLK_RNG_CFG", 0x50988, [], 0x1800004, 0xBFE0FF1F, 0, 0, 0x40000000, 0, .h⟩,
  ⟨"BLK_RNG_CFG", 0x509A8, [], 0x1A00004, 0xBFE0FF1F, 0, 0, 0x40000000, 0, .h⟩,
  ⟨"BLK_RNG_CFG", 0x509C8, [], 0x1C00004, 0xBFE0FF1F, 0, 0, 0x40000000, 0, .h⟩,
  ⟨"BLK_RNG_CFG", 0x509E8, [], 0x1E00004, 0xBFE0FF1F, 0, 0, 0x40000000, 0, .h⟩,
  ⟨"BLK_RNG_RD", 0x50814, [(16, 0x20)], 0x0, 0xFFFF, 0, 0, 0, 0, .h⟩,
  ⟨"BLK_RNG_WR", 0x50818, [(16, 0x20)], 0x0, 0, 0, 0, 0, 0, .h⟩,
  ⟨"BLK_RNG_LOST", 0x5081C, [(16, 0x20)], 0x0, 0, 0, 0, 0, 0, .h⟩,
  ⟨"BLK_MBX_H2D", 0x51000, [(32, 0x4)], 0x0, 0xFFFFFFFF, 0, 0, 0, 0, .m⟩,
  ⟨"BLK_MBX_D2H", 0x51080, [(30, 0x4)], 0x0, 0, 0, 0, 0, 0, .m⟩,
  ⟨"BLK_MBX_DB", 0x51100, [], 0x0, 0, 0, 0, 0, 0x7FF, .m⟩,
  ⟨"BLK_MBX_STAT", 0x51104, [], 0x0, 0, 0, 0x80000000, 0, 0, .m⟩,
  ⟨"BLK_MBX_D2HDB", 0x51108, [], 0x0, 0, 0, 0, 0, 0, .m⟩,
  ⟨"MGT_HEARTBEAT", 0x40, [], 0x0, 0, 0, 0, 0, 0xFFFFFFFF, .c⟩,
  ⟨"MGT_HB_TICKS", 0x44, [], 0x0, 0xFFFF, 0, 0, 0, 0, .c⟩,
  ⟨"MGT_HB_STAT", 0x48, [], 0x0, 0, 0, 0, 0, 0, .c⟩,
  ⟨"CHN_CFG", 0x40000, [], 0x0, 0, 0xFFFF01, 0, 0, 0, .c⟩,
  ⟨"CHN_STATUS", 0x40004, [], 0x0, 0, 0, 0xC000000, 0, 0, .c⟩,
  ⟨"CHN_CMD", 0x40008, [], 0x0, 0, 0, 0, 0x1, 0, .c⟩,
  ⟨"CHN_TICKADJ", 0x4000C, [], 0x0, 0xFFFF, 0, 0, 0, 0, .c⟩]

/-- Registers of the map, part 9. -/
def regRows9 : List RegRow := [
  ⟨"CHN_MSGTO", 0x40010, [], 0x64, 0xFFFF, 0, 0, 0, 0, .c⟩,
  ⟨"CHN_TX_HDR", 0x40020, [], 0x0, 0xFF3F07, 0, 0, 0, 0, .c⟩,
  ⟨"CHN_TX_DATA", 0x40024, [(8, 0x4)], 0x0, 0xFFFFFFFF, 0, 0, 0, 0, .c⟩,
  ⟨"CHN_TX_CMD", 0x40044, [], 0x0, 0, 0, 0, 0, 0x1, .c⟩,
  ⟨"CHN_TX_STAT", 0x40048, [], 0x0, 0, 0, 0, 0, 0, .c⟩,
  ⟨"CHN_CNT_RECOVERED", 0x40080, [], 0x0, 0, 0, 0, 0, 0, .c⟩,
  ⟨"CHN_CNT_EXHAUSTED", 0x40084, [], 0x0, 0, 0, 0, 0, 0, .c⟩,
  ⟨"CHN_CNT_TIMEOUT", 0x40088, [], 0x0, 0, 0, 0, 0, 0, .c⟩,
  ⟨"CHN_CNT_LATECOMP", 0x4008C, [], 0x0, 0, 0, 0, 0, 0, .c⟩,
  ⟨"CHN_CNT_BADADDR", 0x40090, [], 0x0, 0, 0, 0, 0, 0, .c⟩,
  ⟨"CHN_CNT_TICKBAD", 0x40094, [], 0x0, 0, 0, 0, 0, 0, .c⟩,
  ⟨"CHN_CNT_BREAKS", 0x40098, [], 0x0, 0, 0, 0, 0, 0, .c⟩,
  ⟨"CHN_REPL_LOG", 0x400A0, [], 0x0, 0, 0, 0, 0, 0, .c⟩,
  ⟨"MGT_ID", 0x0, [], 0x72641E5C, 0, 0, 0, 0, 0, .c⟩,
  ⟨"MGT_REV", 0x4, [], 0x0, 0, 0, 0, 0, 0, .f⟩,
  ⟨"MGT_MODE", 0x8, [], 0x0, 0, 0, 0, 0, 0, .c⟩,
  ⟨"MGT_MODE_CMD", 0xC, [], 0x0, 0xF, 0, 0, 0, 0, .c⟩,
  ⟨"MGT_MODE_STAT", 0x10, [], 0x0, 0, 0, 0, 0, 0, .c⟩,
  ⟨"MGT_DRAIN_LIMIT", 0x14, [], 0x7D0, 0xFFFF, 0, 0, 0, 0, .c⟩,
  ⟨"MGT_KEEP_CFG", 0x18, [], 0x0, 0x1, 0, 0, 0, 0, .a⟩,
  ⟨"MGT_KEEP_BASE_LO", 0x1C, [], 0x0, 0xFFFFF000, 0, 0, 0, 0, .a⟩,
  ⟨"MGT_KEEP_BASE_HI", 0x20, [], 0x0, 0xFFFF, 0, 0, 0, 0, .a⟩,
  ⟨"MGT_KEEP_STAT", 0x24, [], 0x0, 0, 0, 0, 0, 0, .a⟩,
  ⟨"MGT_KEEP_SEQ", 0x28, [], 0x0, 0, 0, 0, 0, 0, .a⟩,
  ⟨"MGT_RESET", 0x2C, [], 0x0, 0, 0, 0, 0, 0xFF, .c⟩,
  ⟨"MGT_DP_RESET", 0x30, [], 0x0, 0, 0, 0, 0, 0xFF, .c⟩,
  ⟨"MGT_RST_CAUSE", 0x34, [], 0x1, 0, 0, 0x3F, 0, 0, .a⟩,
  ⟨"MGT_DRAIN_DROP", 0x38, [], 0x0, 0, 0, 0, 0, 0, .c⟩,
  ⟨"MGT_DPR_DROP", 0x3C, [], 0x0, 0, 0, 0, 0, 0, .c⟩,
  ⟨"MGT_AON_SCRATCH", 0x6000, [(1024, 0x4)], 0x0, 0xFFFFFFFF, 0, 0, 0, 0, .a⟩,
  ⟨"CLK_STATUS", 0x60000, [], 0x0, 0, 0, 0, 0, 0, .c⟩,
  ⟨"CLK_GATE", 0x60004, [], 0x0, 0, 0xFFFF, 0, 0, 0, .c⟩,
  ⟨"CLK_PLLOFF", 0x6000C, [], 0x0, 0, 0xFFFF, 0, 0, 0, .c⟩,
  ⟨"CLK_GATE_IDLE", 0x60008, [], 0x100, 0xFFFF, 0, 0, 0, 0, .c⟩,
  ⟨"CLK_CDC_OVR", 0x60010, [], 0x0, 0, 0, 0x7F, 0, 0, .c⟩,
  ⟨"CLK_CDC_OVRCNT", 0x60014, [], 0x0, 0, 0, 0, 0, 0, .c⟩,
  ⟨"CLK_WAKECNT", 0x60018, [], 0x0, 0, 0, 0, 0, 0, .c⟩,
  ⟨"MGT_ABORT_LO", 0x200, [], 0x0, 0xFFFF, 0, 0, 0, 0, .c⟩,
  ⟨"MGT_ABORT_HI", 0x204, [], 0x0, 0x3FFF, 0, 0, 0, 0, .c⟩,
  ⟨"MGT_ABORT_STAT", 0x208, [], 0x0, 0, 0, 0, 0, 0, .c⟩]

/-- Registers of the map, part 10. -/
def regRows10 : List RegRow := [
  ⟨"RAS_REPLACE", 0x10000, [], 0x0, 0, 0, 0xFF, 0, 0, .a⟩,
  ⟨"RAS_STATUS", 0x10004, [], 0x0, 0, 0, 0, 0, 0, .c⟩,
  ⟨"RAS_LOGLOST", 0x10008, [], 0x0, 0, 0, 0, 0, 0, .c⟩,
  ⟨"RAS_ABORT_DROP", 0x1000C, [], 0x0, 0, 0, 0, 0, 0, .c⟩,
  ⟨"RAS_LOG", 0x10010, [(5, 0x4)], 0x0, 0, 0, 0, 0, 0, .c⟩,
  ⟨"RAS_CETHR", 0x10030, [], 0x1001000, 0xFFFFFFFF, 0, 0, 0, 0, .c⟩,
  ⟨"RAS_CEWIN", 0x10034, [], 0x1E848, 0xFFFFFFFF, 0, 0, 0, 0, .c⟩,
  ⟨"RAS_THERM", 0x10038, [], 0x64, 0xFF, 0, 0, 0, 0, .c⟩,
  ⟨"RAS_PORTHOLD_LO", 0x10040, [], 0x0, 0, 0, 0xFFFFFFFF, 0, 0, .c⟩,
  ⟨"RAS_PORTHOLD_HI", 0x10044, [], 0x0, 0, 0, 0xFFFFFFFF, 0, 0, .c⟩,
  ⟨"RAS_LOST_IDX", 0x10050, [], 0x0, 0xFFF, 0, 0, 0, 0, .c⟩,
  ⟨"RAS_LOST_DATA", 0x10054, [(5, 0x4)], 0x0, 0, 0, 0, 0, 0, .c⟩,
  ⟨"PORT_PAUSEWD", 0x200018, [(64, 0x1000)], 0x14, 0xFFFF, 0, 0, 0, 0, .c⟩,
  ⟨"PORT_PAUSECNT", 0x20001C, [(64, 0x1000)], 0x0, 0, 0, 0, 0, 0, .c⟩,
  ⟨"DBG_LOCK", 0x70000, [], 0x0, 0x3, 0, 0, 0, 0, .d⟩,
  ⟨"DBG_STATUS", 0x70004, [], 0x0, 0, 0, 0, 0, 0, .d⟩,
  ⟨"DBG_TSEL", 0x70010, [], 0x0, 0x7FF, 0, 0, 0, 0, .d⟩,
  ⟨"DBG_TCTL", 0x70014, [], 0x0, 0x7, 0, 0, 0, 0, .d⟩,
  ⟨"DBG_TCMD", 0x70018, [], 0x0, 0, 0, 0, 0, 0x7, .d⟩,
  ⟨"DBG_TSTAT", 0x7001C, [], 0x0, 0, 0, 0, 0, 0, .d⟩,
  ⟨"DBG_TREG_IDX", 0x70020, [], 0x0, 0xFF, 0, 0, 0, 0, .d⟩,
  ⟨"DBG_TREG_DATA", 0x70024, [], 0x0, 0xFFFFFFFF, 0, 0, 0, 0, .d⟩,
  ⟨"DBG_CSEL", 0x70030, [], 0x0, 0xFF, 0, 0, 0, 0, .d⟩,
  ⟨"DBG_CSTAT", 0x70034, [], 0x0, 0, 0, 0, 0, 0, .d⟩,
  ⟨"DBG_BP", 0x70040, [(4, 0x4)], 0x0, 0xC0FF1FFF, 0, 0, 0, 0, .d⟩,
  ⟨"DBG_WP_ADDR", 0x70050, [(2, 0x8)], 0x0, 0xFFFFFFFF, 0, 0, 0, 0, .d⟩,
  ⟨"DBG_WP_CTL", 0x70054, [(2, 0x8)], 0x0, 0xE0FF00FF, 0, 0, 0, 0, .d⟩,
  ⟨"DBG_LKREL", 0x70060, [], 0x0, 0xFFFFFFFF, 0, 0, 0, 0, .d⟩,
  ⟨"DBG_LKREL_CTL", 0x70064, [], 0x0, 0xF, 0, 0, 0x80000000, 0, .d⟩,
  ⟨"DBG_CNTCLR", 0x70070, [], 0x0, 0, 0, 0, 0, 0xFFFFFFFF, .d⟩,
  ⟨"DBG_TEL_CTL", 0x70100, [], 0x0, 0x1, 0, 0, 0, 0, .d⟩,
  ⟨"DBG_TEL_TICK_LO", 0x70104, [], 0x0, 0, 0, 0, 0, 0, .d⟩,
  ⟨"DBG_TEL_TICK_HI", 0x70108, [], 0x0, 0, 0, 0, 0, 0, .d⟩,
  ⟨"DBG_TEL", 0x70200, [(16, 0x10), (4, 0x4)], 0x0, 0, 0, 0, 0, 0, .d⟩,
  ⟨"DBG_QW", 0x70300, [(8, 0x10)], 0x0, 0x8000FFFF, 0, 0, 0, 0, .d⟩,
  ⟨"DBG_QW_M", 0x70304, [(8, 0x10), (3, 0x4)], 0x0, 0, 0, 0, 0, 0, .d⟩]

/-- Every register of BAR0 (R504). -/
def regRows : List RegRow :=
  regRows0 ++ regRows1 ++ regRows2 ++ regRows3 ++ regRows4 ++ regRows5 ++ regRows6 ++ regRows7 ++ regRows8 ++ regRows9 ++ regRows10

/-- The register that occupies a BAR0 offset, if any (R425, R504). -/
def regRow (off : Nat) : Option RegRow := regRows.find? (fun r => r.covers off)

/-- The value a register holds after reset; an unoccupied offset reads 0 (R425). -/
def regReset (off : Nat) : Word :=
  match regRow off with
  | some r => BitVec.ofNat 32 r.reset
  | none => 0

end Sys2Proof.Machine
end

