-- ==== Sys2Proof/Machine/State.lean ====
section
/-! DEFINITION. The state of the device as plain data, and the machine right after a power-on reset. -/

namespace Sys2Proof.Machine

/-- Faults of the block. The device has no state in which it stops: every violation the spec names is answered by
a state change (a log record, a FAULT event of a thread, a refusal code), so no meaning raises one. -/
inductive Fault where
  | none
  deriving DecidableEq, Repr

/-- Refusals of the model. -/
inductive Refusal where
  /-- Raised by the arms of exec that have no meaning yet; safe, since the machine stops. -/
  | notModelled (mnemonic : String)
  deriving DecidableEq, Repr

/-- The state of the device. -/
structure State where
  pending : List Instr
  mode : Mode
  tb : TimeBase
  tk : TickUnit
  regs : Sparse Word
  recs : Sparse Word
  stage : Sparse (Option Word)
  latch : Sparse (Option Word)
  mem : List Host.Cell
  dram : Sparse (Option Byte)
  dramGen : Nat
  threads : Sparse Thread
  cores : Sparse CoreUnit
  fronds : Sparse Frond
  chans : Sparse Channel
  dlocks : List LockEntry
  dlockHwm : Nat
  touchedLocks : List Nat
  touchedChans : List Nat
  swapArm : Option (BitVec 48)
  sw : Switch
  tbl : TableUnit
  sg : SigUnit
  ct : StreamUnit
  dc : DramUnit
  host : HostIf
  cn : ChainUnit
  ck : CheckUnit
  pt : PeatUnit
  ras : List RasRec
  replHist : List RasRec
  rs : RasUnit
  md : ModeUnit
  fuses : Fuses
  draws : Nat
  out : List Out
  deriving DecidableEq, Repr

/-- The machine right after a power-on reset (R458, R468, Table 20-7). -/
def State.reset : State where
  pending := []
  mode := .enumerate
  tb := TimeBase.reset
  tk := TickUnit.reset
  regs := []
  recs := []
  stage := []
  latch := []
  mem := []
  dram := []
  dramGen := 0
  threads := []
  cores := []
  fronds := []
  chans := []
  dlocks := []
  dlockHwm := 0
  touchedLocks := []
  touchedChans := []
  swapArm := none
  sw := Switch.reset
  tbl := TableUnit.reset
  sg := SigUnit.reset
  ct := StreamUnit.reset
  dc := DramUnit.reset
  host := HostIf.reset
  cn := ChainUnit.reset
  ck := CheckUnit.reset
  pt := PeatUnit.reset
  ras := []
  replHist := []
  rs := RasUnit.reset
  md := ModeUnit.reset
  fuses := Fuses.reset
  draws := 0
  out := []

end Sys2Proof.Machine
end

