-- ==== Sys2Proof/Machine/Ops.lean ====
section
/-! DEFINITION. The named operations every meaning is written with: threads, registers, memories, notifications,
instruction boundaries and FAULT. -/

namespace Sys2Proof.Machine

/-! ### Replicated units -/

/-- The frond of a thread (R5). -/
def tidF (t : Tid) : Nat := t.toNat / 128
/-- The core of a thread within its frond (R5). -/
def tidC (t : Tid) : Nat := t.toNat / 8 % 16
/-- The thread number within its core (R5). -/
def tidT (t : Tid) : Nat := t.toNat % 8
/-- The key of a thread's core: frond × 16 + core. -/
def coreKey (t : Tid) : Nat := t.toNat / 8
/-- The thread f.c.t. -/
def mkTid (f c t : Nat) : Tid := BitVec.ofNat 11 (f * 128 + c * 8 + t)
/-- The threads of a core. -/
def coreTids (k : Nat) : List Tid := (upTo 8).map (fun i => BitVec.ofNat 11 (k * 8 + i))
/-- The threads of a frond. -/
def frondTids (f : Nat) : List Tid := (upTo 128).map (fun i => BitVec.ofNat 11 (f * 128 + i))
/-- Every thread of the device. -/
def allTids : List Tid := (upTo 2048).map (fun i => BitVec.ofNat 11 i)

/-- A thread's state. -/
def State.thr (s : State) (t : Tid) : Thread := Sparse.get (fun _ => Thread.reset) s.threads t.toNat
/-- Writes a thread's state. -/
def State.setThr (s : State) (t : Tid) (th : Thread) : State :=
  { s with threads := Sparse.set (fun _ => Thread.reset) s.threads t.toNat th }
/-- Changes a thread's state. -/
def State.modThr (s : State) (t : Tid) (f : Thread → Thread) : State := s.setThr t (f (s.thr t))

/-- A core's state, by frond × 16 + core. -/
def State.core (s : State) (k : Nat) : CoreUnit := Sparse.get (fun _ => CoreUnit.reset) s.cores k
/-- Writes a core's state. -/
def State.setCore (s : State) (k : Nat) (c : CoreUnit) : State :=
  { s with cores := Sparse.set (fun _ => CoreUnit.reset) s.cores k c }

/-- A frond's state. -/
def State.frond (s : State) (f : Nat) : Frond := Sparse.get (fun _ => Frond.reset) s.fronds f
/-- Writes a frond's state. -/
def State.setFrond (s : State) (f : Nat) (fr : Frond) : State :=
  { s with fronds := Sparse.set (fun _ => Frond.reset) s.fronds f fr }
/-- Changes a frond's state. -/
def State.modFrond (s : State) (f : Nat) (g : Frond → Frond) : State := s.setFrond f (g (s.frond f))

/-- A channel's state: frond f channel c at f × 64 + c, device channel d at 1,024 + d. -/
def State.chan (s : State) (k : Nat) : Channel := Sparse.get (fun _ => Channel.reset) s.chans k
/-- Writes a channel's state. -/
def State.setChan (s : State) (k : Nat) (c : Channel) : State :=
  { s with chans := Sparse.set (fun _ => Channel.reset) s.chans k c }

/-- A host ring. -/
def State.ring (s : State) (r : Nat) : Ring := Sparse.get (fun _ => Ring.reset) s.host.rings r
/-- Writes a host ring. -/
def State.setRing (s : State) (r : Nat) (x : Ring) : State :=
  { s with host.rings := Sparse.set (fun _ => Ring.reset) s.host.rings r x }

/-- A bulk channel. -/
def State.bulk (s : State) (c : Nat) : BulkChan := Sparse.get (fun _ => BulkChan.reset) s.host.chans c
/-- Writes a bulk channel. -/
def State.setBulk (s : State) (c : Nat) (x : BulkChan) : State :=
  { s with host.chans := Sparse.set (fun _ => BulkChan.reset) s.host.chans c x }

/-! ### Registers and window records -/

/-- The stored value of the register at a BAR0 offset. -/
def State.reg (s : State) (off : Nat) : Word := Sparse.get regReset s.regs off
/-- Stores a register's value. -/
def State.setReg (s : State) (off : Nat) (v : Word) : State := { s with regs := Sparse.set regReset s.regs off v }
/-- Field [hi:lo] of a register. -/
def State.regF (s : State) (off hi lo : Nat) : Nat := fld (s.reg off) hi lo
/-- Bit i of a register. -/
def State.regB (s : State) (off i : Nat) : Bool := bit (s.reg off) i
/-- Stores field [hi:lo] of a register. -/
def State.setRegF (s : State) (off hi lo v : Nat) : State := s.setReg off (setFld (s.reg off) hi lo v)
/-- Advances a 32-bit counter register, saturating. -/
def State.bump (s : State) (off : Nat) (n : Nat := 1) : State := s.setReg off (satFld (s.reg off) 31 0 n)
/-- Advances counter field [hi:lo] of a register, saturating. -/
def State.bumpF (s : State) (off hi lo : Nat) (n : Nat := 1) : State := s.setReg off (satFld (s.reg off) hi lo n)
/-- Advances a counter register that wraps. -/
def State.bumpWrap (s : State) (off : Nat) (n : Nat := 1) : State := s.setReg off (s.reg off + wd n)
/-- A 64-bit (or narrower) value held in two registers. -/
def State.reg64 (s : State) (lo hi : Nat) : Nat := (s.reg lo).toNat + 2 ^ 32 * (s.reg hi).toNat

/-- The window records of the device (R512), one key space: record kind, index, word. -/
inductive RecKind where
  | rule | mcg | mcm | gcl | ctx | stream | filter | sgate | meter | frer | adapt
  | harvest | vote | pub | svc | policy | peat | client | dbg | xport
  deriving DecidableEq, Repr

/-- The number of a record kind in the key space. -/
def RecKind.num : RecKind → Nat
  | .rule => 0 | .mcg => 1 | .mcm => 2 | .gcl => 3 | .ctx => 4 | .stream => 5 | .filter => 6 | .sgate => 7
  | .meter => 8 | .frer => 9 | .adapt => 10 | .harvest => 11 | .vote => 12 | .pub => 13 | .svc => 14
  | .policy => 15 | .peat => 16 | .client => 17 | .dbg => 18 | .xport => 19

/-- The key of word w of record i of a kind. -/
def recKey (k : RecKind) (i w : Nat) : Nat := (k.num * 2 ^ 20 + i) * 64 + w

/-- Word w of record i of a kind; a record nothing has committed reads 0. -/
def State.recW (s : State) (k : RecKind) (i w : Nat) : Word := Sparse.get (fun _ => 0) s.recs (recKey k i w)
/-- Field [hi:lo] of a record word. -/
def State.recF (s : State) (k : RecKind) (i w hi lo : Nat) : Nat := fld (s.recW k i w) hi lo
/-- Writes word w of record i of a kind. -/
def State.setRec (s : State) (k : RecKind) (i w : Nat) (v : Word) : State :=
  { s with recs := Sparse.set (fun _ => 0) s.recs (recKey k i w) v }
/-- Writes the words of record i of a kind from word w on. -/
def State.setRecs (s : State) (k : RecKind) (i : Nat) : Nat → List Word → State
  | _, [] => s
  | w, v :: vs => (s.setRec k i w v).setRecs k i (w + 1) vs

/-- The staged value of a window's data register, if written since its last commit or index write (R512). -/
def State.staged? (s : State) (off : Nat) : Option Word := Sparse.get (fun _ => none) s.stage off
/-- Stages a value in a window's data register. -/
def State.setStaged (s : State) (off : Nat) (v : Option Word) : State :=
  { s with stage := Sparse.set (fun _ => none) s.stage off v }
/-- Discards the staging of n data registers from offset `off` on. -/
def State.clearStage (s : State) (off n : Nat) : State :=
  { s with stage := Sparse.keep (fun k => decide (k < off) || decide (off + 4 * n ≤ k)) s.stage }
/-- The n words of a window as a commit would write them: the staged value, else the committed one (R512). -/
def State.windowWords (s : State) (k : RecKind) (i off n : Nat) : List Word :=
  (upTo n).map (fun w => (s.staged? (off + 4 * w)).getD (s.recW k i w))

/-! ### Free values -/

/-- Draws a fresh free value (what the spec leaves open) and advances the draw count. -/
def State.draw (s : State) : Word × State := (Config.freeWord s.draws, { s with draws := s.draws + 1 })

/-- n bytes that nothing fixes. -/
def State.freeBytes (s : State) : Nat → State × List Byte
  | 0 => (s, [])
  | n + 1 => let r := s.draw; let m := r.2.freeBytes n; (m.1, BitVec.ofNat 8 r.1.toNat :: m.2)

/-- Draws a fresh free 64-bit value. -/
def State.draw64 (s : State) : DWord × State :=
  let a := s.draw
  let b := a.2.draw
  (pair a.1 b.1, b.2)

/-! ### Outputs -/

/-- Sends something out of the device. -/
def State.emit (s : State) (o : Out) : State := { s with out := o :: s.out }

/-- The 48-bit tick number (R29). -/
def State.tick (s : State) : Nat := s.tk.number.toNat
/-- The low word of the tick number. -/
def State.tick32 (s : State) : Word := wd s.tick
/-- The time base in ns. -/
def State.now (s : State) : Nat := s.tb.now.toNat

/-- The most that a slew adds to one time-base clock, or takes from it, in units of 2^-40 ns (R22). -/
def State.slewCap (s : State) : Nat := s.regF Reg.PTP_SLEW 6 0 * 2 ^ 40 / 1000000

/-- What the slew in progress adds to one time-base clock (R22). -/
def State.slewStep (s : State) : Int := if s.tb.slew < 0 then max s.tb.slew (-s.slewCap) else min s.tb.slew s.slewCap

/-- The time-base clocks that a slew at its full rate needs to bring the time base to an instant (R21, R22). -/
def State.clocksTo (s : State) (at_ : DWord) : Nat :=
  let rate : Int := 2 ^ 40 + (s.reg Reg.PTP_FADJ).toInt + (if s.tb.slew < 0 then -s.slewCap else s.slewCap : Int)
  ceilDiv ((at_.toNat - s.tb.now.toNat) * 2 ^ 40 - s.tb.frac) (max 1 rate.toNat)

/-- What is left of a slew after n time-base clocks (R22). -/
def State.slewAfter (s : State) (n : Nat) : Int :=
  if s.tb.slew < 0 then min 0 (s.tb.slew + n * s.slewCap) else max 0 (s.tb.slew - n * s.slewCap)

/-- The instant of an event from outside: the time base has moved on to it, clock by clock (R21), so that the slew in progress has been
absorbed at its rate (R22). DESIGN CHOICE (log entry 6): an event stands at a whole nanosecond of the time base, so no fraction is left. -/
def State.advanceTo (s : State) (at_ : DWord) : State :=
  if s.tb.now < at_ then
    { s with tb := { s.tb with
      now := at_
      frac := 0
      slew := s.slewAfter (s.clocksTo at_) } }
  else s

/-! ### Device memory (Table 18-3) -/

/-- Where a device address lies. -/
inductive Region where
  | dram | shared (f : Nat) | iram (f c : Nat) (bankB : Bool) | dmem (f c : Nat)
  | common | signals | harvestMem | packet | rom | unmapped
  deriving DecidableEq, Repr

/-- The region of a device address (Table 18-3). DRAM stands for the whole range below 4 TiB; what of it is fitted
is the DRAM controller's to say. -/
def regionOf (a : Nat) : Region :=
  if a < 0x40000000000 then .dram
  else if 0x800000000000 ≤ a ∧ a < 0x800010000000 then
    let f := (a - 0x800000000000) / 0x1000000
    let o := a % 0x1000000
    if o < 0x100000 then .shared f
    else if 0x400000 ≤ o ∧ o < 0x400000 + 17 * 0x40000 then
      let c := (o - 0x400000) / 0x40000
      let p := (o - 0x400000) % 0x40000
      if p < 0x4000 then .iram f c false
      else if p < 0x8000 then .iram f c true
      else if 0x20000 ≤ p ∧ p < 0x30000 then .dmem f c
      else .unmapped
    else .unmapped
  else if 0x801000000000 ≤ a ∧ a < 0x801000800000 then .common
  else if 0x802000000000 ≤ a ∧ a < 0x802001000000 then .signals
  else if 0x803000000000 ≤ a ∧ a < 0x803000100000 then .harvestMem
  else if 0x804000000000 ≤ a ∧ a < 0x804008000000 then .packet
  else if 0x805000000000 ≤ a ∧ a < 0x805000400000 then .rom
  else .unmapped

/-- The key of the core that window c of frond f's RAMs reaches (Table 18-3): window 16 is the idle spare, and after a spare-in the failed
core. -/
def ramCore (f c : Nat) : Nat := if c < 16 then f * 16 + c else 256 + f
/-- The active I-RAM bank of the core behind a window. -/
def State.activeBank (s : State) (f c : Nat) : Bool := (s.core (ramCore f c)).bankB
/-- Does the range touch the active I-RAM bank of a core (R115)? -/
def State.inActive (s : State) (a n : Nat) : Bool :=
  let at_ (a : Nat) : Bool := match regionOf a with
    | .iram f c b => decide (b = s.activeBank f c)
    | _ => false
  at_ a || at_ (a + n - 1)

/-- The device address of frond f's shared memory. -/
def sharedBase (f : Nat) : Nat := 0x800000000000 + f * 0x1000000
/-- The device address of bank A (B) of a core's I-RAM. -/
def iramBase (f c : Nat) (bankB : Bool) : Nat :=
  0x800000400000 + f * 0x1000000 + c * 0x40000 + (if bankB then 0x4000 else 0)
/-- The device address of a core's D-RAM. -/
def dmemBase (f c : Nat) : Nat := 0x800000420000 + f * 0x1000000 + c * 0x40000
/-- The device address of common memory. -/
def commonBase : Nat := 0x801000000000

/-- A byte of the static memories: a byte nothing has written reads 0 (Table 20-7, D-RAM, frond and common memory
cleared at reset). -/
def State.sram (s : State) (a : Nat) : Byte := Sparse.get (fun _ => (0 : Byte)) s.mem a
/-- Writes a byte of the static memories. -/
def State.setSram (s : State) (a : Nat) (b : Byte) : State :=
  { s with mem := Sparse.set (fun _ => (0 : Byte)) s.mem a b }
/-- The capacity D of a DIMM in bytes. -/
def State.dimmBytes (s : State) : Nat := s.dc.board.gib * 2 ^ 30
/-- The fitted size F = 8 × K × D (R392). -/
def State.dramSize (s : State) : Nat := 8 * s.dc.board.dimms * s.dimmBytes
/-- The DIMM slot of an address. -/
def State.dramSlot (s : State) (a : Nat) : Nat := if a < 8 * s.dimmBytes then 0 else 1
/-- The offset O of an address in its slot region. -/
def State.dramOff (s : State) (a : Nat) : Nat := a - s.dramSlot a * (8 * s.dimmBytes)
/-- The group of an address. -/
def State.dramGroup (s : State) (a : Nat) : Nat := s.dramOff a / 2 ^ 12 % 2
/-- Does an address lie in a training area (R393)? -/
def State.trainingArea (s : State) (a : Nat) : Bool := decide (8 * s.dimmBytes - 0x100000 ≤ s.dramOff a)
/-- How often the content at a DRAM address was lost: with the device's power, with its keep unit's, by training. -/
def State.dramLost (s : State) (a : Nat) : List Nat :=
  let n (k : Nat) : Nat := Sparse.get (fun _ => 0) s.dc.gens k
  [s.dramGen, n (s.dramSlot a * 2 + s.dramGroup a), if s.trainingArea a then n 4 else 0]
/-- A byte of DRAM: the written one, else a free value for each time its content was lost (Table 20-7, R393, R410). -/
def State.dramB (s : State) (a : Nat) : Byte :=
  (Sparse.get (fun _ => none) s.dram a).getD (Config.dramByte (s.dramLost a) a)
/-- Writes a byte of DRAM. -/
def State.setDram (s : State) (a : Nat) (b : Byte) : State :=
  { s with dram := Sparse.set (fun _ => none) s.dram a (some b) }

/-- A signal entry. -/
def State.sig (s : State) (n : Nat) : Sig := Sparse.get (fun _ => { Sig.reset with old := s.sg.oldAll }) s.sg.entries n
/-- Writes a signal entry. -/
def State.setSig (s : State) (n : Nat) (e : Sig) : State :=
  { s with sg.entries := Sparse.set (fun _ => { Sig.reset with old := s.sg.oldAll }) s.sg.entries n e }
/-- Byte 27 of an entry: the FLAGS byte of Table 14-1. -/
def Sig.flags (e : Sig) : Nat :=
  e.type + (if e.valid then 4 else 0) + (if e.subst then 8 else 0) + (if e.staleChk then 16 else 0) + (if e.old then 32 else 0)
/-- The 32 bytes of an entry (Table 14-1). -/
def Sig.bytes (e : Sig) : List Byte :=
  leBytes 8 e.value.toNat ++ leBytes 8 e.prev.toNat ++ leBytes 8 e.ts.toNat
    ++ [BitVec.ofNat 8 (e.src * 16), e.prevQ, e.quality, BitVec.ofNat 8 e.flags]
    ++ leBytes 2 e.changes.toNat ++ leBytes 2 e.wtick.toNat

/-- The device address of the signal table. -/
def sigBase : Nat := 0x802000000000

/-- A byte of the packet buffer window: cell k of 256 bytes at 256 × k. -/
def State.cellByte (s : State) (o : Nat) : Byte :=
  let c := o / 256
  match s.sw.frames.find? (fun e => e.2.cells.contains c) with
  | some e => ((e.2.bytes)[e.2.cells.idxOf c * 256 + o % 256]?).getD (Config.cellByte o)
  | none => Config.cellByte o

/-- A byte at a device address: DRAM, the signal table, the packet buffer, the resident ROM image or static memory. -/
def State.byte (s : State) (a : Nat) : Byte :=
  if a < 0x40000000000 then s.dramB a
  else if sigBase ≤ a ∧ a < sigBase + 0x1000000 then nth 0 (s.sig ((a - sigBase) / 32)).bytes (a % 32)
  else if 0x804000000000 ≤ a ∧ a < 0x804008000000 then s.cellByte (a - 0x804000000000)
  else if 0x805000000000 ≤ a ∧ a < 0x805000400000 then Config.romByte (a - 0x805000000000)
  else s.sram a
/-- Writes a byte at a device address. -/
def State.setByte (s : State) (a : Nat) (b : Byte) : State :=
  if a < 0x40000000000 then s.setDram a b else s.setSram a b
/-- The n bytes from a device address on. -/
def State.bytes (s : State) (a n : Nat) : List Byte := (upTo n).map (fun i => s.byte (a + i))
/-- Writes bytes from a device address on. -/
def State.setBytes (s : State) : Nat → List Byte → State
  | _, [] => s
  | a, b :: bs => (s.setByte a b).setBytes (a + 1) bs
/-- The little-endian word at a device address. -/
def State.word (s : State) (a : Nat) : Word := wd (leNat (s.bytes a 4))
/-- Writes a little-endian word at a device address. -/
def State.setWord (s : State) (a : Nat) (v : Word) : State := s.setBytes a (leBytes 4 v.toNat)

/-! ### Notifications: rings, events, RAS log, violations -/

/-- Is ring r available (R435)? -/
def State.ringUp (s : State) (r : Nat) : Bool := s.regB (Reg.BLK_RNG_CFG r) 31 && s.host.bme && s.host.link
/-- The number of entries of ring r (R434). -/
def State.ringSize (s : State) (r : Nat) : Nat := 2 ^ s.regF (Reg.BLK_RNG_CFG r) 4 0
/-- Is ring r full: WR + 1 = RD modulo its size (R434)? -/
def State.ringFull (s : State) (r : Nat) : Bool :=
  (s.regF (Reg.BLK_RNG_WR r) 15 0 + 1) % s.ringSize r == s.regF (Reg.BLK_RNG_RD r) 15 0 % s.ringSize r
/-- The bytes of one entry of ring r (Table 18-5). -/
def ringEntrySize (r : Nat) : Nat := if r = 0 then 32 else if r = 3 then 64 else 16

/-- Writes an entry at index WR of an available ring that is not full and advances WR (R434 steps 1, 2). -/
def State.ringWrite (s : State) (r : Nat) (e : List Byte) : State :=
  let wr := s.regF (Reg.BLK_RNG_WR r) 15 0 % s.ringSize r
  let base := s.reg64 (Reg.BLK_RNG_BASE_LO r) (Reg.BLK_RNG_BASE_HI r)
  let s := s.emit (.hostWrite false (base + wr * ringEntrySize r) e)
  let s := s.setReg (Reg.BLK_RNG_WR r) (wd ((wr + 1) % s.ringSize r))
  s.setRing r { s.ring r with due := true }

/-- Can ring r take one more entry: written to the host, or held while the ring is unavailable (R434, R435)? -/
def State.ringRoom (s : State) (r : Nat) : Bool :=
  if s.ringUp r then (s.ring r).held.isEmpty && !s.ringFull r || ((s.ring r).held.length < 256 && !(s.ring r).held.isEmpty)
  else decide ((s.ring r).held.length < 256)

/-- Posts an entry to ring r; `mk` makes it from the ring's sequence number. An entry that finds neither the ring nor
the hold queue with room changes nothing (its ring's own rule of Table 18-5 is applied by the caller). -/
def State.ringPost (s : State) (r : Nat) (mk : Word → List Byte) : State :=
  if s.ringRoom r then
    let x := s.ring r
    let e := mk x.seq
    let s := s.setRing r { x with seq := x.seq + 1 }
    if s.ringUp r && x.held.isEmpty then s.ringWrite r e
    else s.setRing r { s.ring r with held := x.held ++ [e] }
  else s

/-- Writes held entries of an available ring, in order, while it has room (R435). -/
def State.ringDrainHeld (s : State) (r : Nat) : Nat → State
  | 0 => s
  | n + 1 =>
    match (s.ring r).held with
    | [] => s
    | e :: rest =>
      if s.ringUp r && !s.ringFull r then
        ((s.setRing r { s.ring r with held := rest }).ringWrite r e).ringDrainHeld r n
      else s

/-- Posts an entry to the event ring in the layout of Table 18-6 (R436); one that finds no room is counted. -/
def State.postEvent (s : State) (type code : Nat) (object object2 : Word) : State :=
  if s.ringRoom 0 then
    s.ringPost 0 (fun seq => [wd (type + 256 * code), object, object2, s.tick32, lo32 s.tb.now, hi32 s.tb.now, seq, 0].flatMap
      (fun w => leBytes 4 w.toNat))
  else s.bump (Reg.BLK_RNG_LOST 0)

/-- A vector of the MSI-X table. -/
def State.msixVec (s : State) (v : Nat) : MsixVec := Sparse.get (fun _ => MsixVec.reset) s.host.msi.vectors v

/-- May a vector's message be sent: neither the vector nor the function is masked? -/
def State.msixOpen (s : State) (v : Nat) : Bool := !s.host.msi.mask && !(s.msixVec v).masked

/-- Signals an MSI-X vector (R437): while MSI-X is enabled its message is sent, or its pending bit is set where it is masked; without a
link or Bus Master Enable no message can be. -/
def State.msix (s : State) (v : Nat) : State :=
  let m := s.host.msi
  if !m.on then s
  else if s.msixOpen v then (if s.host.link && s.host.bme then s.emit (.msix v (s.msixVec v).addr (s.msixVec v).data) else s)
  else { s with host.msi := { m with pending := insNat m.pending v } }

/-- Sends the pending messages that nothing masks any longer. -/
def State.msixFlush (s : State) : State :=
  if s.host.msi.on then
    let l := s.host.msi.pending.filter (fun v => s.msixOpen v)
    let s := { s with host.msi := { s.host.msi with pending := s.host.msi.pending.filter (fun v => !s.msixOpen v) } }
    l.foldl (fun s v => s.msix v) s
  else s

/-- Is DEV_ALERT_N low: an unread record of severity error or replace, or a replace reason (R486)? -/
def State.alert (s : State) : Bool := s.ras.any (fun r => decide (1 ≤ r.severity)) || s.reg Reg.RAS_REPLACE != 0

/-- Drives DEV_ALERT_N by the rule of R486 after a change from a state in which it was `was`. -/
def State.alertPin (s : State) (was : Bool) : State :=
  if s.alert = was then s else s.emit (.pin "DEV_ALERT_N" (!s.alert))

/-- Writes a RAS event: the log record, the event-ring entry of type 14, MSI-X vector 18 and DEV_ALERT_N (R486). -/
def State.rasEvent (s : State) (code : Nat) (object object2 : Word) (severity : Nat) : State :=
  let was := s.alert
  let s :=
    if s.ras.length < 64 then
      { s with ras := s.ras ++ [⟨code, object, object2, severity, s.tick32, lo32 s.tb.now⟩] }
    else s.bump Reg.RAS_LOGLOST
  let s := s.postEvent 14 code object object2
  let s := if 1 ≤ severity then s.msix 18 else s
  s.alertPin was

/-- Logs a partner violation, at most once per tick for a kind and object (R487). -/
def State.partner (s : State) (kind obj obj2 : Nat) : State :=
  let k := kind * 4096 + obj
  if s.sw.violated.contains k then s
  else { s.rasEvent 12 (wd kind) (wd obj2) 0 with sw.violated := k :: s.sw.violated }

/-- Records a host protocol violation (R441). -/
def State.violate (s : State) (cause : Nat) (addr : Nat) (value : Word) : State :=
  let s := s.bump Reg.BLK_VIOL_CNT
  if s.host.viol.length < 16 then { s with host.viol := s.host.viol ++ [⟨cause, wd addr, value⟩] } else s

/-- A write that a rule calls ignored, or refused, and logged with address and value, for a reason that Table 18-9 does not list:
it is recorded as a violation under a free cause code. -/
def State.refuse (s : State) (addr : Nat) (value : Word) : State :=
  let r := s.draw
  r.2.violate (fld r.1 7 0) addr value

/-- A write to a core's active I-RAM bank is refused and logged with address and source (R115). DESIGN CHOICE (log entry 39): the record's
value names the source, a thread by its number, and the host by bit 31 with the number of its tag or channel. -/
def State.iramRefused (s : State) (addr : Nat) (source : Word) : State := s.refuse addr source

/-! ### Thread address view (Table 03-3) -/

/-- The ranges of the thread address view. -/
inductive VRange where
  | dmem | shared | common | special
  deriving DecidableEq, Repr

/-- The range a thread-view byte lies in (R56). -/
def viewRange (a : Nat) : Option VRange :=
  if a < 0x10000 then some .dmem
  else if 0x100000 ≤ a ∧ a < 0x200000 then some .shared
  else if 0x1000000 ≤ a ∧ a < 0x1800000 then some .common
  else if 0xF000000 ≤ a ∧ a < 0xF010000 then some .special
  else none

/-- The device address of a thread-view byte of D-RAM, frond shared memory or common memory. -/
def viewDev (t : Tid) (a : Nat) : Nat :=
  match viewRange a with
  | some .dmem => dmemBase (tidF t) (tidC t) + a
  | some .shared => sharedBase (tidF t) + (a - 0x100000)
  | some .common => commonBase + (a - 0x1000000)
  | _ => 0

/-- May thread number `n` of a core store to D-RAM byte a (R57, Table 03-4)? -/
def dmemStoreOk (n a : Nat) : Bool :=
  if a < 0xC000 then true
  else if a < 0xD400 then
    let own := (a - 0xC000) / 0x280
    let o := (a - 0xC000) % 0x140
    decide (own = n) && decide (0x40 ≤ o)
  else false

/-- May a thread access byte a of its view, storing or loading (R56, R57)? -/
def viewOk (t : Tid) (store : Bool) (a : Nat) : Bool :=
  match viewRange a with
  | none => false
  | some .dmem => !store || dmemStoreOk (tidT t) a
  | some _ => true

/-- All of the n bytes from a on lie in one range of the view and may be accessed. -/
def viewSpanOk (t : Tid) (store : Bool) (a n : Nat) : Bool :=
  (upTo n).all (fun i => viewOk t store (a + i) && decide (viewRange (a + i) = viewRange a))

/-- The check of R130: the first byte of the half of an access that fails, or none. Each half of an access that
crosses an 8-byte boundary is checked; the window admits only aligned words (R58). -/
def accessFail (t : Tid) (store : Bool) (ea : Word) (len : Nat) : Option Word :=
  let a := ea.toNat
  let n1 := min len (8 - a % 8)
  let a2 := (a + n1) % 2 ^ 32
  if viewRange a = some .special then
    if len = 4 ∧ a % 4 = 0 then none else some ea
  else if !viewSpanOk t store a n1 then some ea
  else if n1 < len ∧ !viewSpanOk t store a2 (len - n1) then some (wd a2)
  else if n1 < len ∧ viewRange a2 ≠ viewRange a then some (wd a2)
  else none

/-! ### Instruction boundaries -/

/-- Does the mode let threads run (Table 20-1)? -/
def Mode.threadsRun : Mode → Bool
  | .enumerate => false
  | .keep => false
  | _ => true

/-- The lowest-numbered pending enabled event of 1–15, if any (R132). -/
def Thread.pendingEvent (th : Thread) : Option Nat :=
  (upTo 16).find? (fun n => decide (1 ≤ n) && (th.evpend &&& th.evmask).getLsbD n)

/-- Is a handler running (STATUS.EVACT)? -/
def Thread.inHandler (th : Thread) : Bool := th.handler.isSome || th.faultFrame.isSome

/-- May the thread issue an instruction: it runs, is not halted or about to halt, its core is not fenced, and no
enabled event is to be taken first (R132, R201, R490)? -/
def State.canIssue (s : State) (t : Tid) : Bool :=
  let th := s.thr t
  s.mode.threadsRun && decide (th.role ≠ .idle) && decide (th.run = .running) && !th.halted && !th.haltReq
    && !(s.core (coreKey t)).fenced && !(s.frond (tidF t)).fenced && !(s.frond (tidF t)).gated
    && (th.inHandler || th.pendingEvent.isNone)

/-- Does a loop body fit the 64-byte loop buffer (R65, R119)? -/
def Loop.short (l : Loop) : Bool := decide (l.stop - l.start.toNat ≤ 32)

/-- Does the buffer hold the body of a loop? -/
def Buffered.is (b : Buffered) (l : Loop) : Bool := decide (b.start = l.start ∧ b.stop = l.stop)

/-- Does the loop buffer hold the body of one of these loops? -/
def holdsOne (held : Option Buffered) (ls : List Loop) : Bool :=
  match held with
  | some b => ls.any (fun l => b.is l)
  | none => false

/-- What the loop buffer takes in for the active loops, innermost first: the outermost body that fits (R120). -/
def refill (ls : List Loop) : Option Buffered := (ls.reverse.find? (fun l => l.short)).map (fun l => ⟨l.start, l.stop, false⟩)

/-- The slots that the closing branch of loop l costs, where `ls` are the active loops with l, and the loop buffer behind it: a body of more
than 32 halfwords runs from I-RAM and closes with a taken branch (R65, R118); a shorter one closes without cost while the buffer holds
it or the body around it (R120), and for 2 slots, with the buffer refilled, after a handler took the buffer over (R122). -/
def closing (held : Option Buffered) (l : Loop) (ls : List Loop) : Nat × Option Buffered :=
  if !l.short then (2, held)
  else if holdsOne held ls then (0, held.map (fun b => { b with again := true }))
  else (2, refill ls)

/-- Where a thread goes on: its active loops, its pc, the slots that a closing branch costs, and its loop buffer. -/
structure Goes where
  loops : List Loop
  pc : Pc
  cost : Nat
  held : Option Buffered

/-- Where execution continues after an instruction whose next halfword is `pc`: the end of a loop body closes the
loops that end there, the inner first (R62, R64). -/
def closeLoops (held : Option Buffered) : List Loop → Nat → Goes
  | [], pc => ⟨[], BitVec.ofNat 13 pc, 0, held⟩
  | l :: ls, pc =>
    if l.stop = pc then
      if l.left = 0 then closeLoops held ls pc
      else ⟨{ l with left := l.left - 1 } :: ls, l.start, (closing held l (l :: ls)).1, (closing held l (l :: ls)).2⟩
    else ⟨l :: ls, BitVec.ofNat 13 pc, 0, held⟩

/-- The thread after reaching halfword address `pc` in sequence. -/
def Thread.goSeq (th : Thread) (pc : Nat) : Thread :=
  let r := closeLoops th.held th.loops pc
  { th with loops := r.loops, pc := r.pc, held := r.held }

/-- The slots that a closing branch adds when a thread reaches halfword address `pc` in sequence (R77, R90). -/
def Thread.seqCost (th : Thread) (pc : Nat) : Nat := (closeLoops th.held th.loops pc).cost

/-- The thread after a taken branch to `pc`: a loop whose body holds the branch and ends at or before the target is released,
with the loops it encloses (R64). -/
def Thread.goJump (th : Thread) (pc : Nat) : Thread :=
  let leaves (l : Loop) : Bool :=
    decide (l.start.toNat ≤ th.pc.toNat) && decide (th.pc.toNat < l.stop) && decide (l.stop ≤ pc)
  { th with loops := th.loops.dropWhile leaves, pc := BitVec.ofNat 13 pc }

/-- The thread after one execution of an instruction of `len` halfwords: a repetition stays at its instruction while
executions are still to come (R67, R70), and otherwise the thread goes on in sequence. -/
def Thread.advance (th : Thread) (len : Nat) : Thread :=
  if th.repact then
    if 1 < th.repc then { th with repc := th.repc - 1 }
    else { th with repc := 0, repact := false }.goSeq (th.pc.toNat + len)
  else th.goSeq (th.pc.toNat + len)

/-- The slots that a closing branch adds to one execution of an instruction of `len` halfwords. -/
def Thread.stepCost (th : Thread) (len : Nat) : Nat :=
  if th.repact ∧ 1 < th.repc then 0 else th.seqCost (th.pc.toNat + len)

/-- Is the thread's run over, so that what it runs is a handler taken out of idleness (R93)? Its slots belong to no spore (R164). -/
def Thread.outOfRun (th : Thread) : Bool :=
  match th.frame with
  | some fr => fr.idle
  | none => false

/-- SLOTS advances by n guaranteed slots (R164). -/
def Thread.addSlots (th : Thread) (n : Nat) : Thread :=
  if th.outOfRun then th else { th with slots := satAdd 0xFFFFFFFF th.slots n }

/-- Does the thread, at its next instruction, run from its loop buffer (R119)? -/
def Thread.inBuffer (th : Thread) : Bool :=
  match th.held with
  | some b => b.again && th.loops.any (fun l => b.is l) && decide (b.start.toNat ≤ th.pc.toNat) && decide (th.pc.toNat < b.stop)
  | none => false

/-- Notes for R121 that a thread of the core fetches from I-RAM in this tick, unless t goes on from its loop buffer. -/
def State.noteFetch (s : State) (t : Tid) : State :=
  if (s.thr t).inBuffer then s else s.modFrond (tidF t) (fun fr => { fr with fetched := insNat fr.fetched (tidC t) })

/-- Thread t takes n of its slots: in strict mode all are guaranteed slots and count in SLOTS; in elastic mode lent slots are not counted
(R76, R164), and how many were lent is a free value. -/
def State.spend (s : State) (t : Tid) (n : Nat) : State :=
  let d := if (s.core (coreKey t)).elastic then (s.draw.1.toNat % (n + 1), s.draw.2) else (n, s)
  (d.2.modThr t (fun th => th.addSlots d.1)).noteFetch t

/-- The halfword at a halfword address of a thread's bank. -/
def State.code (s : State) (t : Tid) (pc : Pc) : Half :=
  let a := iramBase (tidF t) (tidC t) (s.thr t).bank + 2 * pc.toNat
  (s.sram (a + 1)) ++ (s.sram a)

/-- The handler address of event n: the halfword at EVBASE.BASE × 32 + 2n (Table 05-6). -/
def State.vector (s : State) (t : Tid) (n : Nat) : Pc :=
  let a := (fld (s.thr t).evbase 13 5) * 32 + 2 * n
  (s.code t (BitVec.ofNat 13 (a / 2))).truncate 13

/-- The hidden record of a thread as it stands (Table 05-6). -/
def Thread.record (th : Thread) : HFrame :=
  ⟨th.pc, if th.run = .idle then 0 else th.stack.length, th.callDepth, th.loops, th.repc, th.repact, decide (th.run = .idle)⟩

/-- The thread with loop and repeat state cleared for a handler (R66, R135). -/
def Thread.clearLoops (th : Thread) : Thread := { th with loops := [], repc := 0, repact := false }

/-- Takes event n of 1–15 (R132, R135): the pending bit clears, the hidden record is written, the handler begins. -/
def State.enterEvent (s : State) (t : Tid) (n : Nat) : State :=
  let th := s.thr t
  let th' := { th.clearLoops with
    evpend := th.evpend &&& ~~~(1#16 <<< n)
    frame := some th.record
    handler := some n
    stack := if th.run = .idle then [] else th.stack
    callDepth := th.callDepth
    run := .running
    skipBp := false
    pc := s.vector t n }
  (s.setThr t th').spend t 5

/-- Makes event n pending on a thread (Table 05-5). -/
def State.pend (s : State) (t : Tid) (n : Nat) : State :=
  s.modThr t (fun th => { th with evpend := th.evpend ||| (1#16 <<< n) })

/-- The FAULT causes of Table 05-9. -/
inductive Cause where
  | illegal | access | stackOver | stackUnder | callDepth | evretDepth | repMisuse | budgetHard | cqBadtag
  deriving DecidableEq, Repr

/-- The code of a cause (Table 05-9). -/
def Cause.code : Cause → Nat
  | .illegal => 1
  | .access => 2
  | .stackOver => 3
  | .stackUnder => 4
  | .callDepth => 5
  | .evretDepth => 6
  | .repMisuse => 7
  | .budgetHard => 8
  | .cqBadtag => 9

/-- The fault record of Table 05-10. -/
def faultRecord (th : Thread) (faults : Half) (cause : Cause) (addr tick : Word) : List Byte :=
  let ev := match th.handler with | some n => n | none => 0xFF
  leBytes 4 (cause.code + 256 * ev + 65536 * faults.toNat) ++
  leBytes 4 (th.pc.toNat + (if th.bank then 8192 else 0)) ++
  leBytes 4 (if cause = .access then addr.toNat else 0) ++ leBytes 4 tick.toNat

/-- Counts a FAULT of a thread in its core's registers: CORE_FAULT_CNT, CORE_FAULT_LAST0, CORE_FAULT_LAST1. -/
def State.countFault (s : State) (t : Tid) (cause : Cause) (addr : Word) : State :=
  let th := s.thr t
  let f := tidF t
  let c := tidC t
  let s := s.bump (Reg.CORE_FAULT_CNT f c)
  let s := s.setReg (Reg.CORE_FAULT_LAST0 f c) (wd (2 ^ 31 + (if th.bank then 2 ^ 30 else 0) + tidT t * 2 ^ 24
    + cause.code * 2 ^ 16 + th.pc.toNat))
  s.setReg (Reg.CORE_FAULT_LAST1 f c) (if cause = .access then addr else 0)

/-- Enters the FAULT handler in place of the faulting instruction's commit (R134, R135, R140). The FAULT record of the
hidden frame must be free; a double fault is the caller's. -/
def State.enterFault (s : State) (t : Tid) (cause : Cause) (addr : Word) : State :=
  let th := s.thr t
  let n := th.faults + 1
  let s := s.setBytes (dmemBase (tidF t) (tidC t) + 0xE600 + tidT t * 16) (faultRecord th n cause addr s.tick32)
  let s := s.countFault t cause addr
  let s := s.setThr t { th.clearLoops with
    faults := n
    faultFrame := some th.record
    run := .running
    pc := s.vector t 0 }
  s.spend t 5

/-- Halts a thread with a cause of DBG_TSTAT (R495, R497); a halt under the host's debug lock is the host's (R494). -/
def State.halt (s : State) (t : Tid) (cause : Nat) : State :=
  let host := decide (s.regF Reg.DBG_LOCK 9 8 = 1)
  s.modThr t (fun th => { th with
    halted := true
    haltReq := false
    stepping := false
    haltReason := cause
    haltHost := host
    skipBp := decide (cause = 2) })

/-- A halted thread continues from its boundary; the instruction that a breakpoint stopped is not stopped again (R496). -/
def State.unhalt (s : State) (t : Tid) : State :=
  s.modThr t (fun th => { th with halted := false, haltHost := false, haltReason := 0 })

/-- What an instruction boundary brings before the next instruction: a requested halt with its cause, or the halt that ends a
step (R495 to R497). -/
def State.boundary (s : State) (t : Tid) : State :=
  let th := s.thr t
  if th.haltReq then s.halt t th.haltReason
  else if th.stepping then s.halt t 5
  else s

/-- The slots that pass while a thread waits count in SLOTS (R164): a free number of them, up to what the rules allow the wait. -/
def State.spendWait (s : State) (t : Tid) : State :=
  let d := s.draw
  d.2.modThr t (fun th => th.addSlots (d.1.toNat % (th.waitMost + 1)))

/-- Ends a wait of a thread: pushes `res` (top first), and the thread goes on after the waiting instruction. -/
def State.finishWait (s : State) (t : Tid) (res : List Word) : State :=
  let s := s.spendWait t
  let th := s.thr t
  let next := th.pc.toNat + th.waitLen
  let s := s.modThr t (fun th => { th with stack := res ++ th.stack, run := .running, popped := [] }.goSeq next)
  (s.spend t (th.seqCost next)).boundary t

/-- The index of the copy at `off` of a register at `base` with n copies `st` apart. -/
def idxOf (off base n st : Nat) : Option Nat :=
  if base ≤ off ∧ (off - base) % st = 0 ∧ (off - base) / st < n then some ((off - base) / st) else none

end Sys2Proof.Machine
end

