-- ==== Sys2Proof/Machine/Streams.lean ====
section
/-! DEFINITION. The ingress functions of the control-stream unit (R322 to R335, R338): measurement, admission, filters, gates,
meters, FRER recovery and RX path selection. -/

namespace Sys2Proof.Machine

/-! ### Records -/

/-- Field [hi:lo] of word w of a stream record (Table 13-2). -/
def State.strF (s : State) (h w hi lo : Nat) : Nat := s.recF .stream h w hi lo

/-- A gate's state. -/
def State.sgate (s : State) (g : Nat) : SGate := Sparse.get (fun _ => SGate.reset) s.ct.gates g
/-- Writes a gate's state. -/
def State.setSgate (s : State) (g : Nat) (x : SGate) : State :=
  { s with ct.gates := Sparse.set (fun _ => SGate.reset) s.ct.gates g x }
/-- The record index of entry e of a bank of a gate. -/
def sgIndex (g : Nat) (bankB : Bool) (e : Nat) : Nat := ((if bankB then 1024 else 0) + g) * 16 + e

/-- A FRER record's state. -/
def State.frer (s : State) (r : Nat) : Frer := Sparse.get (fun _ => Frer.reset) s.ct.frer r
/-- Writes a FRER record's state. -/
def State.setFrer (s : State) (r : Nat) (x : Frer) : State :=
  { s with ct.frer := Sparse.set (fun _ => Frer.reset) s.ct.frer r x }

/-- An adaptation record's state. -/
def State.adapt (s : State) (a : Nat) : Adapt := Sparse.get (fun _ => Adapt.reset) s.ct.adapt a
/-- Writes an adaptation record's state. -/
def State.setAdapt (s : State) (a : Nat) (x : Adapt) : State :=
  { s with ct.adapt := Sparse.set (fun _ => Adapt.reset) s.ct.adapt a x }

/-- Is an adaptation record VALID? -/
def State.adpValid (s : State) (a : Nat) : Bool := bit (s.recW .adapt a 0) 0
/-- Does it serve transmission (DIR)? -/
def State.adpTx (s : State) (a : Nat) : Bool := bit (s.recW .adapt a 0) 1
/-- Is it in SELECT mode? -/
def State.adpSelect (s : State) (a : Nat) : Bool := bit (s.recW .adapt a 0) 2
/-- Its number of paths. -/
def State.adpPaths (s : State) (a : Nat) : Nat := s.recF .adapt a 0 4 3 + 1
/-- Its number of copies. -/
def State.adpCopies (s : State) (a : Nat) : Nat := s.recF .adapt a 0 6 5 + 1
/-- Word 4 + 2k of path k. -/
def State.adpPath (s : State) (a k : Nat) : Word := s.recW .adapt a (4 + 2 * k)

/-- Counts one frame at counter j of a filter. -/
def State.countFilter (s : State) (f j : Nat) : State :=
  let k := f * 8 + j
  { s with ct.fcnt := Sparse.set (fun _ => 0) s.ct.fcnt k (satAdd 0xFFFFFFFF (Sparse.get (fun _ => 0) s.ct.fcnt k) 1) }

/-- Counts at counter j of a FRER record. -/
def Frer.count (x : Frer) (j : Nat) (n : Nat := 1) : Frer :=
  { x with counts := setNth x.counts j (satAdd 0xFFFFFFFF (nth 0 x.counts j) n) }

/-! ### Step 1: receive measurement (R335) -/

/-- The boundary at or before an instant: the newest whose time is not after it, or time 0 before any. -/
def State.boundaryAt (s : State) (t : DWord) : Nat :=
  match s.tk.history.find? (fun p => decide (p.1 ≤ t)) with
  | some p => p.1.toNat
  | none => 0

/-- The paths of an RX record that name a logical ingress port. -/
def State.rxPaths (s : State) (a lport : Nat) : List Nat :=
  (upTo (s.adpPaths a)).filter (fun k => decide (fld (s.adpPath a k) 11 0 = lport))

/-- Changes the measurement of a path in the tick in progress. -/
def State.modMeas (s : State) (a k : Nat) (f : Meas → Meas) : State :=
  let x := s.adapt a
  s.setAdapt a { x with cur := setNth x.cur k (f (nth Meas.reset x.cur k)) }

/-- The receive measurement of a frame on a stream's RX record. -/
def State.rxMeasure (s : State) (h lport : Nat) (arrival : DWord) : State :=
  let a := s.strF h 2 13 0
  if s.strF h 2 14 14 = 1 ∧ s.adpValid a ∧ !s.adpTx a then
    (s.rxPaths a lport).foldl (fun s k =>
      let l : Int := (arrival.toNat : Int) - s.boundaryAt arrival - (s.recW .adapt a (5 + 2 * k)).toNat
      s.modMeas a k (fun m => { m with
        frames := m.frames + 1
        late := some (match m.late with | some x => max x l | none => l) })) s
  else s

/-- Counts a duplicate or rogue on the RX paths a frame came by; that of a port which is no path counts on the active path of slot 0 (DESIGN
CHOICE, log entry 46). -/
def State.rxBad (s : State) (h lport : Nat) (rogue : Bool) : State :=
  let a := s.strF h 2 13 0
  if s.strF h 2 14 14 = 1 ∧ s.adpValid a ∧ !s.adpTx a then
    let l := s.rxPaths a lport
    (if l.isEmpty then [nth 0 (s.adapt a).active 0] else l).foldl (fun s k =>
      s.modMeas a k (fun m => if rogue then { m with rogues := m.rogues + 1 } else { m with dups := m.dups + 1 })) s
  else s

/-! ### Step 2: admission (R325) -/

/-- The admission check and the frames-per-tick cap for a frame with a stream hit: the state and whether it passes. -/
def State.ledgerAdmit (s : State) (hit : Bool) (h family entry : Nat) : State × Bool :=
  let fpt := if hit then s.strF h 1 31 16 else 0
  let strict := s.regB Reg.CTL_CFG 1
  if strict ∧ family = 0 ∧ (!hit ∨ fpt = 0 ∨ s.strF h 1 15 8 ≠ entry) then (s.bump Reg.CTL_UNADMITTED, false)
  else if hit ∧ 0 < fpt then
    let n := Sparse.get (fun _ => 0) s.ct.fpt h
    if n < fpt then ({ s with ct.fpt := Sparse.set (fun _ => 0) s.ct.fpt h (n + 1) }, true)
    else (s.bump Reg.CTL_FPT_DROP, false)
  else (s, true)

/-! ### Step 3: filter, gate, meter (R326 to R329) -/

/-- The entry running at offset `o` of a cycle over the intervals; the last entry holds (R290). -/
def runningEntry : List Nat → Nat → Nat → Nat
  | [], _, i => i
  | [_], _, i => i
  | d :: ds, o, i => if o < d then i else runningEntry ds (o - d) (i + 1)

/-- What a gate follows now: the active bank and its multiplier. -/
def State.sgateProg (s : State) (g : Nat) : SProg :=
  let x := s.sgate g
  ⟨x.mult, (upTo (if x.bankB then x.lenB else x.lenA)).map (fun e =>
    (s.recW .sgate (sgIndex g x.bankB e) 0, (s.recW .sgate (sgIndex g x.bankB e) 1).toNat))⟩

/-- What a gate followed at an instant (R327): what the first change after it replaced, if one came. -/
def State.sgateAt (s : State) (g : Nat) (t : DWord) : SProg :=
  match (s.sgate g).past.reverse.find? (fun p => decide (t < p.1)) with
  | some p => p.2
  | none => s.sgateProg g

/-- Keeps what a gate followed until an instant, before that changes. -/
def State.keepSgate (s : State) (g : Nat) (t : DWord) : State :=
  let x := s.sgate g
  s.setSgate g { x with past := (t, s.sgateProg g) :: x.past }

/-- Word 0 of the entry that judged a gate at an instant, none before its first cycle start. -/
def State.gateWord (s : State) (g : Nat) (t : DWord) : Option Word :=
  let x := s.sgateAt g t
  match s.tk.history.find? (fun p => decide (p.1 ≤ t) && decide (p.2 % (x.mult + 1) = 0)) with
  | none => none
  | some p => some (nth (0, 0) x.entries (runningEntry (x.entries.map (fun e => e.2)) (t.toNat - p.1.toNat) 0)).1

/-- The gate's verdict on a frame: the state, whether it passes, and the IPV that replaces its TC. Before the gate's first
cycle start the spec gives no gate state: its word is a free value. -/
def State.gateCheck (s : State) (g : Nat) (arrival : DWord) : State × Bool × Option Nat :=
  let (w, s) : Word × State := match s.gateWord g arrival with
    | some w => (w, s)
    | none => s.draw
  let x := s.sgate g
  if x.invrx ∨ !bit w 0 then
    (s.setSgate g { x with invrx := x.invrx || x.invrxEn }, false, none)
  else (s, true, if bit w 4 then some (fld w 3 1) else none)

/-- The colour of a frame of n bytes at an instant (R329): 0 green, 1 yellow, 2 red. -/
def State.meterCheck (s : State) (m n : Nat) (t : DWord) : State × Nat :=
  let x := Sparse.get (fun _ => Meter.reset) s.ct.meters m
  let unit := 8000000
  let dt := t.toNat - x.at_.toNat
  let cir := (s.recW .meter m 0).toNat
  let eir := (s.recW .meter m 1).toNat
  let cbs := (s.recW .meter m 2).toNat * unit
  let ebs := (s.recW .meter m 3).toNat * unit
  let w4 := s.recW .meter m 4
  let c := x.c + cir * dt
  let spill := if bit w4 0 then c - cbs else 0
  let c := min c cbs
  let e := min (x.e + eir * dt + spill) ebs
  let len := n * unit
  let at_ := if x.at_ < t then t else x.at_
  let put (s : State) (y : Meter) : State := { s with ct.meters := Sparse.set (fun _ => Meter.reset) s.ct.meters m y }
  if bit w4 3 then (put s ⟨c, e, at_⟩, 2)
  else if len ≤ c then (put s ⟨c - len, e, at_⟩, 0)
  else if len ≤ e then (put s ⟨c, e - len, at_⟩, 1)
  else
    let s := put s ⟨c, e, at_⟩
    (if bit w4 2 then s.setRec .meter m 4 (setBit w4 3 true) else s, 2)

/-- The stream filter of a frame (R326): the state, whether it passes, and a replacement TC. `n` is LENGTH + 4. -/
def State.filterCheck (s : State) (h iprio n : Nat) (arrival : DWord) : State × Bool × Option Nat :=
  if s.strF h 0 12 12 = 0 then (s, true, none)
  else
    let f := s.strF h 0 11 0
    let w0 := s.recW .filter f 0
    let w1 := s.recW .filter f 1
    if !bit w0 3 ∧ fld w0 2 0 ≠ iprio then (s, true, none)
    else
      let s := s.countFilter f 0
      if bit w0 7 then (s, false, none)
      else if fld w1 29 16 ≠ 0 ∧ fld w1 29 16 < n then
        let s := s.countFilter f 2
        (if bit w0 6 then s.setRec .filter f 0 (setBit w0 7 true) else s, false, none)
      else
        let r : State × Bool × Option Nat := if bit w0 4 then s.gateCheck (fld w0 25 16) arrival else (s, true, none)
        if !r.2.1 then (r.1.countFilter f 3, false, none)
        else if bit w0 5 then
          let m := fld w1 11 0
          let c := r.1.meterCheck m n arrival
          if c.2 = 2 then (c.1.countFilter f 4, false, none)
          else if c.2 = 1 ∧ bit (s.recW .meter m 4) 1 then (c.1, false, none)
          else (c.1.countFilter f 1, true, r.2.2)
        else (r.1.countFilter f 1, true, r.2.2)

/-! ### Step 4: sequence recovery (R331) -/

/-- Shifts one position into the history; a position that leaves unseen is lost. -/
def Frer.shift (x : Frer) (len : Nat) (seen : Bool) : Frer :=
  let x := if x.hist.getLsbD (len - 1) then x else x.count 4
  let h := (x.hist <<< 1) ||| (if seen then 1 else 0)
  { x with hist := h &&& BitVec.ofNat 128 (2 ^ len - 1) }

/-- Shifts n unseen positions into the history. -/
def Frer.shifts (x : Frer) (len : Nat) : Nat → Frer
  | 0 => x
  | n + 1 => (x.shift len false).shifts len n

/-- A frame passes recovery. -/
def Frer.pass (x : Frer) : Frer := { x.count 0 with idle := 0, seen := true, passed := x.passed + 1 }
/-- A frame is discarded by recovery. -/
def Frer.discard (x : Frer) : Frer := { x.count 1 with discarded := x.discarded + 1 }

/-- The vector recovery algorithm of IEEE 802.1CB on a sequence number: the record, and 0 passed, 1 duplicate, 2 rogue. -/
def Frer.vector (x : Frer) (len seq : Nat) : Frer × Nat :=
  if x.takeAny then ({ x.pass with takeAny := false, hist := 1, recov := seq }, 0)
  else
    let d := sInt 16 ((seq + 65536 - x.recov) % 65536)
    if (len : Int) ≤ d ∨ d ≤ -(len : Int) then ((x.count 3).discard, 2)
    else if d ≤ 0 then
      let i := (-d).toNat
      if x.hist.getLsbD i then (x.discard, 1)
      else ({ x.count 2 with hist := x.hist ||| BitVec.ofNat 128 (2 ^ i) }.pass, 0)
    else
      let x := if d = 1 then x else x.count 2
      let x := (x.shifts len (d.toNat - 1)).shift len true
      ({ x with recov := seq }.pass, 0)

/-- Sequence recovery of a frame of handle h from a logical port: the R-TAG's sequence number if level 1 carries one. -/
def State.recover (s : State) (h lport pport : Nat) (rtag : Option Nat) : State × Bool :=
  if s.strF h 1 0 0 = 1 ∧ s.strF h 1 1 1 = 1 then
    let r := s.strF h 0 31 16
    let w0 := s.recW .frer r 0
    let x := s.frer r
    match rtag with
    | none =>
      if bit w0 7 then (s.setFrer r (x.count 5).pass, true) else (s.setFrer r (x.count 5).discard, false)
    | some q =>
      let y := x.vector (fld w0 6 0 + 1) q
      let s := s.setFrer r y.1
      if y.2 = 0 then (s, true)
      else if y.2 = 1 then (s.rxBad h lport false, false)
      else ((s.rxBad h lport true).partner 6 pport pport, false)
  else (s, true)

/-! ### Step 5: RX path selection (R338), and the whole of Table 13-1 -/

/-- Does the RX record of a stream let a frame from a logical port pass? -/
def State.rxSelect (s : State) (h lport : Nat) : Bool :=
  let a := s.strF h 2 13 0
  if s.strF h 2 14 14 = 1 ∧ s.adpValid a ∧ !s.adpTx a ∧ s.adpSelect a then
    decide (fld (s.adpPath a (nth 0 (s.adapt a).active 0)) 11 0 = lport)
  else true

/-- What the stream steps read of a frame. -/
structure StreamIn where
  hit : Bool
  handle : Nat
  family : Nat
  entry : Nat
  lport : Nat
  pport : Nat
  iprio : Nat
  len : Nat
  arrival : DWord
  rtag : Option Nat
  deriving DecidableEq, Repr

/-- The stream steps of a frame (Table 13-1): the state, whether the frame goes on, and a replacement TC. A frame without a hit
passes only the admission check of R325. -/
def State.streamSteps (s : State) (f : StreamIn) : State × Bool × Option Nat :=
  if !s.regB Reg.CTL_CFG 0 then (s, true, none)
  else if !f.hit then
    let r := s.ledgerAdmit false 0 f.family f.entry
    (r.1, r.2, none)
  else
    let s := s.rxMeasure f.handle f.lport f.arrival
    let r := s.ledgerAdmit true f.handle f.family f.entry
    if !r.2 then (r.1, false, none)
    else
      let r := r.1.filterCheck f.handle f.iprio (f.len + 4) f.arrival
      if !r.2.1 then (r.1, false, none)
      else
        let v := r.1.recover f.handle f.lport f.pport f.rtag
        if !v.2 then (v.1, false, none)
        else if v.1.rxSelect f.handle f.lport then (v.1, true, r.2.2)
        else
          let s := v.1
          let k := s.strF f.handle 0 31 16
          let s := if s.strF f.handle 1 0 0 = 1 then s.setFrer k (s.frer k).discard else s
          (s.rxBad f.handle f.lport false, false, none)

end Sys2Proof.Machine
end

