-- ==== Sys2Proof/Machine/Crc.lean ====
section
/-! DEFINITION. The check values of Table 17-1 (R412, R413), computed piece by piece. -/

namespace Sys2Proof.Machine

/-- The low n bits of a number in reverse order. -/
def reflect : Nat → Nat → Nat
  | 0, _ => 0
  | n + 1, v => v % 2 * 2 ^ n + reflect n (v / 2)

/-- The width of polynomial p. -/
def polyWidth (p : Nat) : Nat := nth 32 [32, 32, 64, 16] p
/-- Is polynomial p reflected? -/
def polyReflected (p : Nat) : Bool := decide (p < 2)
/-- The polynomial's bits, reversed for a reflected one. -/
def polyBits (p : Nat) : Nat := nth 0 [0xEDB88320, 0x82F63B78, 0x42F0E1EBA9EA3693, 0x1021] p

/-- n shifts of the register of a reflected polynomial, held reversed. -/
def reflShift (poly : Nat) : Nat → Nat → Nat
  | 0, c => c
  | n + 1, c => reflShift poly n (if c % 2 = 1 then Nat.xor (c / 2) poly else c / 2)

/-- n shifts of the register of a polynomial of width w that is not reflected. -/
def normShift (poly w : Nat) : Nat → Nat → Nat
  | 0, c => c
  | n + 1, c => normShift poly w n (if 2 ^ (w - 1) ≤ c then Nat.xor (c * 2 % 2 ^ w) poly else c * 2)

/-- The register after more bytes. -/
def crcFeed (p reg : Nat) (bs : List Byte) : Nat :=
  if polyReflected p then bs.foldl (fun c b => reflShift (polyBits p) 8 (Nat.xor c b.toNat)) reg
  else bs.foldl (fun c b => normShift (polyBits p) (polyWidth p) 8 (Nat.xor c (b.toNat * 2 ^ (polyWidth p - 8)))) reg

/-- The folded guard F for a width (R413). -/
def foldGuard (w g : Nat) : Nat :=
  if w = 64 then g
  else if w = 32 then Nat.xor (bitsN g 31 0) (bitsN g 63 32)
  else Nat.xor (Nat.xor (bitsN g 15 0) (bitsN g 31 16)) (Nat.xor (bitsN g 47 32) (bitsN g 63 48))

/-- The register a job starts with: the seed XOR the folded guard; that of a reflected polynomial is held reversed. -/
def crcStart (p seed guard : Nat) : Nat :=
  let w := polyWidth p
  let r := Nat.xor (seed % 2 ^ w) (foldGuard w guard)
  if polyReflected p then reflect w r else r

/-- The value of a register after the last byte: the final XOR. -/
def crcFinish (p reg : Nat) : Nat := if polyReflected p then Nat.xor reg 0xFFFFFFFF else reg

/-- The check value of bytes. -/
def crcOf (p seed guard : Nat) (bs : List Byte) : Nat := crcFinish p (crcFeed p (crcStart p seed guard) bs)

/-- The CRC-32C of bytes from a seed, its initial register value (R412, R413). -/
def seededCrc (seed : Nat) (bs : List Byte) : Nat := crcOf 1 seed 0 bs

end Sys2Proof.Machine
end

