-- ==== Sys2Proof/Machine/Sched.lean ====
section
/-! DEFINITION. The task scheduler of a frond (R186 to R196): task control blocks, ready lists, activation, dispatch,
preemption. -/

namespace Sys2Proof.Machine

/-- The scheduler's copy of task `id` of frond f. -/
def State.task (s : State) (f id : Nat) : Task := Sparse.get (fun _ => Task.reset) (s.frond f).tasks id

/-- The device address of a TCB (R186). -/
def State.tcbAddr (s : State) (f id : Nat) : Nat :=
  sharedBase f + s.regF (Reg.FRD_TSK_CFG f) 19 6 * 64 + id * 192

/-- The code of a task state (Table 07-4). -/
def TaskState.code : TaskState → Nat
  | .dormant => 0
  | .ready => 1
  | .running => 2
  | .sleeping => 3

/-- Word 0 of a TCB (Table 07-4). -/
def Task.head (k : Task) : Nat :=
  k.state.code + (if k.wake then 4 else 0) + (if k.tout then 8 else 0) + k.base * 16 + k.eff * 512
    + (if k.affine then 2 ^ 15 else 0) + k.thread.toNat * 2 ^ 16

/-- The 160-byte task context of Table 07-4. A loop's body end is held as its last halfword. -/
def Task.ctx (k : Task) : List Byte :=
  let lp (i : Nat) : Loop := nth ⟨0, 0, 1⟩ k.loops.reverse i
  let w := [k.pc.toNat + k.stack.length * 2 ^ 16 + k.loops.length * 2 ^ 21 + (if k.repact then 2 ^ 23 else 0), k.repc,
    (lp 0).left, (lp 0).start.toNat + ((lp 0).stop - 1) % 8192 * 2 ^ 16,
    (lp 1).left, (lp 1).start.toNat + ((lp 1).stop - 1) % 8192 * 2 ^ 16, k.evmask.toNat, k.budget.toNat]
  (w.flatMap (leBytes 4)) ++ (k.locals.toList.flatMap (fun x => leBytes 4 x.toNat))
    ++ ((upTo 16).flatMap (fun j => leBytes 4 (nth 0 k.stack.reverse j).toNat))

/-- Stores the scheduler's copy of a task and writes its TCB image (Table 07-4, R187): bytes 0 to 31 always, and the context unless
the task is DORMANT (thread software may then hold words of its own there). -/
def State.setTask (s : State) (f id : Nat) (k : Task) : State :=
  let s := s.modFrond f (fun fr => { fr with tasks := Sparse.set (fun _ => Task.reset) fr.tasks id k })
  let a := s.tcbAddr f id
  let s := s.setBytes a (leBytes 4 k.head ++ leBytes 28 k.entry.toNat)
  if k.state = .dormant then s else s.setBytes (a + 32) k.ctx

/-- Ready list l of frond f, oldest first. -/
def State.readyList (s : State) (f l : Nat) : List Nat := Sparse.get (fun _ => []) (s.frond f).ready l

/-- Replaces a ready list. -/
def State.setReadyList (s : State) (f l : Nat) (x : List Nat) : State :=
  s.modFrond f (fun fr => { fr with ready := Sparse.set (fun _ => []) fr.ready l x })

/-- The ready list of an effective priority: 32 stands in list 31 (R190). -/
def prioLevel (p : Nat) : Nat := min p 31

/-- Enqueues a task READY at the tail of its level; the level has room (R189). -/
def State.enqueue (s : State) (f id : Nat) (k : Task) : State :=
  let l := prioLevel k.eff
  let s := s.setReadyList f l (s.readyList f l ++ [id])
  s.setTask f id { k with state := .ready, level := l, since := s.tb.now, tout := false }

/-- Has level l of frond f room for one more entry (R189)? -/
def State.levelRoom (s : State) (f l : Nat) : Bool := decide ((s.readyList f l).length < 64)

/-- Is some TASK thread of frond f free (R194)? -/
def State.freeTaskThread (s : State) (f : Nat) : Bool :=
  (frondTids f).any (fun t => decide ((s.thr t).run = .free) && !(s.thr t).halted)

/-- The RUNNING tasks of frond f that event 13 may preempt, as (thread, effective priority): event 13 enabled, thread
not halted (R194, R201). -/
def State.preemptable (s : State) (f : Nat) : List (Tid × Nat) :=
  (frondTids f).filterMap (fun t =>
    let th := s.thr t
    match th.task with
    | some id => if th.evmask.getLsbD 13 && !th.halted then some (t, (s.task f id).eff) else none
    | none => none)

/-- The victim of R194: lowest effective priority, ties to the higher thread identifier. -/
def preemptVictim (l : List (Tid × Nat)) : Option (Tid × Nat) :=
  argMax (fun p => (64 - p.2) * 2048 + p.1.toNat) l

/-- Preemption after a task of priority p became READY (R194). -/
def State.preempt (s : State) (f p : Nat) : State :=
  if s.freeTaskThread f then s
  else match preemptVictim (s.preemptable f) with
    | some (t, q) => if q < p then s.pend t 13 else s
    | none => s

/-- The highest effective priority among the READY tasks of frond f, and whether there is one. -/
def State.bestReady (s : State) (f : Nat) : Option Nat :=
  let all := (upTo 32).flatMap (fun l => (s.readyList f l).map (fun id => (s.task f id).eff))
  argMax (fun p => p) all

/-- The condition of R194 tested anew, at a RET that returns the thread to call depth 0. -/
def State.repreempt (s : State) (t : Tid) : State :=
  let f := tidF t
  match s.bestReady f with
  | none => s
  | some p =>
    if s.freeTaskThread f then s
    else match preemptVictim (s.preemptable f) with
      | some (u, q) => if u = t ∧ q < p then s.pend t 13 else s
      | none => s

/-- A DORMANT task's activation context, read from its TCB (R189). -/
def State.activation (s : State) (f id : Nat) : Task :=
  let a := s.tcbAddr f id
  let base := fld (s.word a) 8 4
  let entry := BitVec.ofNat 13 (s.word (a + 4)).toNat
  { Task.reset with
    base := base
    eff := base
    entry := entry
    pc := entry
    evmask := (s.word (a + 56)).truncate 16 ||| 1
    locals := Vector.ofFn (fun i : Fin 16 => s.word (a + 64 + 4 * i.val)) }

/-- Sleeping tasks whose timeout waits for room in level l are enqueued as soon as an entry frees, ahead of new activations, and may
preempt (R194, R195). DESIGN CHOICE (log entry 40): the lowest TCB number first. -/
def State.enqueueTout (s : State) (f l : Nat) : State :=
  ((s.frond f).tasks.map (fun p => p.1)).foldl (fun s id =>
    let k := s.task f id
    if k.state = .sleeping ∧ k.tout ∧ prioLevel k.eff = l ∧ s.levelRoom f l then
      (s.enqueue f id { k with wakeStatus := some (k.wakeStatus.getD 1) }).preempt f k.eff
    else s) s

/-- TREADY, and a host write to FRD_TSK_READY (R189): the state and the status 0 OK or 4 REFUSED. Whatever the task's state, a target
level that holds 64 entries refuses. -/
def State.tready (s : State) (f id : Nat) : State × Word :=
  let k := s.task f id
  let new := s.activation f id
  let p := if k.state = .dormant then new.eff else k.eff
  if !s.levelRoom f (prioLevel p) then (s.bump (Reg.FRD_TSK_REFUSED f (prioLevel p)), 4)
  else match k.state with
    | .running => (s.setTask f id { k with wake := true }, 0)
    | .ready => (s, 0)
    | .dormant => ((s.enqueue f id new).preempt f p, 0)
    | .sleeping => ((s.enqueue f id { k with wakeStatus := some 0 }).preempt f p, 0)

/-- A READY task whose priority was raised moves to the tail of its new level; a failed attempt counts in
FRD_TSK_EVENTS.INHDEFER (R179). The entry that frees in the old level is taken at once by a task that waits for it (R195). -/
def State.tryMove (s : State) (f id : Nat) : State :=
  let k := s.task f id
  let l := prioLevel k.eff
  if k.state = .ready ∧ k.level < l then
    if s.levelRoom f l then
      let s := s.setReadyList f k.level ((s.readyList f k.level).filter (fun j => decide (j ≠ id)))
      let s := s.setReadyList f l (s.readyList f l ++ [id])
      (s.setTask f id { k with level := l }).enqueueTout f k.level
    else s.bumpF (Reg.FRD_TSK_EVENTS f) 15 0
  else s

/-- The deferred moves of R179, retried at every dispatch. -/
def State.retryMoves (s : State) (f : Nat) : State :=
  ((upTo 32).flatMap (fun l => s.readyList f l)).foldl (fun s id => s.tryMove f id) s

/-- Sets a task's effective priority (inheritance, R178, R179): READY and raised, it moves; its timeout may find room in the new
level. -/
def State.setEff (s : State) (f id p : Nat) : State :=
  let k := s.task f id
  ((s.setTask f id { k with eff := p }).tryMove f id).enqueueTout f (prioLevel p)

/-- Is the task eligible for the thread: not AFFINE to another (R190)? -/
def Task.eligible (k : Task) (t : Tid) : Bool := !k.affine || decide (k.thread = t)

/-- Does the thread's core hold the task's code: a resident task's on a resident core alone, any other's on the other cores alone
(R169, log entry 22)? -/
def State.fitsCore (s : State) (t : Tid) (id : Nat) : Bool :=
  (s.frond (tidF t)).residentTasks.any (fun r => decide (r.id = id)) == (s.core (coreKey t)).resident

/-- The READY tasks that thread t may take, as (level, TCB number): the highest level first, the oldest entry first (R190). -/
def State.readyFor (s : State) (t : Tid) : List (Nat × Nat) :=
  let f := tidF t
  ((upTo 32).reverse.flatMap (fun l => (s.readyList f l).map (fun id => (l, id)))).filter
    (fun p => (s.task f p.2).eligible t && s.fitsCore t p.2)

/-- The entry that dispatch takes for a thread: the highest level first, the oldest eligible entry (R190). -/
def State.pickTask (s : State) (t : Tid) : Option (Nat × Nat) := (s.readyFor t).head?

/-- Does the thread hold a lock, a tag in use or staged words (R191)? `locks` is the number of locks it holds. -/
def Thread.bound (th : Thread) (locks : Nat) : Bool :=
  decide (0 < locks) || th.tags.toList.any (fun g => decide (g ≠ .free)) || decide (th.staged ≠ 0)

/-- Does thread t hold some lock of its frond's unit or the device unit? -/
def State.locksHeld (s : State) (t : Tid) : Nat :=
  ((s.frond (tidF t)).locks.filter (fun e => decide (e.holder = t))).length
    + (s.dlocks.filter (fun e => decide (e.holder = t))).length

/-- Records a waiting time at a level (FRD_TSK_WMAX, FRD_TSK_WMEAN). -/
def State.recordWait (s : State) (f l ns : Nat) : State :=
  s.modFrond f (fun fr =>
    let st := Sparse.get (fun _ => (⟨0, 0, 0⟩ : LevelStat)) fr.lvlStat l
    let st' : LevelStat := ⟨st.count + 1, st.total + ns, max st.longest ns⟩
    { fr with lvlStat := Sparse.set (fun _ => ⟨0, 0, 0⟩) fr.lvlStat l st' })

/-- Restores a task's context into a thread (R190, R191). -/
def Thread.restore (th : Thread) (k : Task) (id : Nat) : Thread :=
  { th with
    run := .running
    task := some id
    pc := k.pc
    stack := (match k.wakeStatus with | some w => [w] | none => []) ++ k.stack
    locals := k.locals
    loops := k.loops
    repc := k.repc
    repact := k.repact
    evmask := k.evmask
    budget := k.budget
    slots := 0
    budgetHit := false
    hardHit := false
    callDepth := 0
    dbgChanged := false }

/-- The dispatch of R190 for a thread: it takes the best eligible ready task, or stays free. -/
def State.dispatchTask (s : State) (t : Tid) : State :=
  let f := tidF t
  let s := s.retryMoves f
  match s.pickTask t with
  | none => s.modThr t (fun th => { th with run := .free, task := none })
  | some (l, id) =>
    let k := s.task f id
    let s := s.setReadyList f l ((s.readyList f l).filter (fun j => decide (j ≠ id)))
    let s := s.recordWait f l (s.now - k.since.toNat)
    let s := s.modThr t (fun th => th.restore k id)
    let s := s.setTask f id { k with
      state := .running, thread := t, wakeStatus := none
      affine := k.affine && (s.thr t).bound (s.locksHeld t) }
    s.enqueueTout f l

/-- The context of the task a thread runs, as a switch saves it (R191): AFFINE if the thread is bound. `pc` is where
the task goes on. -/
def State.saveTask (s : State) (t : Tid) (id : Nat) (pc : Pc) (loops : List Loop) (repc : Nat) (repact : Bool) : Task :=
  let th := s.thr t
  let k := s.task (tidF t) id
  { k with
    pc := pc, stack := th.stack, loops := loops, repc := repc, repact := repact, evmask := th.evmask, budget := th.budget
    locals := th.locals, thread := t, affine := th.bound (s.locksHeld t) }

/-- The context of a task that is lost (R196): what its TCB image then shows is free (log entry 40). -/
def State.loseContext (s : State) (f id : Nat) : State :=
  let r := s.freeBytes 160
  r.1.setBytes (s.tcbAddr f id + 32) r.2

/-- A thread reset's effect on its task (R196): the running task becomes DORMANT and is counted, tasks AFFINE to the
thread lose AFFINE. -/
def State.dropTask (s : State) (t : Tid) : State :=
  let f := tidF t
  let s := match (s.thr t).task with
    | some id =>
      let k := s.task f id
      ((s.setTask f id { Task.reset with base := k.base, entry := k.entry }).loseContext f id).bumpF (Reg.FRD_TSK_EVENTS f) 31 16
    | none => s
  ((s.frond f).tasks.map (fun p => p.1)).foldl (fun s id =>
    let k := s.task f id
    if k.affine ∧ k.thread = t then s.setTask f id { k with affine := false } else s) s

/-- Boundary step 6 for the sleeping tasks of a frond (R195): enqueued READY with TIMEOUT, or TOUT when their level is
full. DESIGN CHOICE (log entry 40): the lowest TCB number first. -/
def State.wakeSleepers (s : State) (f : Nat) : State :=
  ((s.frond f).tasks.map (fun p => p.1)).foldl (fun s id =>
    let k := s.task f id
    if k.state = .sleeping then
      if s.levelRoom f (prioLevel k.eff) then
        (s.enqueue f id { k with wakeStatus := some (k.wakeStatus.getD 1) }).preempt f k.eff
      else s.setTask f id { k with tout := true }
    else s) s

end Sys2Proof.Machine
end

