-- ==== Sys2Proof/Machine/Locks.lean ====
section
/-! DEFINITION. The lock units (R171 to R179): requests, grants, passing, inheritance, release and abandonment. -/

namespace Sys2Proof.Machine

/-- May the word at thread-view address a be a lock: 4-byte-aligned, in frond shared or common memory (R105)? -/
def lockAddrOk (a : Word) : Bool :=
  decide (a.toNat % 4 = 0) &&
    (decide (viewRange a.toNat = some .shared) || decide (viewRange a.toNat = some .common))

/-- Is a lock word tracked by the device lock unit? -/
def lockIsDev (a : Word) : Bool := decide (viewRange a.toNat = some .common)

/-- The device address of a lock word, seen from frond f. -/
def lockDev (f : Nat) (a : Word) : Nat := viewDev (mkTid f 0 0) a.toNat

/-- The locks the responsible unit tracks: frond f's, or the device unit's (R172). -/
def State.lockTable (s : State) (f : Nat) (a : Word) : List LockEntry := if lockIsDev a then s.dlocks else (s.frond f).locks

/-- Replaces the table of the responsible unit and keeps its high-water mark. -/
def State.setLockTable (s : State) (f : Nat) (a : Word) (l : List LockEntry) : State :=
  if lockIsDev a then { s with dlocks := l, dlockHwm := max s.dlockHwm l.length }
  else s.modFrond f (fun fr => { fr with locks := l, lockHwm := max fr.lockHwm l.length })

/-- The capacity of the responsible unit (R172). -/
def lockCap (a : Word) : Nat := if lockIsDev a then 1024 else 256

/-- The entry that tracks a lock word. -/
def State.lockEntry (s : State) (f : Nat) (a : Word) : Option LockEntry :=
  (s.lockTable f a).find? (fun e => decide (e.addr = a))

/-- Replaces the entry of a lock word. -/
def State.setLockEntry (s : State) (f : Nat) (a : Word) (e : LockEntry) : State :=
  s.setLockTable f a ((s.lockTable f a).map (fun x => if x.addr = a then e else x))

/-- The lowest entry number no tracked lock uses. -/
def freeSlot (l : List LockEntry) : Nat :=
  ((upTo (l.length + 1)).find? (fun i => !l.any (fun e => decide (e.slot = i)))).getD l.length

/-- The lock word of Table 07-1 for a held lock. -/
def lockWord (e : LockEntry) : Word :=
  wd (2 ^ 31 + (if e.abandoned then 2 ^ 30 else 0) + e.prio * 2 ^ 16 + e.holder.toNat)

/-- Notes that an UNLOCK, a grant or a release touched a lock in this tick (R199). -/
def State.touchLock (s : State) (f : Nat) (a : Word) : State :=
  { s with touchedLocks := insNat s.touchedLocks (lockDev f a) }

/-- The effective priority of a thread's requests (R171). -/
def State.lockPrio (s : State) (t : Tid) : Nat :=
  let th := s.thr t
  match th.role, th.task with
  | .task, some id => (s.task (tidF t) id).eff
  | .task, none => 0
  | _, _ => 32

/-- Resource sharing of R148: may a thread that uses `used` of a core pool take one more? `others` lists the
use and the guaranteed minimum of every thread of the core, this one included. -/
def shareOk (dynamic : Bool) (cap pool used own : Nat) (others : List (Nat × Nat)) : Bool :=
  if !dynamic then decide (used < cap)
  else decide (used < own) || (decide (used < cap) &&
    decide ((others.map (fun p => max p.1 p.2)).foldl (· + ·) 0 < pool))

/-- The guaranteed minimum of a thread for a share: its full static share when pinned (R148). -/
def State.shareMin (s : State) (t : Tid) (hi lo static : Nat) : Nat :=
  if (s.thr t).pinned then static else s.regF (Reg.CORE_SHARECFG (tidF t) (tidC t)) hi lo

/-- May a thread hold one more lock (R147, R175 case 1)? -/
def State.lockShare (s : State) (t : Tid) : Bool :=
  shareOk (s.core (coreKey t)).dynamic 8 64 (s.locksHeld t) (s.shareMin t 15 12 8)
    ((coreTids (coreKey t)).map (fun u => (s.locksHeld u, s.shareMin u 15 12 8)))

/-- The answer of a lock unit to a request. -/
inductive LockAnswer where
  | status (w : Word)
  | wait
  deriving DecidableEq, Repr

/-- Grants an untracked lock (R174, R175 case 3): OK, or ABANDONED when the word says so. -/
def State.grantLock (s : State) (t : Tid) (a : Word) : State × Word :=
  let f := tidF t
  let l := s.lockTable f a
  let ab := bit (s.word (lockDev f a)) 30
  let e : LockEntry := ⟨freeSlot l, a, t, s.lockPrio t, (s.thr t).task, ab, []⟩
  let s := (s.setLockTable f a (l ++ [e])).setWord (lockDev f a) (lockWord e)
  (s.touchLock f a, if ab then 5 else 0)

/-- The decision order of R175 for LOCK (`try` = false) and TRYLOCK. -/
def State.requestLock (s : State) (t : Tid) (a : Word) (try_ : Bool) : State × LockAnswer :=
  let f := tidF t
  if !s.lockShare t then (s, .status 12)
  else match s.lockEntry f a with
    | none =>
      if lockCap a ≤ (s.lockTable f a).length then
        (s.bump (if lockIsDev a then Reg.MGT_DLCK_FULLCNT else Reg.FRD_LCK_FULLCNT f), .status 2)
      else let r := s.grantLock t a; (r.1, .status r.2)
    | some _ => if try_ then (s, .status 6) else (s, .wait)

/-- A task's effective priority becomes p (R178, R179): the PRIO of every lock the task holds, and its word, follow (R172, R173). -/
def State.setPrio (s : State) (f id p : Nat) : State :=
  let s := s.setEff f id p
  let mine := ((s.frond f).locks ++ s.dlocks).filter (fun e => decide (e.task = some id ∧ tidF e.holder = f))
  mine.foldl (fun s e => (s.setLockEntry f e.addr { e with prio := p }).setWord (lockDev f e.addr) (lockWord { e with prio := p })) s

/-- Priority inheritance along the chain of holders (Table 07-2). The holder's task is the one that acquired the lock. DESIGN CHOICE
(log entry 40): a raise on a lock of the device unit, which has no such counter, counts in FRD_LCK_INHCNT of the holder's frond. -/
def State.inherit (s : State) (f : Nat) (a : Word) (p : Nat) : Nat → State
  | 0 => s
  | n + 1 =>
    match s.lockEntry f a with
    | none => s
    | some e =>
      if p ≤ e.prio then s
      else
        let hf := tidF e.holder
        let s := match e.task with
          | some id => s.setPrio hf id p
          | none => s
        let s := s.bump (Reg.FRD_LCK_INHCNT (if lockIsDev a then hf else f))
        match (s.thr e.holder).run with
        | .waiting (.lock b) => s.inherit hf b p n
        | _ => s

/-- A LOCK begins to wait: inheritance first, then the request is queued (R178). -/
def State.waitLock (s : State) (t : Tid) (a : Word) : State :=
  let f := tidF t
  let p := s.lockPrio t
  let s := s.inherit f a p 1281
  match s.lockEntry f a with
  | none => s
  | some e => s.setLockEntry f a { e with waiters := e.waiters ++ [t] }

/-- The waiter that a lock passes to: highest effective priority at this moment, then the oldest request (R176). -/
def State.bestWaiter (s : State) (l : List Tid) : Option Tid := argMax (fun t => s.lockPrio t) l

/-- Passes a lock to its best waiter, whose LOCK pushes OK or ABANDONED (R176, R177); event 7 becomes pending on it. -/
def State.passLock (s : State) (f : Nat) (a : Word) (e : LockEntry) (w : Tid) (ab : Bool) : State :=
  let e' : LockEntry := { e with
    holder := w, prio := s.lockPrio w, task := (s.thr w).task, abandoned := ab
    waiters := e.waiters.filter (fun r => decide (r ≠ w)) }
  let s := (s.setLockEntry f a e').setWord (lockDev f a) (lockWord e')
  ((s.touchLock f a).pend w 7).finishWait w [if ab then 5 else 0]

/-- Releases a lock without waiters: the entry goes and the word is written (R176, R177). -/
def State.releaseLock (s : State) (f : Nat) (a : Word) (ab : Bool) : State :=
  let s := s.setLockTable f a ((s.lockTable f a).filter (fun e => decide (e.addr ≠ a)))
  (s.setWord (lockDev f a) (if ab then 0x40000000 else 0)).touchLock f a

/-- Hands a lock on: to the best waiter, or to nobody. -/
def State.handLock (s : State) (f : Nat) (a : Word) (ab : Bool) : State :=
  match s.lockEntry f a with
  | none => s
  | some e => match s.bestWaiter e.waiters with
    | some w => s.passLock f a e w ab
    | none => s.releaseLock f a ab

/-- The priority a task keeps after an UNLOCK: the greater of its base and the present priorities of the requests that
wait on locks it still holds (R179). -/
def State.keptPrio (s : State) (f id : Nat) : Nat :=
  let mine := ((s.frond f).locks ++ s.dlocks).filter (fun e => decide (e.task = some id ∧ tidF e.holder = f))
  mine.foldl (fun p e => e.waiters.foldl (fun p t => max p (s.lockPrio t)) p) (s.task f id).base

/-- UNLOCK (R176, R179): OK, or NOTHELD for a lock this thread does not hold. -/
def State.unlock (s : State) (t : Tid) (a : Word) : State × Word :=
  let f := tidF t
  match s.lockEntry f a with
  | none => (s, 7)
  | some e =>
    if e.holder ≠ t then (s, 7)
    else
      let s := s.handLock f a false
      match e.task with
      | some id => (s.setPrio f id (s.keptPrio f id), 0)
      | none => (s, 0)

/-- Frees one lock whose holder was reset, or by forced release (R177, R501). -/
def State.abandonLock (s : State) (f : Nat) (a : Word) : State :=
  (s.bump (if lockIsDev a then Reg.MGT_DLCK_ABNDCNT else Reg.FRD_LCK_ABNDCNT f)).handLock f a true

/-- Withdraws a thread's waiting request, wherever it waits (R177, R198). -/
def State.withdrawLock (s : State) (t : Tid) : State :=
  let cut (l : List LockEntry) : List LockEntry :=
    l.map (fun e => { e with waiters := e.waiters.filter (fun r => decide (r ≠ t)) })
  let s := s.modFrond (tidF t) (fun fr => { fr with locks := cut fr.locks })
  { s with dlocks := cut s.dlocks }

/-- Frees every lock a reset thread held (R177). -/
def State.abandonAll (s : State) (t : Tid) : State :=
  let f := tidF t
  let mine := ((s.frond f).locks ++ s.dlocks).filter (fun e => decide (e.holder = t))
  mine.foldl (fun s e => s.abandonLock f e.addr) s

end Sys2Proof.Machine
end

