-- ==== Sys2Proof/Machine/Gateway.lean ====
section
/-! DEFINITION. The coprocessor queue gateway of a frond (R203 to R214, R222, R529): submission, command descriptors,
completion, orphans, the late-error ring. -/

namespace Sys2Proof.Machine

/-- The submitter is a thread whose epoch has not changed (R210). -/
def State.live (s : State) (w : Submitter) : Bool :=
  match w with
  | .thread t _ e => decide ((s.thr t).epoch = e)
  | .host _ => true

/-- The commands of a kind queued in a frond (R204). -/
def State.queued (s : State) (f k : Nat) : Nat := ((s.frond f).queues.filter (fun c => decide (c.kind = k))).length

/-- The orphans of a frond not yet complete (R210, R211). -/
def State.orphans (s : State) (f : Nat) : Nat := ((s.frond f).running.filter (fun c => !s.live c.who)).length

/-- Tags of a thread in use. -/
def Thread.tagsUsed (th : Thread) : Nat := (th.tags.toList.filter (fun g => decide (g ≠ .free))).length

/-- The lowest-numbered free tag (R101). -/
def Thread.freeTag (th : Thread) : Option Nat :=
  (upTo 16).find? (fun i => decide (nth TagState.free th.tags.toList i = .free))

/-- Outstanding DMA commands of a thread (R147), its orphans among them (R210). -/
def State.dmaOut (s : State) (t : Tid) : Nat :=
  let fr := s.frond (tidF t)
  ((fr.queues ++ fr.running).filter (fun c => decide (c.kind = 1) &&
    (match c.who with | .thread u _ _ => decide (u = t) | .host _ => false))).length

/-- Is a command a thread's? -/
def Cmd.ofThread (c : Cmd) : Bool := match c.who with | .thread .. => true | .host _ => false

/-- The outstanding commands of threads, orphans included (Table 08-8). -/
def State.threadCmds (s : State) : Nat :=
  (s.fronds.map (fun (e : Nat × Frond) => ((e.2.queues ++ e.2.running).filter Cmd.ofThread).length)).sum

/-- May a thread take one more tag (R147, R148)? -/
def State.tagShare (s : State) (t : Tid) : Bool :=
  shareOk (s.core (coreKey t)).dynamic 16 128 (s.thr t).tagsUsed (s.shareMin t 4 0 16)
    ((coreTids (coreKey t)).map (fun u => ((s.thr u).tagsUsed, s.shareMin u 4 0 16)))

/-- May a thread have one more DMA command outstanding (R147, R148)? -/
def State.dmaShare (s : State) (t : Tid) : Bool :=
  shareOk (s.core (coreKey t)).dynamic 8 64 (s.dmaOut t) (s.shareMin t 11 8 8)
    ((coreTids (coreKey t)).map (fun u => (s.dmaOut u, s.shareMin u 11 8 8)))

/-- The number of tags a thread could take at this instant (CQFREE.NFREE, R148). -/
def State.nfree (s : State) (t : Tid) : Nat :=
  let th := s.thr t
  let free := 16 - th.tagsUsed
  if !(s.core (coreKey t)).dynamic then free
  else
    let tot := ((coreTids (coreKey t)).map (fun u => max (s.thr u).tagsUsed (s.shareMin u 4 0 16))).foldl (· + ·) 0
    min free ((s.shareMin t 4 0 16 - th.tagsUsed) + (128 - tot))

/-- The depth D_k of a frond's queue (R204). -/
def State.cqDepth (s : State) (f k : Nat) : Nat := s.regF (Reg.FRD_CQ_CFG f k) 8 0

/-- The largest DMA or CHK command length of a frond, 2^(LMAX + 8) bytes (R219). -/
def State.lmax (s : State) (f k : Nat) : Nat := 2 ^ (s.regF (Reg.FRD_CQ_CFG f k) 12 9 + 8)

/-- Has the frond's queue for kind k room, and is its unit not fenced (R204, R483)? -/
def State.cqRoom (s : State) (f k : Nat) : Bool :=
  decide (s.queued f k < s.cqDepth f k) && !(s.frond f).fencedKinds.testBit k

/-- Puts a captured command into its queue, with its number (R204, R205). -/
def State.enqueueCmd (s : State) (f : Nat) (c : Cmd) : State :=
  s.modFrond f (fun fr =>
    let q := fr.queues ++ [{ c with id := fr.captured }]
    let n := (q.filter (fun x => decide (x.kind = c.kind))).length
    { fr with
      queues := q
      captured := fr.captured + 1
      qHwm := Sparse.set (fun _ => 0) fr.qHwm c.kind (max n (Sparse.get (fun _ => 0) fr.qHwm c.kind)) })

/-- The 8 descriptor words at an offset in frond shared memory (R205). -/
def State.capture (s : State) (f off : Nat) : List Word := (upTo 8).map (fun i => s.word (sharedBase f + off + 4 * i))

/-- A tag of a thread. -/
def Thread.tag (th : Thread) (i : Nat) : TagState := nth .free th.tags.toList i

/-- Writes a tag of a thread. -/
def Thread.setTag (th : Thread) (i : Nat) (g : TagState) : Thread :=
  if h : i < 16 then { th with tags := th.tags.set i g } else th

/-- Does the descriptor name, as FRAME_READ does, the first cell of a spore that the submitter holds (R217)? -/
def State.holdsFrame (s : State) (w : Submitter) (desc : List Word) : Bool :=
  match w with
  | .thread t _ _ =>
    let th := s.thr t
    [th.spore0, th.spore1].any (fun o =>
      match o.bind (fun i => Sparse.get (fun _ => none) s.sw.spores i) with
      | some x => !x.dead && decide (x.cell = fld (nth 0 desc 2) 18 0)
      | none => false)
  | .host _ => false

/-- Submits a thread's command (R101, R204): the tag, or −1 when nothing is submitted. -/
def State.submit (s : State) (t : Tid) (k p : Nat) : State × Word :=
  let f := tidF t
  match (s.thr t).freeTag with
  | none => (s.bump (Reg.FRD_CQ_FULL f), 0xFFFFFFFF#32)
  | some tag =>
    if decide (32768 ≤ s.threadCmds) || !s.cqRoom f k || !s.tagShare t || (decide (k = 1) && !s.dmaShare t) then (s.bump (Reg.FRD_CQ_FULL f), 0xFFFFFFFF#32)
    else
      let c : Cmd := ⟨.thread t tag (s.thr t).epoch, k, s.capture f (p - 0x100000), wd p, .queued, 0, 0, s.holdsFrame (.thread t tag (s.thr t).epoch) (s.capture f (p - 0x100000)),
        s.tb.now, s.tick, 0, false⟩
      ((s.enqueueCmd f c).modThr t (fun th => th.setTag tag .queued), wd tag)

/-- Word i of a command's descriptor. -/
def Cmd.w (c : Cmd) (i : Nat) : Word := nth 0 c.desc i

/-- The opcode of a descriptor (Table 08-2). -/
def Cmd.opcode (c : Cmd) : Nat := fld (c.w 0) 15 8
/-- NO_RESULT of a descriptor. -/
def Cmd.noResult (c : Cmd) : Bool := bit (c.w 0) 17
/-- DONE_EV of a descriptor. -/
def Cmd.doneEv (c : Cmd) : Bool := bit (c.w 0) 16

/-- A submitter's thread, seen as the holder of an address view; the host's view is that of the frond (R206). -/
def Submitter.tid (w : Submitter) (f : Nat) : Tid :=
  match w with
  | .thread t _ _ => t
  | .host _ => mkTid f 0 0

/-- May a result record of n bytes stand at the result pointer (R206)? -/
def resultOk (w : Submitter) (f : Nat) (p : Word) (n : Nat) : Bool :=
  let t := w.tid f
  let a := p.toNat
  decide (a % 8 = 0) && viewSpanOk t true a n &&
    (match viewRange a, w with
     | some .shared, _ => true
     | some .common, _ => true
     | some .dmem, .thread .. => true
     | _, _ => false)

/-- The checks of R529 in order: reserved bits, opcode and unused operand bits (`used` gives the mask of used bits of
words 2–7), kind, then the kind's own check, its range check, the result pointer, the operand addresses, and the rest.
The code of the first that fails, or none. -/
def cmdCheck (c : Cmd) (f : Nat) (known : Bool) (used : List Word) (kindCheck rangeCheck : Option Nat) (resultSize : Nat)
    (operands rest : Option Nat) : Option Nat :=
  let w0 := c.w 0
  let unusedBad := (upTo 6).any (fun i => c.w (i + 2) &&& ~~~(nth 0 used i) != 0)
  if fld w0 7 3 ≠ 0 ∨ fld w0 31 18 ≠ 0 ∨ !known ∨ unusedBad then some 0x40
  else if fld w0 2 0 ≠ c.kind then some 0x41
  else match kindCheck with
    | some e => some e
    | none => match rangeCheck with
      | some e => some e
      | none =>
        if !c.noResult ∧ !resultOk c.who f (c.w 1) resultSize then some 0x42
        else match operands with
          | some e => some e
          | none => rest

/-- Marks the submitter's tag of a command (Table 08-3). -/
def State.markTag (s : State) (f : Nat) (c : Cmd) (g : TagState) : State :=
  match c.who with
  | .thread t tag e => if (s.thr t).epoch = e then s.modThr t (fun th => th.setTag tag g) else s
  | .host tag => s.modFrond f (fun fr => { fr with hostTags := Sparse.set (fun _ => .free) fr.hostTags tag g })

/-- The first queued command of a kind and opcode at the head of its queue (commands of a kind start in order, R204). -/
def State.headCmd (s : State) (f k : Nat) : Option Cmd := (s.frond f).queues.find? (fun c => decide (c.kind = k))

/-- Removes the head command of a kind from its queue. -/
def dropHead (k : Nat) : List Cmd → List Cmd
  | [] => []
  | c :: l => if c.kind = k then l else c :: dropHead k l

/-- The head command of kind k leaves its queue and stands among the running ones in phase `ph` (state STARTED). -/
def State.startCmd (s : State) (f k : Nat) (c : Cmd) (ph : CmdPhase) : State :=
  let s := s.modFrond f (fun fr => { fr with queues := dropHead k fr.queues, running := fr.running ++ [{ c with phase := ph }] })
  s.markTag f c .started

/-- Replaces the running command at index i. -/
def State.setRunning (s : State) (f i : Nat) (c : Cmd) : State :=
  s.modFrond f (fun fr => { fr with running := setNth fr.running i c })

/-- Does an orphan's write to a device address go to the D-RAM of a core replaced by the spare (R211)? -/
def State.orphanToReplaced (s : State) (w : Submitter) (dev : Nat) : Bool :=
  !s.live w && (match regionOf dev with
    | .dmem f c => decide (c < 16) && (s.core (f * 16 + c)).spareIn
    | _ => false)

/-- An orphan whose writes are discarded counts once in FRD_CQ_ORPHAN.DISCARDED (R211). -/
def State.countLost (s : State) (f : Nat) (c : Cmd) : State := if c.lost then s else s.bumpF (Reg.FRD_CQ_ORPHAN f) 11 9

/-- Writes the result record of a command through its result pointer (R206). -/
def State.writeResult (s : State) (f : Nat) (c : Cmd) (res : List Word) : State :=
  if c.noResult || res.isEmpty then s
  else
    let dev := viewDev (c.who.tid f) (c.w 1).toNat
    if s.orphanToReplaced c.who dev then s.countLost f c
    else s.setBytes dev (res.flatMap (fun w => leBytes 4 w.toNat))

/-- Reports a completion code to the submitter (R207, R210, R222): the tag turns DONE and event 5 pends, a waiting CQW
resumes; an orphan's completion is discarded and counted; a host command's code waits in its tag. -/
def State.reportCode (s : State) (f : Nat) (c : Cmd) (code : Byte) : State :=
  match c.who with
  | .thread t tag e =>
    if (s.thr t).epoch = e then
      let s := if c.doneEv then s.pend t 5 else s
      let s := s.modThr t (fun th => th.setTag tag (.done code))
      match (s.thr t).run with
      | .waiting (.cq g) =>
        if g = tag then (s.modThr t (fun th => th.setTag tag .free)).finishWait t [code.setWidth 32] else s
      | _ => s
    else s.bumpF (Reg.FRD_CQ_ORPHAN f) 21 12
  | .host tag =>
    let s := s.modFrond f (fun fr => { fr with hostTags := Sparse.set (fun _ => .free) fr.hostTags tag (.done code) })
    if c.doneEv then s.postEvent 1 code.toNat (wd f) (wd tag) else s

/-- Ends the running command at index i of a frond with a code, after its result record (R206, R207). -/
def State.endCmd (s : State) (f i : Nat) (code : Byte) (res : List Word) : State :=
  match (s.frond f).running[i]? with
  | none => s
  | some c =>
    let s := s.writeResult f c res
    let s := s.modFrond f (fun fr => { fr with
      running := dropNth fr.running i
      finished := fr.finished ++ [⟨c.who, c.kind, c.ptr, s.tick, c.id⟩] })
    s.reportCode f c code

/-- Ends the queued commands of a frond that satisfy p with code FLUSHED, and removes them. -/
def State.flushQueued (s : State) (f : Nat) (p : Cmd → Bool) : State :=
  let gone := (s.frond f).queues.filter p
  let s := s.modFrond f (fun fr => { fr with queues := fr.queues.filter (fun c => !p c) })
  gone.foldl (fun s c => s.reportCode f c 0x47) s

/-- A thread reset's effect on its commands (R210): queued ones are removed and counted; started ones become orphans
through the epoch. -/
def State.dropQueued (s : State) (t : Tid) : State :=
  let f := tidF t
  let mine (c : Cmd) : Bool := match c.who with
    | .thread u _ e => decide (u = t ∧ (s.thr t).epoch = e)
    | .host _ => false
  let n := ((s.frond f).queues.filter mine).length
  let s := s.modFrond f (fun fr => { fr with queues := fr.queues.filter (fun c => !mine c) })
  if n = 0 then s else s.bumpF (Reg.FRD_CQ_ORPHAN f) 31 22 n

/-- The offset of a thread's late-error ring in the D-RAM of its core (R213). -/
def lateRing (t : Tid) : Nat := 0xE680 + tidT t * 0x40

/-- Delivers a late error to a thread's ring (R212, R213): the sequence number advances, the record is written at slot
sequence mod 4, and event 4 becomes pending. A record that it overwrites before the thread loaded from it counts in OVERWRITTEN. -/
def State.lateRecord (s : State) (t : Tid) (tag kind : Nat) (code : Byte) (ptr : Word) : State :=
  let f := tidF t
  let n := (s.thr t).lateSeq + 1
  let i := n.toNat % 4
  let a := dmemBase f (tidC t) + lateRing t + i * 16
  let unread := (s.thr t).lateUnread.contains i
  let s := s.modThr t (fun th => { th with lateSeq := n, lateUnread := insNat th.lateUnread i })
  let s := s.setBytes a (leBytes 4 n.toNat ++ leBytes 4 (tag + kind * 16 + code.toNat * 256) ++ leBytes 4 ptr.toNat
    ++ leBytes 4 s.tick32.toNat)
  let s := s.bumpF (Reg.FRD_CQ_LATE f) 31 24
  let s := if unread then s.bumpF (Reg.FRD_CQ_LATE f) 15 8 else s
  s.pend t 4

/-- A load of n bytes at thread-view address `a`: a record of the thread's late-error ring that it touches has been read. -/
def State.noteLate (s : State) (t : Tid) (a n : Nat) : State :=
  if a < lateRing t + 64 ∧ lateRing t < a + n then
    s.modThr t (fun th => { th with lateUnread := th.lateUnread.filter (fun i =>
      decide (a + n ≤ lateRing t + 16 * i) || decide (lateRing t + 16 * i + 16 ≤ a)) })
  else s

end Sys2Proof.Machine
end

