-- ==== Sys2Proof/Machine/Tables.lean ====
section
/-! DEFINITION. The table engines (R299 to R321): hashing, probes, insertion with relocation, walks, rehash, learning. -/

namespace Sys2Proof.Machine

/-- The key of slot `idx` of a table. -/
def slotKey (t idx : Nat) : Nat := t * 262144 + idx
/-- The entry in a slot. -/
def State.slot (s : State) (t idx : Nat) : Option TEntry := Sparse.get (fun _ => none) s.tbl.slots (slotKey t idx)

/-- Word i of an entry. -/
def TEntry.w (e : TEntry) (i : Nat) : Word := nth 0 e.words i
/-- Word 7 as reads return it (R302). -/
def TEntry.w7 (e : TEntry) : Word := wd (1 + (if e.prev then 2 else 0) + (if e.hit then 4 else 0))
/-- The eight words of an entry, or of an empty slot. -/
def entryWords (e : Option TEntry) : List Word :=
  match e with
  | some e => e.words ++ [e.w7]
  | none => List.replicate 8 0

/-- The key bytes of an entry (R300): words 0 and 1 for the FDB, words 0–3 and TYPE for the stream table. -/
def keyBytes (t : Nat) (w : List Word) : List Byte :=
  if t = 0 then leBytes 4 (nth 0 w 0).toNat ++ leBytes 4 (nth 0 w 1).toNat
  else (w.take 4).flatMap (fun x => leBytes 4 x.toNat) ++ [BitVec.ofNat 8 (fld (nth 0 w 4) 2 0)]

/-- The current seeds of a table. -/
def State.seeds (s : State) (t : Nat) : Nat × Nat :=
  ((s.reg (Reg.TBL_SEED t 0)).toNat, (s.reg (Reg.TBL_SEED t 1)).toNat)
/-- The previous seeds of a table. -/
def State.prevSeeds (s : State) (t : Nat) : Nat × Nat :=
  (Sparse.get (fun _ => 0) s.tbl.prevSeed (t * 2), Sparse.get (fun _ => 0) s.tbl.prevSeed (t * 2 + 1))

/-- The quarter of a key. -/
def quarter (k : List Byte) : Nat := seededCrc 0 k % 4
/-- The two candidate buckets of a key under a seed pair, as global bucket numbers (R300, R301). -/
def candidates (k : List Byte) (sd : Nat × Nat) : List Nat :=
  let q := quarter k
  let b1 := seededCrc sd.1 k / 4 % 16384
  let b2 := seededCrc sd.2 k / 4 % 16384
  let b2 := if b2 = b1 then Nat.xor b1 1 else b2
  [b1 * 4 + q, b2 * 4 + q]

/-- Is a rehash of table t under way or stuck, so that probes read four buckets (R313, R320)? -/
def State.rehashing (s : State) (t : Nat) : Bool :=
  let st := s.regF (Reg.TBL_RHS t) 26 24
  decide (st = 1 ∨ st = 2)

/-- The slot indices of a bucket. -/
def bucketSlots (g : Nat) : List Nat := (upTo 4).map (fun i => g * 4 + i)

/-- The slots that one access for a key reads: those of its candidate buckets, of both seed pairs during a rehash (R313). -/
def State.probed (s : State) (t : Nat) (k : List Byte) : List Nat :=
  (candidates k (s.seeds t) ++ (if s.rehashing t then candidates k (s.prevSeeds t) else [])).flatMap bucketSlots

/-- The index at which a key is found, if any; a fenced quarter misses (R483). -/
def State.findKey (s : State) (t : Nat) (w : List Word) : Option Nat :=
  let k := keyBytes t w
  if s.tbl.fenced.testBit (quarter k) then none
  else
  (s.probed t k).find? (fun i =>
    match s.slot t i with
    | some e => decide (keyBytes t e.words = k)
    | none => false)

/-- A pipeline's probe for a key: it misses where it reads a slot that is uncorrectable (R317). -/
def State.probeKey (s : State) (bad : List Nat) (t : Nat) (w : List Word) : Option Nat :=
  if (s.probed t (keyBytes t w)).any (fun i => bad.contains (slotKey t i)) then none else s.findKey t w

/-- Changes the count of valid entries of a table. -/
def State.addUsed (s : State) (t : Nat) (up : Bool) : State :=
  s.setReg (Reg.TBL_USED t) (if up then s.reg (Reg.TBL_USED t) + 1 else s.reg (Reg.TBL_USED t) - 1)

/-- Writes a slot, keeping TBL_USED. -/
def State.rawSlot (s : State) (t idx : Nat) (e : Option TEntry) : State :=
  let was := (s.slot t idx).isSome
  let s := { s with tbl.slots := Sparse.set (fun _ => none) s.tbl.slots (slotKey t idx) e }
  if was = e.isSome then s else s.addUsed t e.isSome

/-- Does a flush remove an entry (R307, R316)? -/
def Walk.removes (w : Walk) (e : TEntry) : Bool :=
  let st := bit (e.w 2) 15
  (w.statics || !st) &&
  (if w.op = 8 then decide (fld (e.w 2) 13 0 = w.arg) && !bit (e.w 2) 14
   else decide (fld (e.w 1) 27 16 = w.arg))

/-- Has a walk already visited bucket g? -/
def Walk.visited (w : Walk) (g : Nat) : Bool := decide ((g + 65536 - w.start) % 65536 < (w.next + 65536 - w.start) % 65536)

/-- One visit of a walk to a slot: the entry left there, and the walk's counts. Flushes remove FDB entries only. -/
def Walk.visit (w : Walk) (e : TEntry) : Option TEntry × Walk :=
  if w.op = 10 then
    if w.table = 1 then
      (some { e with hit := false }, { w with cleared := w.cleared + (if e.hit then 1 else 0) })
    else if bit (e.w 2) 15 then (some e, w)
    else if e.hit then (some { e with hit := false }, { w with cleared := w.cleared + 1 })
    else (none, { w with deleted := w.deleted + 1 })
  else if w.table = 0 ∧ w.removes e then (none, { w with deleted := w.deleted + 1 })
  else (some e, w)

/-- Writes an entry into a slot; in a bucket that the walk in progress has already visited, the walk's condition is applied as
it is written (R316). -/
def State.putSlot (s : State) (t idx : Nat) (e : TEntry) : State :=
  match s.tbl.walk with
  | some w =>
    if w.table = t ∧ w.visited (idx / 4) then
      let r := w.visit e
      { s.rawSlot t idx r.1 with tbl.walk := some r.2 }
    else s.rawSlot t idx (some e)
  | none => s.rawSlot t idx (some e)

/-- The lowest free slot of a bucket. -/
def State.freeIn (s : State) (t g : Nat) : Option Nat := (bucketSlots g).find? (fun i => (s.slot t i).isNone)

/-- The other candidate bucket of the entry in bucket g, under the seed pair that placed it. -/
def State.otherBucket (s : State) (t g : Nat) (e : TEntry) : Nat :=
  let cs := candidates (keyBytes t e.words) (if e.prev then s.prevSeeds t else s.seeds t)
  if nth 0 cs 0 = g then nth 0 cs 1 else nth 0 cs 0

/-- One path of the directory search: the bucket reached and the slots to be moved so far, last first. -/
abbrev MovePath := Nat × List Nat

/-- The extensions of a path by one move: each entry of its bucket to its other candidate bucket. -/
def State.extend (s : State) (t : Nat) (p : MovePath) : List MovePath :=
  (bucketSlots p.1).filterMap (fun i =>
    match s.slot t i with
    | some e => some (s.otherBucket t p.1 e, i :: p.2)
    | none => none)

/-- Drops paths that reach a bucket already reached. -/
def newPaths : List Nat → List MovePath → List MovePath × List Nat
  | seen, [] => ([], seen)
  | seen, p :: ps =>
    if seen.contains p.1 then newPaths seen ps
    else let r := newPaths (p.1 :: seen) ps; (p :: r.1, r.2)

/-- The shortest chain of moves to a free slot, of at most `n` moves: the slots of the chain, first to last (R308). -/
def State.movePath (s : State) (t : Nat) : Nat → List MovePath → List Nat → Option (List Nat)
  | 0, _, _ => none
  | n + 1, front, seen =>
    let nexts := front.flatMap (fun p => s.extend t p)
    match nexts.findSome? (fun p => (s.freeIn t p.1).map (fun i => (i :: p.2).reverse)) with
    | some path => some path
    | none => let r := newPaths seen nexts; s.movePath t n r.1 r.2

/-- An entry known as stuck stays so where a chain moves it. -/
def State.moveStuck (s : State) (a b : Nat) : State :=
  let l := s.tbl.stuck.filter (fun k => decide (k ≠ a ∧ k ≠ b))
  { s with tbl.stuck := if s.tbl.stuck.contains a then b :: l else l }

/-- Moves along a chain of slots, last move first; a HIT goes with its entry. -/
def State.moveChain (s : State) (t : Nat) : List Nat → State
  | a :: b :: rest =>
    let s := s.moveChain t (b :: rest)
    match s.slot t a with
    | some e => ((s.rawSlot t a none).putSlot t b e).moveStuck (slotKey t a) (slotKey t b)
    | none => s
  | _ => s

/-- Places an entry whose key is not in the table (R308): the state, the slot and the moves made, or none without room. -/
def State.place (s : State) (t : Nat) (e : TEntry) : Option (State × Nat × Nat) :=
  let gs := candidates (keyBytes t e.words) (s.seeds t)
  match gs.findSome? (fun g => s.freeIn t g) with
  | some i => some (s.putSlot t i e, i, 0)
  | none =>
    match s.movePath t 32 (gs.map (fun g => (g, []))) gs with
    | some path =>
      match path with
      | i :: _ => some ((s.moveChain t path).putSlot t i e, i, path.length - 1)
      | [] => none
    | none => none

/-- May an FDB entry be written (R303)? -/
def fdbOk (w : List Word) : Bool :=
  decide (fld (nth 0 w 1) 31 28 = 0) && decide (fld (nth 0 w 2) 23 16 = 0)
    && (upTo 4).all (fun i => nth 0 w (3 + i) == 0)
    && (bit (nth 0 w 2) 14 || decide (fld (nth 0 w 2) 13 0 ≤ 4095))

/-- The IPV4 stream key with the fields that TBL_STRCFG.IPMASK masks out set to 0 (R305, R306). -/
def maskIp (mask : Nat) (w : List Word) : List Word :=
  let w0 := if mask.testBit 0 then nth 0 w 0 else 0
  let w1 := if mask.testBit 1 then nth 0 w 1 else 0
  let w2 := if mask.testBit 2 then nth 0 w 2 else setFld (nth 0 w 2) 15 0 0
  let w2 := if mask.testBit 3 then w2 else setFld w2 31 16 0
  let w3 := if mask.testBit 4 then nth 0 w 3 else setFld (nth 0 w 3) 7 0 0
  let w3 := if mask.testBit 5 then w3 else setFld w3 13 8 0
  let w3 := if mask.testBit 6 then w3 else setFld w3 27 16 0
  [w0, w1, w2, w3]

/-- May a stream entry be written (R305)? -/
def State.streamOk (s : State) (w : List Word) : Bool :=
  let w4 := nth 0 w 4
  let ty := fld w4 2 0
  decide (1 ≤ ty ∧ ty ≤ 4) && decide (fld w4 5 4 ≠ 3) && decide (fld w4 3 3 = 0 ∧ fld w4 7 6 = 0 ∧ fld w4 31 26 = 0)
    && nth 0 w 6 == 0
    && (if ty = 3 then decide (fld (nth 0 w 3) 15 14 = 0 ∧ fld (nth 0 w 3) 31 28 = 0)
          && decide (maskIp (s.regF Reg.TBL_STRCFG 14 8) w = w.take 4)
        else decide (fld (nth 0 w 1) 31 28 = 0) && nth 0 w 2 == 0 && nth 0 w 3 == 0)

/-- May an entry be written into table t? -/
def State.entryOk (s : State) (t : Nat) (w : List Word) : Bool := if t = 0 then fdbOk w else s.streamOk w

/-- What a table operation answers: its code, the entry returned, its index, the moves made. -/
structure TblAns where
  code : Byte
  entry : Option (List Word)
  index : Nat
  moves : Nat
  deriving DecidableEq, Repr

/-- An entry as INSERT and WRITE_INDEX start it (R302). -/
def freshEntry (w : List Word) (who : Option (Nat × Nat)) : TEntry := ⟨w.take 7, false, false, who⟩

/-- The operations of Table 12-4 that are not walks, by opcode. -/
def State.tableOp (s : State) (op t : Nat) (touch : Bool) (idx : Nat) (w : List Word) (who : Option (Nat × Nat)) :
    State × TblAns :=
  let absent : TblAns := ⟨0x50, none, 0, 0⟩
  if s.tbl.fenced.testBit (if op = 6 then idx / 4 % 4 else quarter (keyBytes t w)) then (s, ⟨0x45, none, 0, 0⟩)
  else if op = 1 then
    if !s.entryOk t w then (s, ⟨0x53, none, 0, 0⟩)
    else match s.findKey t w with
      | some i => (s, ⟨0x51, some (entryWords (s.slot t i)), i, 0⟩)
      | none =>
        match s.place t (freshEntry w who) with
        | some (s, i, m) => (s, ⟨0, some (entryWords (s.slot t i)), i, m⟩)
        | none =>
          let s := s.bump Reg.TBL_NRH_CNT
          (s.postEvent 7 t (wd (quarter (keyBytes t w))) 0, ⟨0x52, none, 0, 0⟩)
  else if op = 2 then
    if !s.entryOk t w then (s, ⟨0x53, none, 0, 0⟩)
    else match s.findKey t w with
      | none => (s, absent)
      | some i =>
        match s.slot t i with
        | none => (s, absent)
        | some e =>
          let e' : TEntry := { e with words := e.words.take 2 ++ (w.drop 2).take 5, writer := who }
          let e' : TEntry := if t = 0 then e' else { e' with words := w.take 7 }
          (s.rawSlot t i (some e'), ⟨0, some (entryWords (some e')), i, 0⟩)
  else if op = 3 then
    match s.findKey t w with
    | none => (s, absent)
    | some i => (s.rawSlot t i none, ⟨0, some (entryWords (s.slot t i)), i, 0⟩)
  else if op = 4 then
    match s.findKey t w with
    | none => (s, absent)
    | some i =>
      match s.slot t i with
      | none => (s, absent)
      | some e =>
        if t = 0 ∧ bit (e.w 2) 15 then (s, ⟨0x55, some (entryWords (some e)), i, 0⟩)
        else if e.hit then
          (s.rawSlot t i (some { e with hit := false }), ⟨0x54, some (entryWords (some { e with hit := false })), i, 0⟩)
        else (s.rawSlot t i none, ⟨0, some (entryWords (some e)), i, 0⟩)
  else if op = 5 then
    match s.findKey t w with
    | none => (s, absent)
    | some i =>
      match s.slot t i with
      | none => (s, absent)
      | some e =>
        let e := if touch then { e with hit := true } else e
        (s.rawSlot t i (some e), ⟨0, some (entryWords (some e)), i, 0⟩)
  else if op = 6 then (s, ⟨0, some (entryWords (s.slot t idx)), idx, 0⟩)
  else
    let k := keyBytes t w
    if !s.entryOk t w then (s, ⟨0x53, none, 0, 0⟩)
    else if !((candidates k (s.seeds t)).contains (idx / 4)) ||
        (match s.slot t idx with | some e => decide (keyBytes t e.words ≠ k) | none => false) then (s, ⟨0x56, none, 0, 0⟩)
    else match s.findKey t w with
      | some i =>
        if i = idx then (s.putSlot t idx (freshEntry w who), ⟨0, some (entryWords (some (freshEntry w who))), idx, 0⟩)
        else (s, ⟨0x51, some (entryWords (s.slot t i)), i, 0⟩)
      | none => (s.putSlot t idx (freshEntry w who), ⟨0, some (entryWords (some (freshEntry w who))), idx, 0⟩)

/-- The staging words of the command register. -/
def State.tblStaging (s : State) : List Word := (upTo 8).map (fun i => s.reg (Reg.TBL_ENTRY i))

/-- Is the command register busy (R311)? -/
def State.tblBusy (s : State) : Bool := s.regB Reg.TBL_CMD 31

/-- An answer with no slot found or written carries a free index: the spec states none. -/
def State.tblIndex (s : State) (a : TblAns) : State × TblAns :=
  if a.entry.isSome then (s, a) else let r := s.draw; (r.2, { a with index := fld r.1 17 0 })

/-- Completes the command register with a code and a result (R311); MOVES is that of the last INSERT. -/
def State.tblDone (s : State) (op : Nat) (a : TblAns) : State :=
  let r := s.tblIndex a
  let s := r.1
  let a := r.2
  let s := s.setReg Reg.TBL_CMD (setFld (setBit (s.reg Reg.TBL_CMD) 31 false) 23 16 a.code.toNat)
  let s := s.setReg Reg.TBL_RESULT (wd ((if op = 1 then a.moves else s.regF Reg.TBL_RESULT 29 24) * 2 ^ 24 + a.index))
  match a.entry with
  | some w =>
    if (op = 5 ∨ op = 6) ∧ a.code = 0 ∨ a.code = 0x51 then
      (upTo 8).foldl (fun s i => s.setReg (Reg.TBL_ENTRY i) (nth 0 w i)) s
    else s
  | none => s

/-- A write of TBL_CMD that starts a walking operation: BUSY holds until its last step. -/
def State.startWalk (s : State) (op : Nat) (v : Word) : State :=
  let t := if bit v 30 then 1 else 0
  let s := s.setReg Reg.TBL_CMD (setBit (setFld (setFld (s.reg Reg.TBL_CMD) 30 30 t) 3 0 op) 31 true)
  let start := if op = 10 then Sparse.get (fun _ => 0) s.tbl.cursor t else 0
  let n := if op = 10 then s.regF Reg.TBL_AGE 15 0 + 1 else 65536
  { s with tbl.walk := some ⟨op, t, start, start, n, s.regF Reg.TBL_WALK 11 0, s.regB Reg.TBL_WALK 31, 0, 0⟩ }

/-- Ends the walk in progress with a completion code (R311, R316). -/
def State.endWalk (s : State) (w : Walk) (code : Byte) : State :=
  let s := { s with tbl.walk := none }
  let s := if w.op = 10 then
      let s := s.setReg Reg.TBL_AGE_STAT (wd (w.deleted % 65536 * 65536 + w.cleared % 65536))
      { s with tbl.cursor := Sparse.set (fun _ => 0) s.tbl.cursor w.table (w.next % 65536) }
    else s
  s.tblDone w.op ⟨code, none, 0, 0⟩

/-- An engine access finds a slot uncorrectable: the entry is invalidated and a RAS event logged (R317). -/
def State.slotUncorr (s : State) (t idx : Nat) : State := (s.rawSlot t idx none).rasEvent 5 0 (wd idx) 1

/-- One step of the walk in progress: one bucket (R307). A persistent uncorrectable error in a slot of the bucket ends it UNCORR (R317). -/
def State.walkStep (s : State) (bad : Option Nat) : State :=
  match s.tbl.walk with
  | none => s
  | some w =>
    match bad with
    | some i => (s.slotUncorr w.table (w.next * 4 + i)).endWalk w 0x45
    | none =>
      let r := (bucketSlots w.next).foldl (fun (p : State × Walk) i =>
        match p.1.slot w.table i with
        | some e => let v := p.2.visit e; (p.1.rawSlot w.table i v.1, v.2)
        | none => p) (s, w)
      let w : Walk := { r.2 with next := (r.2.next + 1) % 65536, left := r.2.left - 1 }
      if w.left = 0 then r.1.endWalk w 0 else { r.1 with tbl.walk := some w }

/-! ### Rehash (R320) -/

/-- STATE of a table's rehash. -/
def State.rhsState (s : State) (t : Nat) : Nat := s.regF (Reg.TBL_RHS t) 26 24
/-- Writes STATE and CURSOR of a table's rehash. -/
def State.setRhs (s : State) (t st cur : Nat) : State := s.setReg (Reg.TBL_RHS t) (wd (st * 2 ^ 24 + cur % 65536))

/-- Starts a rehash: the next seed pair becomes current, entries keep their places under the previous pair. -/
def State.rehashStart (s : State) (t : Nat) : State :=
  let old := s.seeds t
  let s := { s with tbl.prevSeed := Sparse.set (fun _ => 0) (Sparse.set (fun _ => 0) s.tbl.prevSeed (t * 2) old.1) (t * 2 + 1) old.2 }
  let s := s.setReg (Reg.TBL_SEED t 0) (s.reg (Reg.TBL_SEED t 2))
  let s := s.setReg (Reg.TBL_SEED t 1) (s.reg (Reg.TBL_SEED t 3))
  let s := { s with
    tbl.slots := s.tbl.slots.map (fun (p : Nat × Option TEntry) =>
      if p.1 / 262144 = t then (p.1, p.2.map (fun (e : TEntry) => { e with prev := true })) else p)
    tbl.stuck := s.tbl.stuck.filter (fun k => decide (k / 262144 ≠ t)) }
  s.setRhs t 1 0

/-- Is the entry of a slot one that the previous seed pair placed? -/
def State.prevAt (s : State) (key : Nat) : Bool :=
  match s.slot (key / 262144) (key % 262144) with
  | some e => e.prev
  | none => false

/-- The entries of table t left under the previous seed pair for want of room (TBL_RHS_STUCK). -/
def State.stuckCount (s : State) (t : Nat) : Nat := (s.tbl.stuck.filter (fun k => decide (k / 262144 = t) && s.prevAt k)).length

/-- Invalidates what the previous seed pair holds under a key. -/
def State.dropPrev (s : State) (t : Nat) (k : List Byte) : State :=
  ((candidates k (s.prevSeeds t)).flatMap bucketSlots).foldl (fun s i =>
    match s.slot t i with
    | some x => if x.prev ∧ keyBytes t x.words = k then s.rawSlot t i none else s
    | none => s) s

/-- Migrates the entry of one slot, if the previous pair placed it: written under the current pair first, the old slot, which a move may
have changed, invalidated afterwards; without room it stays and is counted as stuck. -/
def State.migrateSlot (s : State) (t idx : Nat) : State :=
  match s.slot t idx with
  | some e =>
    if e.prev then
      match s.place t { e with prev := false } with
      | some (s', _, _) => s'.dropPrev t (keyBytes t e.words)
      | none => if s.tbl.stuck.contains (slotKey t idx) then s else { s with tbl.stuck := slotKey t idx :: s.tbl.stuck }
    else s
  | none => s

/-- Migrates the entries that moves have put into buckets the walk had passed, at most n of them. -/
def State.migrateRest (s : State) (t : Nat) : Nat → State
  | 0 => s
  | n + 1 =>
    match s.tbl.slots.find? (fun p => decide (p.1 / 262144 = t) && s.prevAt p.1 && !s.tbl.stuck.contains p.1) with
    | some p => (s.migrateSlot t (p.1 % 262144)).migrateRest t n
    | none => s

/-- One step of the migration walk: one bucket, the last one with what is left behind it; at the end DONE, or STUCK with stuck entries. -/
def State.migrationStep (s : State) (t : Nat) : State :=
  let g := s.regF (Reg.TBL_RHS t) 15 0
  let s := (bucketSlots g).foldl (fun s i => s.migrateSlot t i) s
  if g + 1 < 65536 then s.setRhs t 1 (g + 1)
  else
    let s := s.migrateRest t s.tbl.slots.length
    if s.stuckCount t = 0 then
      let s := s.setRhs t 3 0
      { s with tbl.prevSeed := Sparse.set (fun _ => 0) (Sparse.set (fun _ => 0) s.tbl.prevSeed (t * 2) 0) (t * 2 + 1) 0 }
    else s.setRhs t 2 0

/-! ### Probes of the ingress pipelines (R304, R306) and learning (R318, R319) -/

/-- Sets HIT of a slot. -/
def State.touch (s : State) (t idx : Nat) : State :=
  match s.slot t idx with
  | some e => s.rawSlot t idx (some { e with hit := true })
  | none => s

/-- The FDB key words of a MAC address and VID (R528). -/
def fdbKey (mac vid : Nat) : List Word := [wd (mac % 2 ^ 32), wd (mac / 2 ^ 32 % 2 ^ 16 + vid % 4096 * 2 ^ 16)]

/-- The FDB entry that a pipeline finds for a MAC address and VID. -/
def State.fdb (s : State) (bad : List Nat) (mac vid : Nat) : Option (Nat × TEntry) :=
  (s.probeKey bad 0 (fdbKey mac vid)).bind (fun i => (s.slot 0 i).map (fun e => (i, e)))

/-- Writes a learn notification (Table 12-6) into the queue in common memory or the host's learn ring (R319); whether it
was written. -/
def State.learnWrite (s : State) (rec : List Word) : State × Bool :=
  let bs := rec.flatMap (fun w => leBytes 4 w.toNat)
  if s.regB Reg.TBL_LRN_CFG 30 then
    if s.ringRoom 1 then ((s.ringPost 1 (fun _ => bs)).bumpWrap Reg.TBL_LRN_SENT, true)
    else (s.bumpF Reg.TBL_LRN_DROP 31 16, false)
  else
    let base := commonBase + s.regF Reg.TBL_LRN_BASE 22 4 * 16
    let size := 2 ^ s.regF Reg.TBL_LRN_CFG 20 16
    let wr := (s.word base).toNat
    if (wr + 1) % size = (s.word (base + 4)).toNat % size then (s.bumpF Reg.TBL_LRN_DROP 31 16, false)
    else
      let s := s.setBytes (base + 16 + wr % size * 16) bs
      ((s.setWord base (wd ((wr + 1) % size))).bumpWrap Reg.TBL_LRN_SENT, true)

/-- The learn notification of a frame (R318): pipeline, port, logical port, source address, VID, kind and old destination;
whether one was written. -/
def State.learn (s : State) (pipe port lport smac vid kind old : Nat) (oldGroup : Bool) : State × Bool :=
  let cfg := s.reg (Reg.TBL_LRN_PORT port)
  if !bit cfg 31 || !s.regB Reg.TBL_LRN_CFG 31 || decide (smac / 2 ^ 40 % 2 = 1) then (s, false)
  else
    let key := vid * 2 ^ 48 + smac
    let seen := Sparse.get (fun _ => []) s.tbl.notified pipe
    if seen.contains key then (s, false)
    else
      let cnt := Sparse.get (fun _ => 0) s.tbl.lrnCount port
      if fld cfg 15 0 ≠ 0 ∧ fld cfg 15 0 ≤ cnt then (s.bumpF Reg.TBL_LRN_DROP 15 0, false)
      else
        let s := { s with
          tbl.notified := if seen.length < 64 then Sparse.set (fun _ => []) s.tbl.notified pipe (key :: seen) else s.tbl.notified
          tbl.lrnCount := Sparse.set (fun _ => 0) s.tbl.lrnCount port (cnt + 1) }
        s.learnWrite [wd (smac % 2 ^ 32), wd (smac / 2 ^ 32 + vid * 2 ^ 16 + kind * 2 ^ 28),
          wd (lport + (if kind = 0 then 0 else old * 2 ^ 16 + (if oldGroup then 2 ^ 30 else 0))), s.tick32]

end Sys2Proof.Machine
end

