-- ==== Sys2Proof/Machine/Classify.lean ====
section
/-! DEFINITION. Classification (R229 to R238): the logical ingress port, key fields, rules, range comparators, the result, the
primary lookups and the ordering domain. -/

namespace Sys2Proof.Machine

/-- The parser's configuration. -/
def State.parseCfg (s : State) : ParseCfg where
  depth := s.regF Reg.PRS_CTRL 8 0
  tpid2 := s.regF Reg.PRS_TPID 15 0
  tpid3 := s.regF Reg.PRS_TPID 31 16
  vxlan := s.regF Reg.PRS_UDPPORTS 15 0
  uadp := s.regF Reg.PRS_UDPPORTS 31 16

/-- The extended port whose valid map entry names a physical port and an E-CID base (R287). -/
def State.extPort (s : State) (p ecid : Nat) : Option Nat :=
  (upTo 4032).findSome? (fun i =>
    let l := 64 + i
    let w := s.reg (Reg.EGR_XP_L l)
    if bit w 31 ∧ fld w 29 24 = p ∧ fld w 11 0 = ecid then some l else none)

/-- The logical ingress port of a frame on physical port p, and whether its E-CID is unknown (R229, R230). -/
def State.logicalPort (s : State) (p : Nat) (ecid : Option Nat) : Nat × Bool :=
  match ecid with
  | some e =>
    if s.regB (Reg.PORT_CFG p) 9 then
      match s.extPort p e with
      | some l => (l, false)
      | none => (p, true)
    else (p, false)
  | none => (p, false)

/-- What the classifier's key is taken from. -/
structure KeySrc where
  p : Parsed
  lport : Nat
  pport : Nat
  reason : Nat
  dstHit : Bool
  strHit : Bool
  meta_ : Nat
  deriving DecidableEq, Repr

/-- The widths of the key fields (Table 09-4). -/
def fieldWidth (c : Nat) : Nat :=
  nth 0 [12, 6, 48, 48, 16, 12, 3, 12, 4, 12, 20, 2, 128, 128, 8, 6, 16, 16, 8, 32, 4, 8, 32, 16, 16, 8, 1, 1, 16, 2] c

/-- A key field of a frame at the outermost or the innermost level; none when it is absent there, which a key reads as zeros (R232).
PTP and UADP end the parse, so their fields are those of the innermost level. -/
def KeySrc.field (k : KeySrc) (code : Nat) (inner : Bool) : Option Nat :=
  let l := if inner then k.p.inner else k.p.outer
  let last := inner || decide (k.p.beyond = 0)
  match code with
  | 0 => some k.lport
  | 1 => some k.pport
  | 2 => l.dmac
  | 3 => l.smac
  | 4 => l.etypeVal
  | 5 => l.vids[0]?
  | 6 => if l.vids.isEmpty then none else some l.pcp
  | 7 => l.vids[1]?
  | 8 => some l.vids.length
  | 9 => l.ecid
  | 10 => l.label0
  | 11 => some l.l3type
  | 12 => if l.l3type = 1 ∨ l.l3type = 2 then some l.sip else none
  | 13 => if l.l3type = 1 ∨ l.l3type = 2 then some l.dip else none
  | 14 => l.proto
  | 15 => if l.l3type = 1 ∨ l.l3type = 2 then some l.dscp else none
  | 16 => l.sport
  | 17 => l.dport
  | 18 => some l.tcpFlags
  | 19 => l.vni
  | 20 => if last && k.p.flags.testBit 11 then some k.p.ptpType else none
  | 21 => if last && k.p.flags.testBit 11 then some k.p.ptpDomain else none
  | 22 => if last then k.p.uadpPub else none
  | 23 => if last then k.p.uadpWg else none
  | 24 => some k.p.flags
  | 25 => some k.reason
  | 26 => some (if k.dstHit then 1 else 0)
  | 27 => some (if k.strHit then 1 else 0)
  | 28 => some k.meta_
  | 29 => some k.p.beyond
  | _ => none

/-- The 32 words of rule r (Table 09-5) as bytes. -/
def State.ruleBytes (s : State) (r : Nat) : List Byte := (upTo 32).flatMap (fun w => leBytes 4 (s.recW .rule r w).toNat)

/-- Do the valid slots of a rule match, packed from bit `o` on (R233)? -/
def slotsMatch (k : KeySrc) (key mask : Nat) : List Byte → Nat → Bool
  | [], _ => true
  | b :: bs, o =>
    if b.toNat / 128 = 0 then slotsMatch k key mask bs o
    else
      let c := b.toNat % 32
      let w := fieldWidth c
      let v := (k.field c (decide (b.toNat / 32 % 2 = 1))).getD 0
      let m := mask / 2 ^ o % 2 ^ w
      decide (Nat.land v m = Nat.land (key / 2 ^ o % 2 ^ w) m) && slotsMatch k key mask bs (o + w)

/-- Range comparator n (R235). -/
def State.rangeTrue (s : State) (k : KeySrc) (n : Nat) : Bool :=
  let a := s.reg (Reg.CLS_RANGE0 n)
  let b := s.reg (Reg.CLS_RANGE1 n)
  bit a 31 && (match k.field (fld a 4 0) (bit a 5) with
    | some v => decide (fld b 15 0 ≤ v) && decide (v ≤ fld b 31 16)
    | none => false)

/-- The range references of a rule: each valid one true after its negation. -/
def State.rangesMatch (s : State) (k : KeySrc) (w : Nat) : Bool :=
  let one (o : Nat) : Bool :=
    let r := w / 2 ^ o
    if r / 256 % 2 = 0 then true
    else s.rangeTrue k (r % 256) != decide (r / 512 % 2 = 1)
  one 0 && one 16

/-- Does rule r match (R233)? -/
def State.ruleMatch (s : State) (k : KeySrc) (r : Nat) : Bool :=
  bit (s.recW .rule r 23) 0 &&
    (let bs := s.ruleBytes r
     slotsMatch k (leAt bs 0 40) (leAt bs 40 40) (slice bs 80 8) 0 && s.rangesMatch k (leAt bs 88 4))

/-- The numbers of the rules that a record lists, in rising order. -/
def State.ruleNumbers (s : State) : List Nat :=
  (s.recs.filter (fun p => decide (p.1 < 4096 * 64) && decide (p.1 % 64 = 23))).map (fun p => p.1 / 64)

/-- The deciding rule, if any: the lowest-numbered that matches (R234). -/
def State.decidingRule (s : State) (k : KeySrc) : Option Nat := s.ruleNumbers.find? (fun r => s.ruleMatch k r)

/-- A classification result (Table 09-6) with the rule that decided it, the family and reason that follow, and whether it applies (R231). -/
structure ClsResult where
  w0 : Word
  w1 : Word
  w2 : Word
  w3 : Word
  rule : Nat
  dflt : Bool
  family : Nat
  reason : Nat
  applies : Bool
  deriving DecidableEq, Repr

/-- A result that does not apply (R231): family SLOW with the parse reason, no extraction list, no mirroring, no stream handle; its ENTRY, TC
and mirror session, of which the spec says nothing, are free. -/
def State.noResult (s : State) (rule : Nat) (dflt : Bool) (reason : Nat) : State × ClsResult :=
  let d := s.draw
  (d.2, ⟨d.1 &&& 0x38FF#32, 0xFFFF0000, (d.1 >>> 16) &&& 0xF#32, 0, rule, dflt, 5, reason, false⟩)

/-- The outcome of classification (R231, R234): the lowest-numbered matching rule's result, or the default one; with a parse reason it applies
only with ALLOW_REASON; family SLOW takes reason RULE_SLOW. -/
def State.classify (s : State) (k : KeySrc) : State × ClsResult :=
  let slow (f : Nat) : Nat := if k.reason = 0 ∧ f = 5 then 10 else k.reason
  match s.decidingRule k with
  | some r =>
    let w0 := s.recW .rule r 24
    let f := fld w0 10 8
    if k.reason ≠ 0 ∧ !bit (s.recW .rule r 23) 1 then s.noResult r false k.reason
    else (s, ⟨w0, s.recW .rule r 25, s.recW .rule r 26, s.recW .rule r 27, r, false, f, slow f, true⟩)
  | none =>
    let s := s.bump Reg.CLS_NOMATCH
    let w0 := s.reg Reg.CLS_DEFAULT_W0
    let f := min 5 (fld w0 10 8)
    if k.reason ≠ 0 then s.noResult 0 true k.reason
    else (s, ⟨w0, s.reg Reg.CLS_DEFAULT_W1, s.reg Reg.CLS_DEFAULT_W2, s.reg Reg.CLS_DEFAULT_W3, 0, true, f, slow f, true⟩)

/-- The flow hash H of a frame (R245). -/
def State.flowHash (s : State) (p : Parsed) : Nat :=
  let seed := (s.reg Reg.DSP_HASH_SEED).toNat
  match p.levels.reverse.find? (fun l => decide (l.l3type = 1 ∨ l.l3type = 2)) with
  | some l =>
    seededCrc seed (beBytes 16 l.sip ++ beBytes 16 l.dip ++ beBytes 1 (l.proto.getD 0) ++ beBytes 2 (l.sport.getD 0)
      ++ beBytes 2 (l.dport.getD 0))
  | none =>
    let l := p.outer
    seededCrc seed (beBytes 6 (l.dmac.getD 0) ++ beBytes 6 (l.smac.getD 0) ++ beBytes 2 ((l.vids[0]?).getD 0))

/-- The ordering domain of a result (R245); the reserved mode 3 of a default result is taken as 2 (DESIGN CHOICE, log entry 42). -/
def State.domainOf (s : State) (c : ClsResult) (p : Parsed) (lport : Nat) : Nat :=
  let base := fld c.w0 31 16
  match fld c.w0 15 14 with
  | 0 => lport * 8 + fld c.w0 13 11
  | 1 => 32768 + (base + s.flowHash p % 2 ^ fld c.w1 3 0) % 32768
  | _ => base

/-- What the primary lookups answer (R238, R304, R306). -/
structure Lookups where
  dest : Nat
  group : Bool
  dstHit : Bool
  srcHit : Bool
  srcMove : Bool
  moveStatic : Bool
  oldDest : Nat
  oldGroup : Bool
  stream : Nat
  strHit : Bool
  deriving DecidableEq, Repr

/-- The stream-table probe of one type on the outermost level (R306): handle and slot of an entry that TAGMATCH admits. -/
def State.streamProbe (s : State) (bad : List Nat) (l : Level) (ty : Nat) : Option (Nat × Nat) :=
  let cfg := s.reg Reg.TBL_STRCFG
  if !bit cfg (ty - 1) then none
  else if ty = 3 ∧ l.l3type ≠ 1 then none
  else
    let vid := (l.vids[0]?).getD 0
    let mac := if ty = 2 then l.smac.getD 0 else l.dmac.getD 0
    let isL4 := l.proto = some 6 ∨ l.proto = some 17
    let key := if ty = 3 then
        maskIp (fld cfg 14 8) [wd l.sip, wd l.dip,
          wd ((if isL4 then l.sport.getD 0 else 0) + (if isL4 then l.dport.getD 0 else 0) * 65536),
          wd (l.proto.getD 0 + l.dscp * 256 + vid * 65536)]
      else fdbKey mac vid ++ [0, 0]
    match s.probeKey bad 1 (key ++ [wd ty]) with
    | none => none
    | some i =>
      match s.slot 1 i with
      | none => none
      | some e =>
        let tm := fld (e.w 4) 5 4
        let tagged := decide (vid ≠ 0)
        if tm = 1 ∧ !tagged then none
        else if tm = 2 ∧ tagged then none
        else some (fld (e.w 4) 25 8, i)

/-- The primary lookups of a frame on its outermost level, with the slots found uncorrectable: the state (HIT bits set) and the results. -/
def State.lookups (s : State) (bad : List Nat) (p : Parsed) (lport : Nat) : State × Lookups :=
  let l := p.outer
  let vid := (l.vids[0]?).getD 0
  let dst := s.fdb bad (l.dmac.getD 0) vid
  let src := s.fdb bad (l.smac.getD 0) vid
  let own := match src with
    | some (_, e) => decide (fld (e.w 2) 13 0 = lport) && !bit (e.w 2) 14
    | none => false
  let s := match src with
    | some (i, _) => if own then s.touch 0 i else s
    | none => s
  let str := [3, 4, 1, 2].findSome? (fun ty => s.streamProbe bad l ty)
  let s := match str with
    | some (_, i) => s.touch 1 i
    | none => s
  let e2 (x : Option (Nat × TEntry)) : Word := match x with | some (_, e) => e.w 2 | none => 0
  (s, { dest := fld (e2 dst) 13 0, group := bit (e2 dst) 14, dstHit := dst.isSome, srcHit := src.isSome,
        srcMove := src.isSome && !own, moveStatic := bit (e2 src) 15, oldDest := fld (e2 src) 13 0,
        oldGroup := bit (e2 src) 14, stream := (str.map (fun x => x.1)).getD 0, strHit := str.isSome })

/-! ### Rule operations (R237) -/

/-- Is a rule's content acceptable (R233, R236): reserved fields 0, slots within 320 bits, a family code below 6? -/
def ruleOk (bs : List Byte) : Bool :=
  let slots := slice bs 80 8
  let width : Nat := (slots.map (fun b => if b.toNat / 128 = 1 then fieldWidth (b.toNat % 32) else 0)).foldl (· + ·) 0
  let rng := leAt bs 88 4
  let w0 := leAt bs 96 4
  slots.all (fun b => decide (b.toNat / 64 % 2 = 0) && (decide (b.toNat / 128 = 0) || decide (b.toNat % 32 < 30)))
    && decide (width ≤ 320)
    && decide (bitsN rng 15 10 = 0 ∧ bitsN rng 31 26 = 0 ∧ leAt bs 92 4 / 4 = 0)
    && decide (bitsN w0 10 8 < 6 ∧ bitsN w0 15 14 ≠ 3 ∧ bitsN (leAt bs 100 4) 15 4 = 0 ∧ leAt bs 104 4 / 32 = 0)
    && decide (bitsN (leAt bs 108 4) 30 18 = 0)
    && (slice bs 112 16).all (fun b => decide (b = 0))

/-- The words of rule r. -/
def State.ruleWords (s : State) (r : Nat) : List Word := (upTo 32).map (fun i => s.recW .rule r i)

/-- Is a rule's content of family CONTROL, valid or not? -/
def ruleControl (ws : List Word) : Bool := decide (fld (nth 0 ws 24) 10 8 = 0)

/-- Has rule r content of family CONTROL? A rule whose words are all 0 has none (DEDUCED, log entry 42). -/
def State.controlRule (s : State) (r : Nat) : Bool :=
  let ws := s.ruleWords r
  ws.any (fun w => decide (w ≠ 0)) && ruleControl ws

/-- Ends a rule operation: STATUS, OP and INDEX of CLS_RULE_CMD. -/
def State.ruleDone (s : State) (op r st : Nat) : State := s.setReg Reg.CLS_RULE_CMD (wd (st * 2 ^ 28 + op * 2 ^ 24 + r))

/-- WRITE of rule r from the staging words: BAD, then LEDGER outside LOAD for CONTROL content, else replaced whole. -/
def State.ruleWrite (s : State) (r : Nat) : State :=
  let ws := (upTo 32).map (fun i => s.reg (Reg.CLS_RULE_W i))
  let bs := ws.flatMap (fun w => leBytes 4 w.toNat)
  if !ruleOk bs then s.ruleDone 1 r 1
  else if s.mode ≠ .load ∧ (s.controlRule r ∨ ruleControl ws) then
    s.ruleDone 1 r 2
  else (s.setRecs .rule r 0 ws).ruleDone 1 r 0

/-- READ of rule r into the staging words. -/
def State.ruleRead (s : State) (r : Nat) : State :=
  ((upTo 32).foldl (fun s i => s.setReg (Reg.CLS_RULE_W i) (s.recW .rule r i)) s).ruleDone 2 r 0

/-- INVALIDATE of rule r. -/
def State.ruleInvalidate (s : State) (r : Nat) : State :=
  if s.mode ≠ .load ∧ s.controlRule r then s.ruleDone 3 r 2
  else (s.setRec .rule r 23 (setBit (s.recW .rule r 23) 0 false)).ruleDone 3 r 0

end Sys2Proof.Machine
end

