-- ==== Sys2Proof/Machine/Gates.lean ====
section
/-! DEFINITION. Ports, their gate control lists (R290 to R293) and the credits of their shapers (R289). -/

namespace Sys2Proof.Machine

/-- An output queue. -/
def State.outq (s : State) (q : Nat) : OutQ := Sparse.get (fun _ => OutQ.reset) s.sw.queues q
/-- Writes an output queue. -/
def State.setOutq (s : State) (q : Nat) (x : OutQ) : State :=
  { s with sw.queues := Sparse.set (fun _ => OutQ.reset) s.sw.queues q x }
/-- A MAC port. -/
def State.port (s : State) (p : Nat) : Port := Sparse.get (fun _ => Port.reset) s.sw.ports p
/-- Writes a MAC port. -/
def State.setPort (s : State) (p : Nat) (x : Port) : State :=
  { s with sw.ports := Sparse.set (fun _ => Port.reset) s.sw.ports p x }
/-- Preemption of a port after PORT_CFG goes from one value to another (R294): on a link that is up it is active at once without VERIFY, and
verification starts where it was not asked for before. -/
def Port.preempts (x : Port) (old new : Word) : Port :=
  if !x.link ∨ (bit old 10 = bit new 10 ∧ bit old 11 = bit new 11) then x
  else
    let verify := bit new 10 && bit new 11
    { x with
      vstate := if verify then 1 else 0
      pactive := bit new 10 && !bit new 11 }

/-- A class of a port. -/
def State.pclass (s : State) (p tc : Nat) : PortClass := Sparse.get (fun _ => PortClass.reset) s.sw.classes (p * 8 + tc)
/-- Writes a class of a port. -/
def State.setPclass (s : State) (p tc : Nat) (x : PortClass) : State :=
  { s with sw.classes := Sparse.set (fun _ => PortClass.reset) s.sw.classes (p * 8 + tc) x }
/-- Is a port a configured MAC port: enabled, with a mode of Table 11-1? -/
def State.portOn (s : State) (p : Nat) : Bool := s.regB (Reg.PORT_CFG p) 31 && decide (s.regF (Reg.PORT_CFG p) 3 0 ≠ 0)

/-- The physical port and class a queue belongs to (Table 10-1), if it is valid (R254). -/
def State.queuePort (s : State) (q : Nat) : Option (Nat × Nat) :=
  if q < 512 then (if s.portOn (q / 8) then some (q / 8, q % 8) else none)
  else if q < 33280 then
    let l := (q - 512) / 8
    if l < 64 then (if s.portOn l then some (l, q % 8) else none)
    else
      let w := s.reg (Reg.EGR_XP_L l)
      if bit w 31 ∧ s.portOn (fld w 29 24) then some (fld w 29 24, q % 8) else none
  else none

/-- The map entry by which an extended port is served: its own, or the last valid one where it has been invalidated (R287). -/
def State.xpServe (s : State) (l : Nat) : Word :=
  let w := s.reg (Reg.EGR_XP_L l)
  if bit w 31 then w else Sparse.get (fun _ => 0) s.sw.xpOld l

/-- The port and class that send the frames of a queue: those already queued for an invalidated entry are sent too (R287). -/
def State.servePort (s : State) (q : Nat) : Option (Nat × Nat) :=
  if 1024 ≤ q ∧ q < 33280 then
    let w := s.xpServe ((q - 512) / 8)
    if bit w 31 ∧ s.portOn (fld w 29 24) then some (fld w 29 24, q % 8) else none
  else s.queuePort q

/-! ### Port modes (Table 11-1) -/

/-- The lanes of a port mode. -/
def modeLanes (m : Nat) : Nat := nth 0 [0, 1, 1, 1, 1, 1, 2, 2, 4, 8] m
/-- The rate of a port mode in Gb/s. -/
def modeRate (m : Nat) : Nat := nth 0 [0, 1, 10, 25, 50, 100, 100, 200, 400, 800] m
/-- The rate of a port in Gb/s; 1 where it has no mode, so that no time is divided by 0. -/
def State.portRate (s : State) (p : Nat) : Nat := max 1 (modeRate (s.regF (Reg.PORT_CFG p) 3 0))

/-! ### Gate lists -/

/-- Is port p's gate list followed (R290)? -/
def State.gclOn (s : State) (p : Nat) : Bool := s.regB (Reg.EGR_GCL_CTRL p) 0
/-- The cycle multiplier of a port. -/
def State.gclMult (s : State) (p : Nat) : Nat := s.regF (Reg.EGR_GCL_CTRL p) 7 4 + 1
/-- The record index of entry e of a bank of port p. -/
def gclIndex (p : Nat) (bankB : Bool) (e : Nat) : Nat := (p * 2 + (if bankB then 1 else 0)) * 256 + e
/-- The entries of a bank. -/
def State.gclLen (s : State) (p : Nat) (bankB : Bool) : Nat :=
  if bankB then s.regF (Reg.EGR_GCL_LEN p) 24 16 else s.regF (Reg.EGR_GCL_LEN p) 8 0
/-- Word 0 of an entry. -/
def State.gclWord (s : State) (p : Nat) (bankB : Bool) (e : Nat) : Word := s.recW .gcl (gclIndex p bankB e) 0
/-- The interval of an entry in ns. -/
def State.gclTime (s : State) (p : Nat) (bankB : Bool) (e : Nat) : Nat := (s.recW .gcl (gclIndex p bankB e) 1).toNat
/-- The length of a port's gate cycle in ns. -/
def State.gclCycle (s : State) (p : Nat) : Nat := s.regF Reg.TICK_PERIOD 15 0 * 1000 * s.gclMult p

/-- A part of a gate cycle: its start and end in ns, its entry's word 0. -/
structure Span where
  from_ : Nat
  to_ : Nat
  word : Word
  deriving DecidableEq, Repr

/-- The parts of a cycle that begins at `t` and ends at `stop`, from entry e on, at most n entries: an entry is cut at the end,
the last one holds until it (R290). -/
def State.gclSpans (s : State) (p : Nat) (bankB : Bool) (stop : Nat) : Nat → Nat → Nat → List Span
  | 0, _, _ => []
  | n + 1, e, t =>
    if stop ≤ t then []
    else
      let u := t + s.gclTime p bankB e
      let w := s.gclWord p bankB e
      if s.gclLen p bankB ≤ e + 1 ∨ stop ≤ u then [⟨t, stop, w⟩] else ⟨t, u, w⟩ :: s.gclSpans p bankB stop n (e + 1) u

/-- The bank that the cycle starting at tick number `tick` follows: an armed swap at or before it turns the active one. -/
def Port.bankAt (x : Port) (tick : Nat) : Bool :=
  match x.armed with
  | some a => if a.toNat ≤ tick then !x.gateBank else x.gateBank
  | none => x.gateBank

/-- The parts of the k cycles of a port from the one that began at `start` on. -/
def State.gclAhead (s : State) (p start k : Nat) : List Span :=
  let x := s.port p
  let c := s.gclCycle p
  let t0 := s.tick - s.tick % s.gclMult p
  (upTo k).flatMap (fun j =>
    s.gclSpans p (if j = 0 then x.gateBank else x.bankAt (t0 + j * s.gclMult p)) (start + (j + 1) * c) 256 0 (start + j * c))

/-- Is the gate of class tc open from `t` for the time of `bits` bits at the port's rate (R291), by the list that will then be
active? -/
def State.openFor (s : State) (p tc start t bits : Nat) : Bool :=
  let r := s.portRate p
  let c := max 1 (s.gclCycle p)
  let k := (t - start + bits / r) / c + 2
  (s.gclAhead p start k).all (fun x => decide (x.to_ ≤ t) || decide (t * r + bits ≤ x.from_ * r) || bit x.word tc)

/-- The longest run of consecutive open parts of a list, in ns; `cur` is the run in progress, `best` the longest so far. -/
def longestOpen (tc : Nat) : List Span → Nat → Nat → Nat
  | [], cur, best => max cur best
  | x :: l, cur, best =>
    if bit x.word tc then longestOpen tc l (cur + (x.to_ - x.from_)) best else longestOpen tc l 0 (max cur best)

/-- The gate's share of a class's effective SDU limit in bytes (R293): none where no gate ever closes. -/
def State.gateSdu (s : State) (p tc : Nat) : Option Nat :=
  if !s.gclOn p then none
  else
    let l := s.gclSpans p (s.port p).gateBank (s.gclCycle p) 256 0 0
    if l.all (fun x => bit x.word tc) then none
    else some (longestOpen tc (l ++ l) 0 0 * s.portRate p / 8 - 20)

/-- The effective SDU limit of a class (R293). -/
def State.sduLimit (s : State) (p tc : Nat) : Nat :=
  let m := s.regF (Reg.EGR_TCSDU p tc) 14 0
  match s.gateSdu p tc with
  | some g => min m g
  | none => m

/-! ### The running entry and the credits -/

/-- The queues of class tc of port p that hold a frame, in number order (R286). -/
def State.classQueues (s : State) (p tc : Nat) : List Nat :=
  s.sw.queues.filterMap (fun e =>
    if !e.2.copies.isEmpty ∧ s.servePort e.1 = some (p, tc) then some e.1 else none)

/-- Word 0 of the running gate entry of a port; all gates open without a list, free before the first cycle start. -/
def State.gateNow (s : State) (p : Nat) : Word :=
  if !s.gclOn p then 0xFF#32
  else if (s.port p).cycleStart.isNone then Config.earlyGate p
  else s.gclWord p (s.port p).gateBank (s.port p).gateEntry

/-- Is class tc of port p transmitting? -/
def State.sending (s : State) (p tc : Nat) : Bool :=
  match (s.port p).tx with
  | some x => decide (x.q % 8 = tc)
  | none => false

/-- Has class tc of port p a frame waiting, or the rest of one? -/
def State.classHolds (s : State) (p tc : Nat) : Bool :=
  !(s.classQueues p tc).isEmpty || (match (s.port p).cut with | some x => decide (x.q % 8 = tc) | none => false)

/-- Do the shaped classes of a port ask for more than its rate, so that they behave as strict priority (R289)? -/
def State.slopesOver (s : State) (p : Nat) : Bool :=
  decide (s.portRate p * 1000000 < ((upTo 8).map (fun tc =>
    if s.regF (Reg.EGR_TCCFG p tc) 1 0 = 1 then s.regF (Reg.EGR_CBS_IDLE p tc) 29 0 else 0)).sum)

/-- Brings the credit of a class to the instant t, under the gate state and the transmission that held since it was last brought
up to date (R289). -/
def State.creditTo (s : State) (p tc : Nat) (t : DWord) : State :=
  let x := s.pclass p tc
  if s.regF (Reg.EGR_TCCFG p tc) 1 0 ≠ 1 ∨ t ≤ x.creditAt then s.setPclass p tc { x with creditAt := if x.creditAt < t then t else x.creditAt }
  else
    let dt : Int := (t.toNat - x.creditAt.toNat : Nat)
    let idle : Int := (s.regF (Reg.EGR_CBS_IDLE p tc) 29 0 : Nat)
    let rate : Int := (s.portRate p * 1000000 : Nat)
    let cred := s.reg (Reg.EGR_CBS_CRED p tc)
    let hi : Int := (fld cred 31 16 * 8000000 : Nat)
    let lo : Int := -(fld cred 15 0 * 8000000 : Nat)
    let c :=
      if !bit (s.gateNow p) tc then x.credit
      else if s.sending p tc then x.credit + (idle - rate) * dt
      else if !s.classHolds p tc then x.credit
      else x.credit + idle * dt
    s.setPclass p tc { x with credit := max lo (min hi c), creditAt := t }

/-- Brings the credits of every class of a port to an instant. -/
def State.creditsTo (s : State) (p : Nat) (t : DWord) : State := (upTo 8).foldl (fun s tc => s.creditTo p tc t) s

/-! ### Suspension of preemptable frames (R294 to R296) -/

/-- The minimum non-final fragment of a port in bytes (R294). -/
def State.minFrag (s : State) (p : Nat) : Nat := 64 * (s.regF (Reg.PORT_CFG p) 13 12 + 1)

/-- Is class tc of port p preemptable on a port with active preemption? -/
def State.preemptableTc (s : State) (p tc : Nat) : Bool := (s.port p).pactive && s.regB (Reg.EGR_TCCFG p tc) 2

/-- Is preemptable traffic held by the running gate entry (R296)? -/
def State.gateHold (s : State) (p : Nat) : Bool := s.gclOn p && s.regB (Reg.EGR_GCL_CTRL p) 1 && bit (s.gateNow p) 8

/-- The bytes of a transmission that have left by an instant. -/
def State.sentBy (s : State) (p : Nat) (x : Tx) (t : DWord) : Nat :=
  min (x.bytes.length + 4) (x.sent + ((t.toNat - x.start.toNat) * s.portRate p / 8 - 8))

/-- The instant at which n bytes of a transmission have left. -/
def State.leftAt (s : State) (p : Nat) (x : Tx) (n : Nat) : DWord :=
  x.start + BitVec.ofNat 64 (ceilDiv ((n - x.sent + 8) * 8) (s.portRate p))

/-- Suspends the preemptable frame in transmission at its first legal fragment boundary at or after an instant: both the fragment sent and the
remainder are at least the minimum fragment. Nothing changes where that boundary lies after t, or where there is none. -/
def State.suspend (s : State) (p : Nat) (from_ t : DWord) : State :=
  let x := s.port p
  match x.tx with
  | some y =>
    let m := s.minFrag p
    let n := max (y.sent + m) (s.sentBy p y from_)
    if s.preemptableTc p (y.q % 8) ∧ x.cut.isNone ∧ n + m ≤ y.bytes.length + 4 ∧ n ≤ s.sentBy p y t then
      (s.creditsTo p (s.leftAt p y n)).setPort p { x with tx := none, cut := some { y with sent := n } }
    else s
  | none => s

/-- Does the running entry, by t, suspend the preemptable frame in transmission: its gate is closed, or preemptable traffic is held (R296)? -/
def State.gateCut (s : State) (p : Nat) (t : DWord) : State :=
  match (s.port p).tx with
  | some y => if !bit (s.gateNow p) (y.q % 8) ∨ s.gateHold p then s.suspend p (s.port p).gateStart t else s
  | none => s

/-- Runs the gate list of a port up to an instant, entry by entry, at most n entries (R290); preemptable frames are suspended where a gate
closes (R296). -/
def State.gatesTo (s : State) (p : Nat) (t : DWord) : Nat → State
  | 0 => (s.gateCut p t).creditsTo p t
  | n + 1 =>
    let x := s.port p
    let u := x.gateStart + BitVec.ofNat 64 (s.gclTime p x.gateBank x.gateEntry)
    if s.gclOn p ∧ x.cycleStart.isSome ∧ x.gateEntry + 1 < s.gclLen p x.gateBank ∧ u ≤ t then
      let s := (s.gateCut p u).creditsTo p u
      (s.setPort p { s.port p with gateEntry := x.gateEntry + 1, gateStart := u }).gatesTo p t n
    else (s.gateCut p t).creditsTo p t

/-- Brings gates and credits of a port to the present. -/
def State.syncPort (s : State) (p : Nat) : State := s.gatesTo p s.tb.now 256

/-- A class that empties with positive credit loses it (R289). -/
def State.creditEmpty (s : State) (p tc : Nat) : State :=
  let x := s.pclass p tc
  if !s.classHolds p tc ∧ !s.sending p tc ∧ 0 < x.credit then s.setPclass p tc { x with credit := 0 } else s

/-- A gate cycle of a port begins at a boundary: entry 0 of the active bank (R290). -/
def State.gateCycle (s : State) (p : Nat) (t : DWord) : State :=
  (s.setPort p { s.port p with gateEntry := 0, gateStart := t, cycleStart := some t }).gateCut p t

end Sys2Proof.Machine
end

