-- ==== Sys2Proof/Machine/DramMap.lean ====
section
/-! DEFINITION. The DRAM address map (R392, R393), which part of it is fitted and in service (R408). -/

namespace Sys2Proof.Machine

/-- The channel of an address. -/
def State.dramChan (s : State) (a : Nat) : Nat :=
  let o := s.dramOff a
  4 * s.dramGroup a + Nat.xor (Nat.xor (bitsN o 7 6) (bitsN o 14 13)) (bitsN o 22 21)
/-- The subchannel of an address. -/
def State.dramSub (s : State) (a : Nat) : Nat := Nat.xor (bitsN (s.dramOff a) 8 8) (bitsN (s.dramOff a) 15 15)
/-- Is channel c out of service (DRC_CH_STATUS.RETIRED)? -/
def State.chRetired (s : State) (c : Nat) : Bool := s.regB (Reg.DRC_CH_STATUS c) 31
/-- Is the group of an address out of service (R408)? -/
def State.dramRetired (s : State) (a : Nat) : Bool := s.chRetired (4 * s.dramGroup a)
/-- The channels in service. -/
def State.chInService (s : State) : Nat := ((upTo 8).filter (fun c => !s.chRetired c)).length
/-- Does DRAM serve requests (DRC_STATUS.READY)? -/
def State.dramReady (s : State) : Bool := s.dc.ready

/-- Do n bytes from a on lie in fitted DRAM? -/
def State.inDram (s : State) (a n : Nat) : Bool := decide (a + n ≤ s.dramSize)

/-- Writes bytes to a device address through the DRAM controller: writes to a retired group are discarded and counted. -/
def State.devWrite (s : State) (a : Nat) (bs : List Byte) : State :=
  if a < 0x40000000000 ∧ s.dramRetired a then s.bump Reg.DRC_CNT_RETIREDACC else s.setBytes a bs

end Sys2Proof.Machine
end

