-- ==== Sys2Proof/Machine/Pools.lean ====
section
/-! DEFINITION. The buffer pool manager (R276 to R283). -/

namespace Sys2Proof.Machine

/-- A pool's own state. -/
def State.pool (s : State) (n : Nat) : Pool := Sparse.get (fun _ => Pool.reset) s.sw.pools n
/-- Writes a pool's own state. -/
def State.setPool (s : State) (n : Nat) (p : Pool) : State :=
  { s with sw.pools := Sparse.set (fun _ => Pool.reset) s.sw.pools n p }

/-- LOC of a pool: 0 frond shared memory, 1 common memory, 2 DRAM. -/
def State.poolLoc (s : State) (n : Nat) : Nat := s.regF (Reg.BPM_CFG n) 30 29
/-- The base device address of a pool. -/
def State.poolBase (s : State) (n : Nat) : Nat := s.reg64 (Reg.BPM_BASE_LO n) (Reg.BPM_BASE_HI n) % 2 ^ 48
/-- The element size of a pool. -/
def State.poolSize (s : State) (n : Nat) : Nat := 2 ^ s.regF (Reg.BPM_CFG n) 4 0
/-- The element count of a pool. -/
def State.poolCount (s : State) (n : Nat) : Nat := s.regF (Reg.BPM_COUNT n) 22 0
/-- USERS of a pool. -/
def State.poolUsers (s : State) (n : Nat) : Nat := s.regF (Reg.BPM_USERS n) 15 0
/-- The free elements of a pool. -/
def State.poolFree (s : State) (n : Nat) : Nat := s.poolCount n - (s.pool n).held.length
/-- Is the pool in quota mode (R279)? -/
def State.poolQuota (s : State) (n : Nat) : Bool := decide (4096 < s.poolCount n)

/-- The elements a holder holds. -/
def Pool.heldBy (p : Pool) (h : Holder) : Nat := (p.held.filter (fun e => decide (e.2 = h))).length
/-- Does a holder lie in frond f? -/
def Holder.inFrond (h : Holder) (f : Nat) : Bool :=
  match h with
  | .thread t => decide (tidF t = f)
  | _ => false
/-- The elements the threads of a frond hold. -/
def Pool.heldByFrond (p : Pool) (f : Nat) : Nat := (p.held.filter (fun e => e.2.inFrond f)).length

/-- res_t of R279. -/
def State.resT (s : State) (n : Nat) (t : Tid) : Nat := s.regF (Reg.BPM_QTHR n) 15 0 - (s.pool n).heldBy (.thread t)
/-- res_f of R279. -/
def State.resF (s : State) (n f : Nat) : Nat := s.regF (Reg.BPM_QMINF n) 22 0 - (s.pool n).heldByFrond f
/-- The thread reservations of a frond. -/
def State.resThreads (s : State) (n f : Nat) : Nat := ((frondTids f).map (fun t => s.resT n t)).foldl (· + ·) 0
/-- res_h of R279. -/
def State.resH (s : State) (n : Nat) : Nat := s.regF (Reg.BPM_QHOST n) 15 0 - (s.pool n).heldBy .host
/-- The fronds of USERS. -/
def State.userFronds (s : State) (n : Nat) : List Nat := (upTo 16).filter (fun f => (s.poolUsers n).testBit f)
/-- `reserved` of R279. -/
def State.reserved (s : State) (n : Nat) : Nat :=
  ((s.userFronds n).map (fun f => max (s.resF n f) (s.resThreads n f))).foldl (· + ·) 0 + s.resH n

/-- May a requester take an element (R279)? -/
def State.mayAlloc (s : State) (n : Nat) (h : Holder) : Bool :=
  let free := s.poolFree n
  if free = 0 then false
  else if !s.poolQuota n then true
  else
    let p := s.pool n
    let open_ := decide (s.reserved n < free)
    match h with
    | .thread t =>
      let f := tidF t
      if s.regF (Reg.BPM_QTHR n) 31 16 ≤ p.heldBy h ∨ s.regF (Reg.BPM_QCAPF n) 22 0 ≤ p.heldByFrond f then false
      else decide (0 < s.resT n t) || decide (s.resThreads n f < s.resF n f) || open_
    | .host => if s.regF (Reg.BPM_QHOST n) 31 16 ≤ p.heldBy h then false else decide (0 < s.resH n) || open_
    | .dispatch => open_

/-- The lowest index that no holder holds. -/
def Pool.lowestFree (p : Pool) : Nat :=
  ((upTo (p.held.length + 1)).find? (fun i => !p.held.any (fun e => decide (e.1 = i)))).getD p.held.length

/-- The threshold of a level. -/
def State.levelThr (s : State) (n : Nat) : Nat → Nat
  | 1 => s.regF (Reg.BPM_WARN n) 22 0
  | 2 => s.regF (Reg.BPM_BP n) 22 0
  | _ => s.regF (Reg.BPM_CRIT n) 22 0

/-- The highest level whose threshold the free count has reached (R282). -/
def State.levelUp (s : State) (n free : Nat) : Nat :=
  if free ≤ s.levelThr n 3 then 3 else if free ≤ s.levelThr n 2 then 2 else if free ≤ s.levelThr n 1 then 1 else 0

/-- Drops through the levels whose threshold the free count exceeds by more than HYST. -/
def State.levelDown (s : State) (n free : Nat) : Nat → Nat
  | 0 => 0
  | l + 1 => if s.levelThr n (l + 1) + s.regF (Reg.BPM_HYST n) 22 0 < free then s.levelDown n free l else l + 1

/-- Makes event e pending on every thread of the fronds of a mask. -/
def State.pendFronds (s : State) (mask e : Nat) : State :=
  (upTo 16).foldl (fun s f => if mask.testBit f then (frondTids f).foldl (fun s t => s.pend t e) s else s) s

/-- A pool's level becomes `new`, and a change is made known (R282): the status word, event 11, the host notification. -/
def State.setLevel (s : State) (n new : Nat) : State :=
  let free := s.poolFree n
  if new = (s.pool n).level then s
  else
    let s := s.setPool n { s.pool n with level := new }
    let a := commonBase + s.regF Reg.BPM_STWIN 22 9 * 512 + n * 8
    let s := (s.setWord a (wd (free + new * 2 ^ 24))).setWord (a + 4) s.tick32
    let s := s.pendFronds (s.regF (Reg.BPM_USERS n) 31 16) 11
    if s.regB (Reg.BPM_HYST n) 31 ∨ new = 3 then s.postEvent 8 new (wd n) (wd free) else s

/-- Brings a pool's level up to date (R282). -/
def State.poolLevel (s : State) (n : Nat) : State :=
  let free := s.poolFree n
  s.setLevel n (max (s.levelUp n free) (s.levelDown n free (s.pool n).level))

/-- The place of a requester in the rotation (R280). -/
def Holder.rank (h : Holder) : Nat :=
  match h with
  | .thread t => t.toNat
  | .host => 2048
  | .dispatch => 2049

/-- The manager has served a requester: the rotation's pointer moves past it (R280). -/
def Pool.served (p : Pool) (h : Holder) : Pool := { p with turn := (h.rank + 1) % 2050 }

/-- Allocates an element of a pool for a holder: its index, or none (EMPTY, counted in BPM_EMPTY). Requests come one after another, in the
order of the queue, so that no two arrive together (R280, log entry 43). -/
def State.allocElem (s : State) (n : Nat) (h : Holder) : State × Option Nat :=
  if (s.pool n).valid ∧ s.mayAlloc n h then
    let i := (s.pool n).lowestFree
    let p := (s.pool n).served h
    ((s.setPool n { p with held := p.held ++ [(i, h)] }).poolLevel n, some i)
  else (s.bump (Reg.BPM_EMPTY n), none)

/-- Frees an element by its offset from the pool's base (R278): 0 freed, 1 range, 2 alignment, 3 double free. -/
def State.freeElem (s : State) (n off : Nat) : State × Nat :=
  let size := s.poolSize n
  if s.poolCount n * size ≤ off then (s.bump Reg.BPM_FAILCNT, 1)
  else if off % size ≠ 0 then (s.bump Reg.BPM_FAILCNT, 2)
  else
    let i := off / size
    let p := s.pool n
    if p.held.any (fun e => decide (e.1 = i)) then
      ((s.setPool n { p with held := p.held.filter (fun e => decide (e.1 ≠ i)) }).poolLevel n, 0)
    else (s.bump Reg.BPM_FAILCNT, 3)

/-- The device address of an element. -/
def State.elemAddr (s : State) (n i : Nat) : Nat := s.poolBase n + i * s.poolSize n

/-- The thread-view base of a pool in frond shared or common memory (R277). -/
def State.poolView (s : State) (n : Nat) : Nat :=
  if s.poolLoc n = 0 then 0x100000 + s.poolBase n % 0x100000 else 0x1000000 + s.poolBase n % 0x800000

/-- What BALLOC pushes for an element (R104, R277). -/
def State.elemView (s : State) (n i : Nat) : Nat := if s.poolLoc n = 2 then i else s.poolView n + i * s.poolSize n

/-- The configuration check of R276 and R279. -/
def State.poolCheck (s : State) (n : Nat) : Bool :=
  let loc := s.poolLoc n
  let base := s.poolBase n
  let lg := s.regF (Reg.BPM_CFG n) 4 0
  let size := 2 ^ lg
  let cnt := s.poolCount n
  let f := s.regF (Reg.BPM_CFG n) 28 25
  let users := s.poolUsers n
  let inside (b z : Nat) : Bool := decide (b ≤ base) && decide (base + cnt * size ≤ b + z)
  let total := ((upTo 64).map (fun m => if m ≠ n ∧ (s.pool m).valid then s.poolCount m else 0)).foldl (· + ·) 0
  let qt := s.reg (Reg.BPM_QTHR n)
  let qh := s.reg (Reg.BPM_QHOST n)
  let minF := s.regF (Reg.BPM_QMINF n) 22 0
  decide (6 ≤ lg ∧ lg ≤ 16) && decide (1 ≤ cnt ∧ cnt ≤ 4194304) && decide (base % size = 0)
    && (if loc = 0 then inside (sharedBase f) 0x100000 && decide (users = 0 ∨ users = 2 ^ f)
        else if loc = 1 then inside commonBase 0x800000
        else decide (loc = 2) && s.inDram base (cnt * size))
    && decide (total + cnt ≤ 4194304)
    && (decide (s.regF Reg.DSP_SLOW_CFG 15 10 ≠ n) || decide (cnt ≤ 524288))
    && (decide (cnt ≤ 4096) ||
      (decide (minF ≤ s.regF (Reg.BPM_QCAPF n) 22 0) && decide (fld qt 15 0 ≤ fld qt 31 16) && decide (fld qh 15 0 ≤ fld qh 31 16)
        && decide ((s.userFronds n).length * max minF (128 * fld qt 15 0) + fld qh 15 0 ≤ cnt)))

/-- A pool that is not in service: every element free, its level NORMAL. -/
def State.poolOff (s : State) (n : Nat) : State := (s.setPool n { s.pool n with valid := false, held := [] }).setLevel n 0

/-- A write of BPM_CFG_n with VALID = 1 (R276): the check, then the pool with every element free and its level brought up to date, or VALID 0
and CFGERR. -/
def State.poolConfig (s : State) (n : Nat) (v : Word) : State :=
  let keep := v &&& 0x7E00001F#32
  let s := s.setReg (Reg.BPM_CFG n) (setBit keep 31 false)
  if s.poolCheck n then
    let s := s.setReg (Reg.BPM_CFG n) (setBit (setBit keep 31 true) 24 (s.poolQuota n))
    let s := s.setReg (Reg.BPM_STAT n) (setBit (s.reg (Reg.BPM_STAT n)) 31 false)
    (s.setPool n { s.pool n with valid := true, held := [] }).poolLevel n
  else
    (s.setReg (Reg.BPM_STAT n) (setBit (s.reg (Reg.BPM_STAT n)) 31 true)).poolOff n

/-- Does a pool at BACKPRESSURE or CRITICAL stop dispatch to an entry point (R283)? -/
def State.poolStops (s : State) (ep : Nat) : Bool :=
  (upTo 64).any (fun n =>
    (s.pool n).valid && decide (2 ≤ (s.pool n).level) && s.regB (if n < 32 then Reg.BPM_EPUSE_LO ep else Reg.BPM_EPUSE_HI ep) (n % 32))

end Sys2Proof.Machine
end

