-- ==== Sys2Proof/Machine/Float.lean ====
section
/-! DEFINITION. IEEE 754 arithmetic on bit patterns, exact in scaled integers: a finite binary64 value is held as an
integer in units of 2^-1074. -/

namespace Sys2Proof.Machine

/-- The exponent field of a binary64 pattern. -/
def f64Exp (b : Nat) : Nat := b / 2 ^ 52 % 2048
/-- The fraction field of a binary64 pattern. -/
def f64Frac (b : Nat) : Nat := b % 2 ^ 52
/-- The sign of a binary64 pattern. -/
def f64Neg (b : Nat) : Bool := decide (b / 2 ^ 63 % 2 = 1)
/-- Is a binary64 pattern a NaN? -/
def f64Nan (b : Nat) : Bool := decide (f64Exp b = 2047) && decide (f64Frac b ≠ 0)
/-- Is a binary64 pattern an infinity? -/
def f64Inf (b : Nat) : Bool := decide (f64Exp b = 2047) && decide (f64Frac b = 0)
/-- The magnitude of a finite pattern in units of 2^-1074. -/
def f64Mag (b : Nat) : Nat := if f64Exp b = 0 then f64Frac b else (2 ^ 52 + f64Frac b) * 2 ^ (f64Exp b - 1)
/-- A finite pattern's value in units of 2^-1074. -/
def f64Val (b : Nat) : Int := if f64Neg b then -(f64Mag b : Int) else f64Mag b

/-- The magnitude pattern of the rational n/d (in units of 2^-1074), rounded to nearest even to p fraction bits with
smallest quantum 2^sh0 units; a pattern of at least `inf` is the infinity. -/
def roundMag (p sh0 inf n d : Nat) : Nat :=
  let sh := max sh0 (Nat.log2 (n / d) - p)
  let u := d * 2 ^ sh
  let q := n / u
  let r := n % u
  let q := if u < 2 * r ∨ (2 * r = u ∧ q % 2 = 1) then q + 1 else q
  min inf ((sh - sh0) * 2 ^ p + q)

/-- The binary64 magnitude nearest to n/d units. -/
def roundMag64 (n d : Nat) : Nat := roundMag 52 0 (2047 * 2 ^ 52) n d
/-- The binary32 magnitude nearest to n units. -/
def roundMag32 (n : Nat) : Nat := roundMag 23 925 (255 * 2 ^ 23) n 1
/-- Puts a sign on a binary64 magnitude. -/
def f64Sign (neg : Bool) (m : Nat) : Nat := if neg then 2 ^ 63 + m else m
/-- The binary64 pattern nearest to an integer number of units. -/
def f64Of (v : Int) : Nat := f64Sign (decide (v < 0)) (roundMag64 v.natAbs 1)
/-- The binary64 pattern nearest to an integer. -/
def f64OfInt (v : Int) : Nat := f64Of (v * 2 ^ 1074)

/-- The ordering key of a pattern that is no NaN. -/
def f64Key (b : Nat) : Int := if f64Neg b then -((b % 2 ^ 63 : Nat) : Int) else ((b % 2 ^ 63 : Nat) : Int)

/-- The sum of two patterns; none when it is a NaN, whose payload IEEE 754 leaves open. -/
def f64Add (a b : Nat) : Option Nat :=
  if f64Nan a || f64Nan b then none
  else if f64Inf a && f64Inf b then (if f64Neg a = f64Neg b then some a else none)
  else if f64Inf a then some a
  else if f64Inf b then some b
  else
    let v := f64Val a + f64Val b
    if v = 0 then some (f64Sign (f64Neg a && f64Neg b) 0) else some (f64Of v)

/-- A quiet binary64 NaN whose sign and payload are those of a free word. -/
def quietNan64 (w : DWord) : DWord := w ||| 0x7FF8000000000000#64
/-- A quiet binary32 NaN whose sign and payload are those of a free word. -/
def quietNan32 (w : Word) : Word := w ||| 0x7FC00000#32

/-- The negation of a pattern. -/
def f64Negate (b : Nat) : Nat := if f64Neg b then b - 2 ^ 63 else b + 2 ^ 63

/-- A pattern divided by a positive integer. -/
def f64DivNat (a d : Nat) : Option Nat :=
  if f64Nan a then none else if f64Inf a then some a
  else some (f64Sign (f64Neg a) (roundMag64 (f64Mag a) d))

/-- |a − b| in binary64; none for a NaN. -/
def f64Dist (a b : Nat) : Option Nat := (f64Add a (f64Negate b)).map (fun x => x % 2 ^ 63)

/-- Is |a − b| ≤ d, in binary64? -/
def f64Near (a b d : Nat) : Bool :=
  match f64Dist a b with
  | none => false
  | some x => !f64Nan d && decide (f64Key x ≤ f64Key d)

/-- The exact widening of a binary32 pattern (R350 step 4). -/
def f64Widen (b : Nat) : Nat :=
  let e := b / 2 ^ 23 % 256
  let f := b % 2 ^ 23
  let neg := decide (b / 2 ^ 31 % 2 = 1)
  if e = 255 then
    if f = 0 then f64Sign neg (2047 * 2 ^ 52)
    else f64Sign neg (2047 * 2 ^ 52 + 2 ^ 51 + f % 2 ^ 22 * 2 ^ 29)
  else
    let m := if e = 0 then f else (2 ^ 23 + f) * 2 ^ (e - 1)
    f64Sign neg (roundMag64 (m * 2 ^ 925) 1)

/-- The binary32 pattern nearest to a binary64 pattern; an overflow is an infinity of its sign; none for a NaN. -/
def f32Of (b : Nat) : Option Nat :=
  let s := if f64Neg b then 2 ^ 31 else 0
  if f64Nan b then none
  else if f64Inf b then some (s + 255 * 2 ^ 23)
  else some (s + roundMag32 (f64Mag b))

/-- A finite pattern rounded toward zero to an integer. -/
def f64Trunc (b : Nat) : Int :=
  let m : Nat := f64Mag b / 2 ^ 1074
  if f64Neg b then -(m : Int) else m

end Sys2Proof.Machine
end

