-- ==== Sys2Proof/Machine/Signals.lean ====
section
/-! DEFINITION. The signal table (R343 to R348): writes, the tick view, the sweep, and harvest (R349 to R352). -/

namespace Sys2Proof.Machine

/-- The CLASS of a quality byte (Table 14-2). -/
def qClass (q : Byte) : Nat := q.toNat / 64
/-- GOOD/NONE. -/
def qGood : Byte := 0xC0

/-- A write of an entry (R345). -/
def Sig.write (e : Sig) (tick16 : Half) (v : DWord) (q : Byte) (t : DWord) (src : Nat) : Sig :=
  let e := if e.old ∨ e.wtick ≠ tick16 then { e with prev := e.value, prevQ := e.quality, old := false, wtick := tick16 } else e
  let e := if v ≠ e.value then { e with changes := e.changes + 1 } else e
  { e with value := v, quality := q, ts := t, src := src }

/-- Writes a signal by R345. -/
def State.sigWrite (s : State) (n : Nat) (v : DWord) (q : Byte) (t : DWord) (src : Nat) : State :=
  s.setSig n ((s.sig n).write s.sg.tick16 v q t src)

/-- The view of an entry (R346): value and quality. -/
def Sig.view (e : Sig) (tick16 : Half) : DWord × Byte :=
  if !e.old ∧ e.wtick = tick16 then (e.prev, e.prevQ) else (e.value, e.quality)

/-- The view of a signal. -/
def State.sigView (s : State) (n : Nat) : DWord × Byte := (s.sig n).view s.sg.tick16

/-- The pass that sets OLD on every entry (R29, R530). -/
def State.oldPass (s : State) : State :=
  let d : Sig := { Sig.reset with old := true }
  let l := s.sg.entries.map (fun (p : Nat × Sig) => (p.1, { p.2 with old := true }))
  let l := l.filter (fun p => decide (p.2 ≠ d))
  { s with sg.entries := l, sg.oldAll := true }

/-- The sweep's visit of one entry (R347). -/
def Sig.sweep (e : Sig) (tick16 : Half) : Sig :=
  if !e.valid then e
  else if !e.old ∧ e.wtick ≠ tick16 then { e with old := true }
  else if e.old ∧ e.staleChk ∧ qClass e.quality = 3 then e.write tick16 e.value 0x42 e.ts 4
  else e

/-- The sweep of one tick: 2^SWEEP entries in signal-number order (R347). Entries that the table does not list are not
configured, and the sweep leaves them as they are. -/
def State.sweepTick (s : State) : State :=
  let n := 2 ^ s.regF Reg.SIG_CFG 3 0
  let from_ := s.sg.sweepPos
  let hit (k : Nat) : Bool := decide ((k + 524288 - from_) % 524288 < n)
  let s' := (s.sg.entries.filter (fun p => hit p.1)).foldl (fun s p => s.setSig p.1 ((s.sig p.1).sweep s.sg.tick16)) s
  { s' with sg.sweepPos := (from_ + n) % 524288 }

/-! ### Harvest -/

/-- Word w of extraction item i, in harvest memory. -/
def State.hvWord (s : State) (i w : Nat) : Word := s.word (0x803000000000 + i * 16 + w * 4)

/-- May an extraction item be committed (R349)? -/
def harvestOk (w : List Word) : Bool :=
  let w0 := nth 0 w 0
  let width := fld w0 16 11 + 1
  let bo := fld w0 10 8
  let ty := fld w0 19 17
  decide (fld w0 31 28 = 0) && decide (fld (nth 0 w 1) 31 19 = 0) && decide (ty ≤ 4) && decide (bo + width ≤ 64)
    && (decide (ty ≠ 2) || decide (width = 32 ∧ bo = 0)) && (decide (ty ≠ 3) || decide (width = 64 ∧ bo = 0))
    && (decide (ty < 2) || decide (fld w0 27 22 = 0))

/-- The entry TYPE an item writes (R350). -/
def harvestType (ty : Nat) : Nat := if ty = 0 then 0 else if ty = 1 then 1 else if ty = 4 then 3 else 2

/-- The value an item forms from the bytes of the header window (R350 steps 2 to 5). -/
def harvestValue (w0 : Word) (bs : List Byte) : DWord :=
  let bo := fld w0 10 8
  let width := fld w0 16 11 + 1
  let ty := fld w0 19 17
  let x := if bit w0 20 then beNat bs else leNat bs
  let f := x / 2 ^ bo % 2 ^ width
  let sh := sInt 6 (fld w0 27 22)
  let v : Int := if ty = 1 then sInt width f else f
  if ty ≤ 1 then
    if 0 ≤ sh then BitVec.ofInt 64 (v * 2 ^ sh.toNat)
    else BitVec.ofInt 64 (v / 2 ^ (-sh).toNat)
  else if ty = 2 then BitVec.ofNat 64 (f64Widen f)
  else if ty = 3 then BitVec.ofNat 64 f
  else if f = 0 then 0 else 1

/-- Is the distance of two values within an item's deadband (R351)? -/
def withinDeadband (ty : Nat) (a b dead : DWord) : Bool :=
  if ty = 0 then decide ((max a.toNat b.toNat) - (min a.toNat b.toNat) ≤ dead.toNat)
  else if ty = 1 then decide ((a.toInt - b.toInt).natAbs ≤ dead.toNat)
  else f64Near a.toNat b.toNat dead.toNat

/-- Applies extraction item i to the header window of a frame from port p (R350, R351); an item that the frame does not hold is a
partner violation (Table 21-4). -/
def State.harvestItem (s : State) (p i : Nat) (win : List Byte) (arrival : DWord) : State :=
  let w0 := s.hvWord i 0
  let n := fld (s.hvWord i 1) 18 0
  let off := fld w0 7 0
  let k := ceilDiv (fld w0 10 8 + (fld w0 16 11 + 1)) 8
  let ty := fld w0 19 17
  let e := s.sig n
  if min win.length 256 < off + k then (s.bump (Reg.SIG_HV_CNT 0)).partner 8 p p
  else if e.type ≠ harvestType ty ∨ !e.valid then s.bump (Reg.SIG_HV_CNT 1)
  else if e.subst then s.bump (Reg.SIG_HV_CNT 2)
  else
    let v := harvestValue w0 (slice win off k)
    let isF := decide (ty = 2 ∨ ty = 3)
    let q : Byte := if isF && decide (f64Exp v.toNat = 2047) then 0x03 else qGood
    let dead := pair (s.hvWord i 2) (s.hvWord i 3)
    let v := if ty ≠ 4 ∧ qClass q = 3 ∧ qClass e.quality = 3 ∧ withinDeadband ty v e.value dead then e.value else v
    (s.sigWrite n v q arrival 1).bumpWrap Reg.SIG_HV_WRITES

/-- Applies an extraction list from item i on, at most n items (R352). -/
def State.harvestList (s : State) (p : Nat) (win : List Byte) (arrival : DWord) : Nat → Nat → State
  | 0, _ => s.bump (Reg.SIG_HV_CNT 3)
  | n + 1, i =>
    let last := bit (s.hvWord i 0) 21
    let s := s.harvestItem p i win arrival
    if last then s
    else if i = 65535 then s.bump (Reg.SIG_HV_CNT 3)
    else s.harvestList p win arrival n (i + 1)

/-- The harvest of a frame by its extraction list (R352, R530). -/
def State.harvest (s : State) (p xlist : Nat) (frame : List Byte) (arrival : DWord) : State :=
  if s.regB Reg.SIG_CFG 31 ∧ xlist ≠ 0xFFFF then s.harvestList p (frame.take 256) arrival 64 xlist else s

end Sys2Proof.Machine
end

