-- ==== Sys2Proof/Machine/Switch.lean ====
section
/-! DEFINITION. The switch core: cells and accounting (R252 to R264), mirroring (R274, R275), ordering (R246, R247), residue
(R270 to R273), output queues, and lateness (R38). -/

namespace Sys2Proof.Machine

/-! ### Parts -/

/-- A spore by its number. -/
def State.spore (s : State) (i : Nat) : Option Spore := Sparse.get (fun _ => none) s.sw.spores i
/-- Writes a spore. -/
def State.setSpore (s : State) (i : Nat) (x : Option Spore) : State :=
  { s with sw.spores := Sparse.set (fun _ => none) s.sw.spores i x }
/-- Where a spore comes to stand. -/
def State.moveSpore (s : State) (i : Nat) (a : SporeAt) : State :=
  match s.spore i with
  | some x => s.setSpore i (some { x with stands := a })
  | none => s
/-- A frame that no cell holds. -/
def FrameRec.none : FrameRec := ⟨[], [], 0, 0, 0, 0, 0, 0, false, false⟩
/-- The frame whose first cell is c. -/
def State.frame (s : State) (c : Nat) : FrameRec := Sparse.get (fun _ => FrameRec.none) s.sw.frames c
/-- Writes a frame. -/
def State.setFrame (s : State) (c : Nat) (x : FrameRec) : State :=
  { s with sw.frames := Sparse.set (fun _ => FrameRec.none) s.sw.frames c x }
/-- An ordering domain. -/
def State.domain (s : State) (d : Nat) : Domain := Sparse.get (fun _ => Domain.reset) s.sw.domains d
/-- Writes an ordering domain. -/
def State.setDomain (s : State) (d : Nat) (x : Domain) : State :=
  { s with sw.domains := Sparse.set (fun _ => Domain.reset) s.sw.domains d x }
/-- The dispatch queue of a frond. -/
def State.dispQ (s : State) (f : Nat) : List Nat := Sparse.get (fun _ => []) s.sw.dispQ f
/-- Writes the dispatch queue of a frond, keeping its high-water mark. -/
def State.setDispQ (s : State) (f : Nat) (l : List Nat) : State :=
  let h := max l.length (Sparse.get (fun _ => 0) s.sw.dispHwm f)
  { s with
    sw.dispQ := Sparse.set (fun _ => []) s.sw.dispQ f l
    sw.dispHwm := Sparse.set (fun _ => 0) s.sw.dispHwm f h }
/-- A frond's telemetry of the tick in progress. -/
def State.tele (s : State) (f : Nat) : Tele := Sparse.get (fun _ => Tele.reset) s.sw.tele f
/-- Writes a frond's telemetry. -/
def State.setTele (s : State) (f : Nat) (x : Tele) : State :=
  { s with sw.tele := Sparse.set (fun _ => Tele.reset) s.sw.tele f x }

/-- Word i of a spore's descriptor. -/
def Spore.w (x : Spore) (i : Nat) : Word := nth 0 x.desc i
/-- FAMILY of a spore. -/
def Spore.family (x : Spore) : Nat := fld (x.w 2) 10 8
/-- ENTRY of a spore. -/
def Spore.entry (x : Spore) : Nat := fld (x.w 3) 23 16
/-- Its descriptor with a word replaced. -/
def Spore.setW (x : Spore) (i : Nat) (v : Word) : Spore := { x with desc := setNth x.desc i v }

/-! ### Cells (R252, R259 to R262) -/

/-- The number of cells of a frame of n bytes. -/
def cellsOf (n : Nat) : Nat := ceilDiv n 256
/-- Cells in use of the shared part, the CONTROL reservation and the injection reservation. -/
def State.sharedUse (s : State) : Nat := (s.sw.frames.map (fun p => p.2.shared)).foldl (· + ·) 0
/-- Cells in use of the CONTROL reservation. -/
def State.ctrlUse (s : State) : Nat := (s.sw.frames.map (fun p => p.2.ctrl)).foldl (· + ·) 0
/-- Cells in use of the injection reservation. -/
def State.injUse (s : State) : Nat := (s.sw.frames.map (fun p => p.2.inj)).foldl (· + ·) 0
/-- The size of the shared part (Table 10-3). -/
def State.sharedSize (s : State) : Nat := 524288 - s.regF Reg.SWC_CTRL_RSV 19 0 - s.regF Reg.SWC_INJ 15 0
/-- Free cells of the shared part. -/
def State.sharedFree (s : State) : Nat := s.sharedSize - s.sharedUse
/-- Free cells of the CONTROL reservation. -/
def State.ctrlFree (s : State) : Nat := s.regF Reg.SWC_CTRL_RSV 19 0 - s.ctrlUse
/-- U(p, i) of R260. -/
def State.useOf (s : State) (p i : Nat) : Nat :=
  ((s.sw.frames.filter (fun e => decide (e.2.port = p ∧ e.2.prio = i) && !e.2.control)).map (fun e => e.2.shared)).foldl (· + ·) 0

/-- The lowest n cells that no frame holds. -/
def State.takeCells (s : State) (n : Nat) : List Nat :=
  let used := s.sw.frames.flatMap (fun e => e.2.cells)
  ((upTo (used.length + n)).filter (fun c => !used.contains c)).take n

/-- Sets and clears the threshold of ingress priority k = port × 8 + priority (R261). -/
def State.accountOf (s : State) (k : Nat) : State :=
  let u := s.useOf (k / 8) (k % 8)
  let w := s.reg (Reg.SWC_IPT (k / 8) (k % 8))
  let was := Sparse.get (fun _ => false) s.sw.held k
  let now := if fld w 15 0 ≤ u then true else if u ≤ fld w 31 16 then false else was
  { s with sw.held := Sparse.set (fun _ => false) s.sw.held k now }

/-- Sets and clears the thresholds of R261 after a change of the accounting or of a threshold; a priority that holds no cells and is not held
changes only where its own XOFF is written. -/
def State.accounts (s : State) : State :=
  let g := s.sharedUse
  let glb := if s.regF Reg.SWC_GLB_XOFF 19 0 ≤ g then true else if g ≤ s.regF Reg.SWC_GLB_XON 19 0 then false else s.sw.glbHeld
  let s := { s with sw.glbHeld := glb }
  let keys := s.sw.frames.map (fun e => e.2.port * 8 + e.2.prio) ++ s.sw.held.map (fun e => e.1)
  keys.foldl (fun s k => s.accountOf k) s

/-- The FRAME_READ commands that hold the frame whose first cell is c (R217). -/
def State.frameReads (s : State) (c : Nat) : Nat :=
  (s.fronds.map (fun e => ((e.2.queues ++ e.2.running).filter (fun (k : Cmd) =>
    k.held && decide (k.kind = 1) && decide (fld (nth 0 k.desc 0) 15 8 = 3) && decide (fld (nth 0 k.desc 2) 18 0 = c))).length)).sum

/-- Frees the frames that no copy and no FRAME_READ holds any more. -/
def State.reapFrames (s : State) : State :=
  (s.sw.frames.foldl (fun s e =>
    if e.2.refs = 0 ∧ s.frameReads e.1 = 0 then s.setFrame e.1 FrameRec.none else s) s).accounts

/-- Releases n references to a frame's cells; the last one frees them (R256, R217). -/
def State.unref (s : State) (c n : Nat) : State :=
  let x := s.frame c
  let y := { x with refs := x.refs - n }
  (if y.refs = 0 ∧ s.frameReads c = 0 then s.setFrame c FrameRec.none else s.setFrame c y).accounts

/-! ### Mirroring (R274, R275) -/

/-- Writes a mirror record for a frame as it stands: its descriptor, its bytes, the decision code, output queue, egress time,
multicast group and lateness. -/
def State.mirror (s : State) (desc : List Word) (bytes : List Byte) (decision queue : Nat) (egress : DWord) (group : Nat)
    (late : Bool) : State :=
  let w12 := nth 0 desc 12
  let m := fld w12 19 16
  let cfg := s.reg (Reg.SWC_MIR_CFG m)
  if !bit w12 20 ∨ !bit cfg 0 then s
  else
    let cnt := Sparse.get (fun _ => 0) s.sw.mirCount m
    let size := s.regF (Reg.SWC_MIR_SIZE m) 19 0
    let wr := s.regF (Reg.SWC_MIR_WR m) 19 0
    if fld cfg 31 16 ≠ 0 ∧ fld cfg 31 16 ≤ cnt then s.bump (Reg.SWC_MIR_DROP_RATE m)
    else if (wr + 1) % size = s.regF (Reg.SWC_MIR_RD m) 19 0 then s.bump (Reg.SWC_MIR_DROP_FULL m)
    else
      let cap := fld cfg 2 1
      let n := 64 * 2 ^ cap
      let w := nth 0 desc
      let reason := if decision = 3 then fld (w 11) 15 8 else fld (w 11) 7 0
      let rec_ := leBytes 4 (w 4).toNat ++ leBytes 4 (w 5).toNat ++ leBytes 8 egress.toNat ++ leBytes 4 s.tick32.toNat
        ++ leBytes 2 (fld (w 1) 27 16 + m * 4096) ++ leBytes 2 queue ++ leBytes 2 (fld (w 1) 14 0)
        ++ leBytes 1 (decision + fld (w 2) 10 8 * 8 + cap * 64) ++ leBytes 1 reason ++ leBytes 2 group
        ++ leBytes 2 (if late then 1 else 0) ++ padTo n (bytes.take n)
      let base := s.reg64 (Reg.SWC_MIR_RING_LO m) (Reg.SWC_MIR_RING_HI m) % 2 ^ 48
      let s := s.devWrite (base + wr * (32 + n)) rec_
      let s := s.setReg (Reg.SWC_MIR_WR m) (wd ((wr + 1) % size))
      { s with sw.mirCount := Sparse.set (fun _ => 0) s.sw.mirCount m (cnt + 1) }

/-- Writes the mirror record of a stored frame, once (R274). -/
def State.mirrorOnce (s : State) (cell : Nat) (desc : List Word) (bytes : List Byte) (decision queue : Nat) (egress : DWord)
    (group : Nat) (late : Bool) : State :=
  let x := s.frame cell
  if x.mirrored then s
  else (s.setFrame cell { x with mirrored := true }).mirror desc bytes decision queue egress group late

/-! ### Output queues (R254, R255) -/

/-- The egress context of a queue's unicast frames: its logical port (R297). -/
def queueCtx (q : Nat) : Nat := if q < 512 then q / 8 else (q - 512) / 8

/-- A queue's depth in cells. -/
def State.qDepth (s : State) (q : Nat) : Nat :=
  ((s.outq q).copies.map (fun c => (s.frame c.cell).cells.length)).foldl (· + ·) 0

/-- Is the port of a queue held down after an abort (Table 21-1, R482)? -/
def State.qHeldDown (s : State) (q : Nat) : Bool :=
  match s.servePort q with
  | some (p, _) => (s.reg (if p < 32 then Reg.RAS_PORTHOLD_LO else Reg.RAS_PORTHOLD_HI)).getLsbD (p % 32)
  | none => false

/-- Does a frame of n cells fit a queue (R255)? A release to a port held down is discarded, so it always does. -/
def State.qFits (s : State) (q n : Nat) : Bool :=
  s.qHeldDown q || decide (s.qDepth q + n ≤ s.regF (Reg.SWC_QPROF (s.outq q).profile) 19 0)

/-- Notes the depth of a queue for its high-water mark and the watched-queue telemetry. -/
def State.noteDepth (s : State) (q : Nat) : State :=
  let d := s.qDepth q
  let s := s.setOutq q { s.outq q with hwm := max d (s.outq q).hwm }
  { s with
    sw.qwMax := Sparse.set (fun _ => 0) s.sw.qwMax q (max d (Sparse.get (fun _ => 0) s.sw.qwMax q))
    sw.qwMin := Sparse.set (fun _ => 0xFFFFFFFF) s.sw.qwMin q (min d (Sparse.get (fun _ => 0xFFFFFFFF) s.sw.qwMin q)) }

/-- Puts a copy at the tail of a queue; at a port held down it is discarded at the thread discard point (Table 21-1). -/
def State.enqCopy (s : State) (q : Nat) (c : Copy) : State :=
  let x := s.outq q
  if s.qHeldDown q then { s with sw.thrDrops := s.sw.thrDrops + 1 }.unref c.cell 1
  else
    let s := match s.servePort q with
      | some (p, _) => s.syncPort p
      | none => s
    (s.setOutq q { x with copies := x.copies ++ [c] }).noteDepth q

/-! ### Push-out (R263) -/

/-- The cells of BULK frames in a queue. -/
def State.bulkCells (s : State) (q : Nat) : Nat :=
  (((s.outq q).copies.filter (fun c => decide (c.family = 2))).map (fun c => (s.frame c.cell).cells.length)).foldl (· + ·) 0

/-- The victim of R263: the queue with the most BULK cells whose tail frame qualifies. -/
def State.victim (s : State) : Option (Nat × Copy) :=
  let good := s.sw.queues.filterMap (fun e =>
    match e.2.copies.getLast? with
    | some c => if c.family = 2 ∧ (s.frame c.cell).refs = 1 then some (e.1, c) else none
    | none => none)
  argMax (fun e => s.bulkCells e.1) good

/-- A queue with these copies left: its deficit is cleared when it empties (R286). -/
def OutQ.leave (x : OutQ) (l : List Copy) : OutQ := { x with copies := l, deficit := if l.isEmpty then 0 else x.deficit }

/-- Pushes out one victim; a shaped class that it leaves empty loses positive credit (R289). -/
def State.pushOut (s : State) (q : Nat) (c : Copy) : State :=
  let x := s.outq q
  let serve := s.servePort q
  let s := match serve with | some (p, _) => s.syncPort p | none => s
  let s := s.setOutq q { x.leave x.copies.dropLast with pushouts := satAdd 0xFFFFFFFF x.pushouts 1 }
  let s := match serve with | some (p, tc) => s.creditEmpty p tc | none => s
  let s := (s.noteDepth q).bump Reg.SWC_PUSHOUT
  let s := { s with tk.pushFirst := if s.tk.pushCount = 0 then q else s.tk.pushFirst, tk.pushCount := s.tk.pushCount + 1 }
  let s := s.mirrorOnce c.cell c.desc (s.frame c.cell).bytes 4 q 0 (if c.decision = 1 then c.group else 0) c.late
  s.unref c.cell 1

/-- Pushes out victims until n shared cells are free or none qualifies (at most k of them). -/
def State.pushOuts (s : State) (n : Nat) : Nat → State
  | 0 => s
  | k + 1 =>
    if n ≤ s.sharedFree then s
    else match s.victim with
      | some (q, c) => (s.pushOut q c).pushOuts n k
      | none => s

/-! ### Spores that leave their domain -/

/-- Removes a spore from its domain's outstanding list: it was passed or discarded (R246). -/
def State.leaveDomain (s : State) (i : Nat) (x : Spore) : State :=
  match x.domain with
  | some d =>
    let m := s.domain d
    s.setDomain d { m with out := m.out.filter (fun j => decide (j ≠ i)) }
  | none => s

/-- Frees a thread's spore slot (R242). -/
def State.freeSlotOf (s : State) (t : Tid) (second : Bool) : State :=
  let k := t.toNat * 2 + (if second then 1 else 0)
  let s := { s with sw.freeOrder := s.sw.freeOrder.filter (fun j => decide (j ≠ k)) ++ [k] }
  s.modThr t (fun th =>
    if second then { th with spore1 := none, cur := if th.cur = some true then none else th.cur }
    else { th with spore0 := none, cur := if th.cur = some false then none else th.cur })

/-- The discard of a CONTROL spore at its deadline (R38): its cells are freed, LATE is counted, for its stream too if it has one, the domain
goes on. A spore in a
thread's slot stays there, marked dead, until it is released. -/
def State.discardLate (s : State) (i : Nat) (x : Spore) : State :=
  let h := fld (x.w 6) 17 0
  let s := s.leaveDomain i x
  let s := s.mirror x.desc (s.frame x.cell).bytes 6 0xFFFF 0 0 true
  let s := (s.unref x.cell 1).bump Reg.TICK_LATE_COUNT
  let s := { s with tk.lateCount := s.tk.lateCount + 1 }
  let s := if !bit (x.w 6) 18 then s
    else { s with
      ct.late := Sparse.set (fun _ => 0) s.ct.late h (Sparse.get (fun _ => 0) s.ct.late h + 1)
      tk.lateFirst := some (s.tk.lateFirst.getD h) }
  let late (s : State) (f : Nat) : State := let y := s.tele f; s.setTele f { y with late := y.late + 1 }
  match x.stands with
  | .slot t _ => (late s (tidF t)).setSpore i (some { x with dead := true })
  | .queue f => (late (s.setDispQ f ((s.dispQ f).filter (fun j => decide (j ≠ i)))) f).setSpore i none
  | _ => s.setSpore i none

/-! ### Releases and the ordering unit -/

/-- The TX adaptation record of a spore's stream, if one is named and valid (R337). -/
def State.txRecord (s : State) (x : Spore) : Option Nat :=
  let h := fld (x.w 6) 17 0
  let a := s.strF h 2 29 16
  if bit (x.w 6) 18 ∧ s.strF h 2 30 30 = 1 ∧ s.adpValid a ∧ s.adpTx a then some a else none

/-- The path of the TX record of a spore's stream whose queue is q (R336). -/
def State.txPathOf (s : State) (x : Spore) (q : Nat) : Option (Nat × Nat) :=
  (s.txRecord x).bind (fun a => ((upTo (s.adpPaths a)).find? (fun k => decide (fld (s.adpPath a k) 15 0 = q))).map (fun k => (a, k)))

/-- The queues of a multicast group after pruning (R269), for a spore. -/
def State.groupTargets (s : State) (x : Spore) (g : Nat) : List Target :=
  let w := s.recW .mcg g 0
  if !bit w 31 then []
  else (upTo (fld w 24 16)).filterMap (fun i =>
    let m := s.recW .mcm ((fld w 15 0 + i) % 65536) 0
    let q := fld m 15 0
    if bit w 25 ∧ queueCtx q = fld (x.w 1) 27 16 then none else some ⟨q, fld m 27 16, s.txPathOf x q⟩)

/-- The destinations of a FWD to queue q (R337): the active paths of a TX record in SELECT mode, else q. -/
def State.fwdTargets (s : State) (x : Spore) (q : Nat) : List Target :=
  match s.txRecord x with
  | some a =>
    if s.adpSelect a ∧ x.family = 0 then
      ((s.adapt a).active.take (s.adpCopies a)).map (fun k =>
        let w := s.adpPath a k
        ⟨fld w 15 0, fld w 27 16, some (a, k)⟩)
    else
      [⟨q, queueCtx q, s.txPathOf x q⟩]
  | none => [⟨q, queueCtx q, none⟩]

/-- The sequence number that a stream's generation assigns to a passing release (R330). -/
def State.genSeq (s : State) (x : Spore) : State × Option Nat :=
  let h := fld (x.w 6) 17 0
  if bit (x.w 6) 18 ∧ s.regB Reg.CTL_CFG 0 ∧ s.strF h 1 0 0 = 1 ∧ s.strF h 1 2 2 = 1 then
    let r := s.strF h 0 31 16
    let w := s.recW .frer r 2
    (s.setRec .frer r 2 (setFld w 31 16 (fld w 31 16 + 1)), some (fld w 31 16))
  else (s, none)

/-- The copy of a passing release for one destination. -/
def copyOf (x : Spore) (t : Target) (decision group : Nat) (ts : Bool) (rtag : Option Nat) : Copy where
  cell := x.cell
  desc := x.desc
  ctx := t.ctx
  family := x.family
  ts := ts
  mirrTs := x.mirrTs
  decision := decision
  group := group
  rtag := rtag
  late := x.late
  path := t.path

/-- Ends a spore that the ordering unit has passed. -/
def State.passed (s : State) (i : Nat) (x : Spore) : State := (s.leaveDomain i x).setSpore i none

/-- Counts a release that waits for a residue entry, once (R272). -/
def State.hold (s : State) (i : Nat) (x : Spore) : State :=
  if x.counted then s else (s.setSpore i (some { x with counted := true })).bump Reg.SWC_MC_RESHOLD

/-- Enqueues the copies that fit and leaves the others as residue. -/
def State.multi (s : State) (i : Nat) (x : Spore) (decision : Nat) (ts_ : List Target) (group : Nat) (ts : Bool) (n : Nat) :
    State :=
  let g := s.genSeq x
  let s := g.1
  let fr := s.frame x.cell
  let s := s.setFrame x.cell { fr with refs := fr.refs - 1 + ts_.length }
  let cs := (ts_.zip (upTo ts_.length)).map (fun p => (p.1.queue, copyOf x p.1 decision group ts g.2))
  let r := cs.foldl (fun (a : State × List (Nat × Copy)) c =>
    if a.1.qFits c.1 n then (a.1.enqCopy c.1 c.2, a.2) else (a.1, a.2 ++ [c])) (s, [])
  let s := r.1
  let s :=
    if r.2.isEmpty then s
    else
      let l := s.sw.residue ++ [⟨x.cell, r.2, x.domain, decide (x.family = 0), x.deadline⟩]
      { s with sw.residue := l, sw.residueHwm := max s.sw.residueHwm l.length }
  s.passed i x

/-- Would every copy of n cells find room, those for one queue taken together (R255, R270)? -/
def State.allFit (s : State) (ts_ : List Target) (n : Nat) : Bool :=
  ts_.all (fun t => s.qFits t.queue ((ts_.filter (fun u => decide (u.queue = t.queue))).length * n))

/-- Passes a release with its destinations (R247, R255, R270 to R272); unchanged while it must wait. -/
def State.passTargets (s : State) (i : Nat) (x : Spore) (decision : Nat) (ts_ : List Target) (group : Nat) (ts : Bool) : State :=
  let n := (s.frame x.cell).cells.length
  match ts_ with
  | [] => ({ s with sw.thrDrops := s.sw.thrDrops + 1 }.unref x.cell 1).passed i x
  | [t] =>
    if decision = 0 then
      if s.qFits t.queue n then
        let g := s.genSeq x
        (g.1.enqCopy t.queue (copyOf x t decision group ts g.2)).passed i x
      else s
    else if !s.allFit ts_ n ∧ 1024 ≤ s.sw.residue.length then s.hold i x
    else s.multi i x decision ts_ group ts n
  | _ =>
    if !s.allFit ts_ n ∧ 1024 ≤ s.sw.residue.length then s.hold i x
    else s.multi i x decision ts_ group ts n

/-- Has a domain a residue entry (R271)? -/
def State.domainResidue (s : State) (d : Nat) : Bool := s.sw.residue.any (fun r => decide (r.domain = some d))

/-- The ordering unit's pass of the oldest release of a domain (R247); nothing changes while it must wait. A TOSLOW release enters the slow
queue and holds its domain until it is delivered there. -/
def State.orderingPass (s : State) (d : Nat) : State :=
  match (s.domain d).out with
  | [] => s
  | i :: _ =>
    match s.spore i with
    | none => s
    | some x =>
      match x.stands with
      | .released dec ts_ group ts =>
        if s.domainResidue d then s
        else if dec = 3 then
          if s.sw.slowQ.length < 256 then
            { s.moveSpore i .slow with sw.slowQ := s.sw.slowQ ++ [⟨i, true⟩] }
          else s
        else s.passTargets i x dec ts_ group ts
      | _ => s

/-- Retries every residue entry in age order (R270). -/
def State.residueRetry (s : State) : State :=
  let r := s.sw.residue.foldl (fun (a : State × List Residue) e =>
    let n := (a.1.frame e.cell).cells.length
    let q := e.left.foldl (fun (b : State × List (Nat × Copy)) c =>
      if b.1.qFits c.1 n then (b.1.enqCopy c.1 c.2, b.2) else (b.1, b.2 ++ [c])) (a.1, [])
    (q.1, if q.2.isEmpty then a.2 else a.2 ++ [{ e with left := q.2 }])) (s, [])
  { r.1 with sw.residue := r.2 }

/-- The expiry of a CONTROL residue entry at its deadline (R273), the entry at index k. -/
def State.residueExpire (s : State) (k : Nat) : State :=
  match s.sw.residue[k]? with
  | none => s
  | some e =>
    let s := { s with sw.residue := dropNth s.sw.residue k }
    let s := e.left.foldl (fun s c =>
      match c.2.path with
      | some (a, j) => s.modMeas a j (fun m => { m with rogues := m.rogues + 1 })
      | none => s) s
    let s := match e.left with
      | c :: _ => s.mirrorOnce e.cell c.2.desc (s.frame e.cell).bytes 5 0xFFFF 0 c.2.group c.2.late
      | [] => s
    (s.unref e.cell e.left.length).bump Reg.SWC_MC_EXPIRED

/-- The number of spores of a frond: held by its PACKET threads and in its dispatch queue (R242). -/
def State.frondSpores (s : State) (f : Nat) : Nat :=
  (s.dispQ f).length + (s.sw.spores.filter (fun e => match e.2 with
    | some x => (match x.stands with | .slot t _ => decide (tidF t = f) | _ => false)
    | none => false)).length

end Sys2Proof.Machine
end

