-- ==== Sys2Proof/Machine/Ingress.lean ====
section
/-! DEFINITION. From the receive FIFO to a thread: the walk of a frame through its pipeline (R253, R322, R352), spores (R239,
R240), entry points (R241), placement and dispatch (R242, R243, R246, R48). -/

namespace Sys2Proof.Machine

/-- The image in a bank of the core with key k: its frond's committed one in the active bank, the other one in the idle bank (R153, R155). -/
def State.bankImage (s : State) (k : Nat) (b : Bool) : Option Image :=
  if b = (s.core k).bankB then (s.frond (k / 16)).imgLive else (s.frond (k / 16)).imgIdle

/-- The committed image in frond f's active banks (R166). -/
def State.liveImage (s : State) (f : Nat) : Option Image := (s.frond f).imgLive

/-- The committed entry record of an entry point on a frond. -/
def State.epRecord (s : State) (f e : Nat) : Option EntryRec :=
  (s.liveImage f).bind (fun im => im.entries.find? (fun r => decide (r.ep = e)))

/-- The fronds of an entry point's set that hold a committed record of it. -/
def State.epFronds (s : State) (e : Nat) : List Nat :=
  (upTo 16).filter (fun f => s.regB (Reg.DSP_EPSET e) f && (s.epRecord f e).isSome)

/-- The fronds of the set whose record has the given family. -/
def State.epServing (s : State) (e fam : Nat) : List Nat :=
  (s.epFronds e).filter (fun f => match s.epRecord f e with | some r => decide (r.family = fam) | none => false)

/-- The reason R241 finds for an entry point and family: EP_NONE, EP_FAMILY, or none. -/
def State.epReason (s : State) (e fam : Nat) : Option Nat :=
  if (s.epFronds e).isEmpty then some 11 else if (s.epServing e fam).isEmpty then some 12 else none

/-- Is frame admission to the pipelines open in the mode (Table 20-1)? -/
def Mode.ingressRuns : Mode → Bool
  | .run => true
  | .island => true
  | .drain => true
  | _ => false

/-! ### Placement -/

/-- The waiting spores that are held before dispatch, oldest first. -/
def State.heldSpores (s : State) : List Nat :=
  (s.sw.spores.filter (fun e => match e.2 with | some x => decide (x.stands = .held) | none => false)).map (fun e => e.1)

/-- Does dispatch hold priority i of port p (R243, R246, R251)? -/
def State.dispHolds (s : State) (p i : Nat) : Bool :=
  s.heldSpores.any (fun k => match s.spore k with
    | some x => decide (fld (x.w 2) 5 0 = p ∧ x.iprio = i)
    | none => false)

/-- The frond that dispatch chooses for an entry point (R242): the fewest spores among those with queue room, ties to the lowest
frond after the last choice. -/
def State.chooseFrond (s : State) (e fam : Nat) : Option Nat :=
  let last := Sparse.get (fun _ => 15) s.sw.lastEp e
  let ok := (s.epServing e fam).filter (fun f => decide ((s.dispQ f).length < 256) && !(s.frond f).fenced
    && !(s.frond f).pllOff)
  argMax (fun f => (100000 - s.frondSpores f) * 16 + (15 - (f + 15 - last) % 16)) ok

/-- Does a domain hold its next spore until its oldest outstanding one leaves (R246)? -/
def Domain.gated (m : Domain) : Bool := match m.gate with | some g => m.out.contains g | none => false

/-- Stamps a spore in its domain (R246). -/
def State.stamp (s : State) (i d : Nat) (x : Spore) : State :=
  let m := s.domain d
  let s := s.setDomain d ⟨(m.next + 1) % 65536, m.out ++ [i], none⟩
  s.setSpore i (some (x.setW 3 (setFld (x.w 3) 15 0 m.next)))

/-- Puts a stamped spore into a dispatch queue, or leaves it held (R243). -/
def State.toQueue (s : State) (i : Nat) : State :=
  match s.spore i with
  | none => s
  | some x =>
    match s.chooseFrond x.entry x.family with
    | some f =>
      let s := s.moveSpore i (.queue f)
      let s := s.setDispQ f (s.dispQ f ++ [i])
      let s := { s with sw.lastEp := Sparse.set (fun _ => 15) s.sw.lastEp x.entry f }
      let y := s.tele f
      s.setTele f { y with depth := max y.depth (s.dispQ f).length }
    | none => s.moveSpore i .held

/-- Places a new or held spore: a SLOW one into the slow queue, another through its domain's window into a dispatch queue;
a spore that finds no place is held. -/
def State.place_ (s : State) (i : Nat) : State :=
  match s.spore i with
  | none => s
  | some x =>
    match x.domain with
    | none =>
      if s.sw.slowQ.length < 256 then
        { s.moveSpore i .slow with sw.slowQ := s.sw.slowQ ++ [⟨i, false⟩] }
      else s.moveSpore i .held
    | some d =>
      let m := s.domain d
      if m.out.contains i then s.toQueue i
      else
        let earlier := s.heldSpores.any (fun j => decide (j < i) && (match s.spore j with
          | some y => decide (y.domain = some d) && !m.out.contains j
          | none => false))
        if 256 ≤ m.out.length ∨ m.gated ∨ earlier then
          let s := if x.counted then s else s.bump Reg.DSP_WINHOLD
          let s := if 256 ≤ m.out.length ∧ !m.gated then s.setDomain d { m with gate := m.out.head? } else s
          s.setSpore i (some { x with stands := .held, counted := true })
        else (s.stamp i d { x with counted := false }).toQueue i

/-- Retries the held spores, oldest first. -/
def State.retryHeld (s : State) : State := s.heldSpores.foldl (fun s i => s.place_ i) s

/-! ### The pipeline -/

/-- The offsets of word 8 and word 9 of a spore (Table 09-7). -/
def Level.offsets (l : Level) (first : Bool) : Word :=
  wd ((if first then l.etype else l.eth) + l.l3 * 2 ^ 8 + l.l4 * 2 ^ 16 + l.pay * 2 ^ 24)

/-- What the pipeline knows of a frame when it has been classified; `unknown` tells of an E-CID base without a map entry (R230). -/
structure Walked where
  p : Parsed
  lport : Nat
  look : Lookups
  cls : ClsResult
  family : Nat
  reason : Nat
  stream : Nat
  strHit : Bool
  unknown : Bool
  deriving DecidableEq, Repr

/-- Parse, lookups, classification and the entry-point check of a frame on port p. -/
def State.walkFrame (s : State) (bad : List Nat) (p : Nat) (f : List Byte) : State × Walked :=
  let pr := parseFrame s.parseCfg f
  let lp := s.logicalPort p pr.outer.ecid
  let reason := if pr.reason = 0 ∧ lp.2 then 13 else pr.reason
  let lk := s.lookups bad pr lp.1
  let s := lk.1
  let k : KeySrc := ⟨pr, lp.1, p, reason, lk.2.dstHit, lk.2.strHit, s.regF (Reg.PORT_CFG p) 15 0⟩
  let c := s.classify k
  let s := c.1
  let cls := c.2
  let own := bit cls.w3 31
  let stream := if own then fld cls.w3 17 0 else lk.2.stream
  let hit := own || lk.2.strHit
  let ep := if cls.family = 5 then none else s.epReason (fld cls.w0 7 0) cls.family
  let fam := if ep.isSome then 5 else cls.family
  let rs := match ep with | some r => r | none => cls.reason
  (s, ⟨pr, lp.1, lk.2, cls, fam, rs, stream, hit, lp.2⟩)

/-- Counts the reason of a parsed frame, and an unknown E-CID whatever the reason, which is a partner violation too (R230, R487). -/
def State.countReasons (s : State) (p : Nat) (w : Walked) : State :=
  let s := s.bump (Reg.PRS_RSN_CNT 0)
  let s := if w.reason = 0 ∨ w.reason = 13 then s else s.bump (Reg.PRS_RSN_CNT w.reason)
  if w.unknown then (s.bump (Reg.PRS_RSN_CNT 13)).partner 5 p p else s

/-- Can cells be granted to a frame (R261, R262)? A CONTROL frame may first push out BULK frames; the state is the one
after the push-outs. -/
def State.grant (s : State) (p i n : Nat) (control : Bool) : State × Bool :=
  if s.dispHolds p i then (s, false)
  else if control then
    let need := n - s.ctrlFree
    let s := if s.sharedFree < need then s.pushOuts need 524288 else s
    (s, decide (need ≤ s.sharedFree))
  else
    (s, !(Sparse.get (fun _ => false) s.sw.held (p * 8 + i)) && !s.sw.glbHeld && decide (n ≤ s.sharedFree))

/-- The descriptor of a new spore (Table 09-7), without SEQ and BOUND. -/
def descriptor (p : Nat) (w : Walked) (cell len : Nat) (arrival : DWord) (tc : Nat) (dom : Option Nat) (learned : Bool) :
    List Word :=
  let pr := w.p
  let l := w.look
  [wd cell, wd (len + w.lport * 2 ^ 16), wd (p + w.family * 2 ^ 8 + tc * 2 ^ 11 + dom.getD 0 * 2 ^ 16),
   wd (fld w.cls.w0 7 0 * 2 ^ 16), lo32 arrival, hi32 arrival, wd (w.stream + (if w.strHit then 2 ^ 18 else 0)),
   wd (l.dest + (if l.group then 2 ^ 16 else 0) + (if l.dstHit then 2 ^ 17 else 0) + (if l.srcHit then 2 ^ 18 else 0)
     + (if l.srcMove then 2 ^ 19 else 0) + (if learned then 2 ^ 20 else 0)),
   pr.outer.offsets true, if pr.beyond = 0 then 0 else pr.inner.offsets false,
   wd (pr.ntags + pr.nlabels * 2 ^ 4 + pr.nexts * 2 ^ 8 + pr.beyond * 2 ^ 11 + pr.flags * 2 ^ 16), wd w.reason,
   wd (fld w.cls.w1 31 16 + fld w.cls.w2 4 0 * 2 ^ 16), 0, wd (min len 256),
   wd (w.cls.rule + (if w.cls.dflt then 2 ^ 12 else 0))]

/-- The R-TAG sequence number of level 1, if the frame carries one. -/
def rtagSeq (pr : Parsed) (f : List Byte) : Option Nat := pr.rtagOff.map (fun o => beAt f (o + 4) 2)

/-- Stores a frame's cells and builds its spore (R239, R245, R259). -/
def State.buildSpore (s : State) (p i : Nat) (f : RxFrame) (w : Walked) (tc : Nat) (learned : Bool) : State :=
  let n := cellsOf f.bytes.length
  let control := decide (w.family = 0)
  let fromCtrl := if control then min n s.ctrlFree else 0
  let cells := s.takeCells n
  let c := nth 0 cells 0
  let s := (s.setFrame c ⟨cells, f.bytes, fromCtrl, n - fromCtrl, 0, p, i, 1, control, false⟩).accounts
  let dom := if w.family = 5 then none else some (s.domainOf w.cls w.p w.lport)
  let dl := if w.family = 5 then 0 else f.time + BitVec.ofNat 64 (f.period * 1000)
  let x : Spore := {
    desc := descriptor p w c f.bytes.length f.time tc dom learned
    stands := .held, cell := c, deadline := dl, domain := dom, dead := false, late := false, iprio := i
    mirrTs := false, counted := false, bank := false }
  let k := s.sw.nextSpore
  let s := { s.setSpore k (some x) with sw.nextSpore := k + 1 }
  if control ∧ dl ≤ s.tb.now then s.discardLate k x else s.place_ k

/-- The walk of the frame at the head of FIFO queue (p, i): taken only if its pipeline may take it and its cells can be
granted (R253). -/
def State.ingressTake (s : State) (bad : List Nat) (p i : Nat) : State :=
  match Sparse.get (fun _ => []) s.sw.rx (p * 8 + i) with
  | [] => s
  | f :: rest =>
    if !s.mode.ingressRuns ∨ s.sw.dpFenced then s
    else
      let r := s.walkFrame bad p f.bytes
      let w := r.2
      let g := s.grant p i (cellsOf f.bytes.length) (decide (w.family = 0))
      if !g.2 then g.1
      else
        let r := g.1.walkFrame bad p f.bytes
        let s := { r.1 with sw.rx := Sparse.set (fun _ => []) r.1.sw.rx (p * 8 + i) rest }
        let w := r.2
        let s := s.countReasons p w
        let o := w.p.outer
        let vid := (o.vids[0]?).getD 0
        let ln := if !w.look.srcHit then s.learn (p / 8) p w.lport (o.smac.getD 0) vid 0 0 false
          else if w.look.srcMove then
            s.learn (p / 8) p w.lport (o.smac.getD 0) vid (if w.look.moveStatic then 2 else 1) w.look.oldDest w.look.oldGroup
          else (s, false)
        let v := ln.1.streamSteps ⟨w.strHit, w.stream, w.cls.family, fld w.cls.w0 7 0, w.lport, p, i, f.bytes.length, f.time,
          rtagSeq w.p f.bytes⟩
        if !v.2.1 then v.1
        else
          let s := if w.cls.applies then v.1.harvest p (fld w.cls.w1 31 16) f.bytes f.time else v.1
          s.buildSpore p i f w (v.2.2.getD (fld w.cls.w0 13 11)) ln.2

/-! ### Dispatch -/

/-- The position of a slot in the order in which slots became free; 0 for one never used. -/
def State.freePos (s : State) (t : Tid) (second : Bool) : Nat :=
  let k := t.toNat * 2 + (if second then 1 else 0)
  match s.sw.freeOrder.findIdx? (fun j => decide (j = k)) with
  | some n => n + 1
  | none => 0

/-- Is a thread a PACKET thread that dispatch may choose for a family (R242)? -/
def State.dispEligible (s : State) (t : Tid) (fam : Nat) (pinned : Bool) : Bool :=
  let th := s.thr t
  decide (th.role = .packet) && !(s.core (coreKey t)).fenced
    && (!pinned || decide (th.pinned = decide (fam = 0)))

/-- Has a frond pinned threads? -/
def State.hasPinned (s : State) (f : Nat) : Bool :=
  (frondTids f).any (fun t => decide ((s.thr t).role = .packet) && (s.thr t).pinned)

/-- The thread and slot that dispatch chooses in a frond (R242): a thread that holds no spore, the longest so; else a thread
with one free slot, free the longest. -/
def State.chooseThread (s : State) (f fam : Nat) : Option (Tid × Bool) :=
  let ts := (frondTids f).filter (fun t => s.dispEligible t fam (s.hasPinned f))
  let empty := ts.filter (fun t => (s.thr t).spore0.isNone && (s.thr t).spore1.isNone)
  match argMax (fun t => 10000 - max (s.freePos t false) (s.freePos t true)) empty with
  | some t => some (t, false)
  | none =>
    let half := ts.filterMap (fun t =>
      let th := s.thr t
      if th.spore0.isNone then some (t, false) else if th.spore1.isNone then some (t, true) else none)
    argMax (fun p => 10000 - s.freePos p.1 p.2) half

/-- The D-RAM offset of a spore slot (Table 03-4). -/
def slotOff (t : Tid) (second : Bool) : Nat := 0xC000 + tidT t * 0x280 + (if second then 0x140 else 0)

/-- A PACKET thread begins at the entry point of the spore in a slot (R48). -/
def State.beginSpore (s : State) (t : Tid) (second : Bool) : State :=
  let th := s.thr t
  match (if second then th.spore1 else th.spore0) with
  | none => s
  | some i =>
    match s.spore i with
    | none => s
    | some x =>
      let rec_ := (s.bankImage (coreKey t) x.bank).bind (fun im => im.entries.find? (fun r => decide (r.ep = x.entry)))
      s.setThr t { th with
        run := .running
        pc := match rec_ with | some r => r.addr | none => 0
        bank := x.bank
        stack := [], callDepth := 0, loops := [], repc := 0, repact := false
        locals := th.locals.set 0 (wd (slotOff t second))
        slots := 0, budget := x.w 13, budgetHit := false, hardHit := false
        deadlineHit := false, dbgChanged := false, cur := some second, curEp := x.entry, frame := none, faultFrame := none, handler := none }

/-- The spore that a dispatch takes from a frond's queue with its thread: CONTROL first, in queue order; none for an entry
point that a pool's level stops (R283), and no BULK spore in DRAIN (R461). -/
def State.dispatchPick (s : State) (f : Nat) : Option (Nat × Tid × Bool) :=
  let q := s.dispQ f
  let fam (i : Nat) : Nat := match s.spore i with | some x => x.family | none => 5
  let order := q.filter (fun i => decide (fam i = 0)) ++ q.filter (fun i => decide (fam i ≠ 0))
  order.findSome? (fun i =>
    match s.spore i with
    | some x =>
      if s.poolStops x.entry ∨ (s.mode = .drain ∧ x.family = 2) then none
      else (s.chooseThread f x.family).map (fun c => (i, c.1, c.2))
    | none => none)

/-- A dispatched spore stands in its slot; it is the older one waiting unless one waits in the other slot already (R93). -/
def Thread.takeSlot (th : Thread) (second : Bool) (i : Nat) : Thread :=
  let waits := (if second then th.spore0 else th.spore1).isSome && decide (th.cur ≠ some (!second))
  let th := { th with older := if waits then th.older else second }
  if second then { th with spore1 := some i } else { th with spore0 := some i }

/-- One dispatch in a frond: the spore's descriptor and header window are written to the slot, and an idle thread begins. -/
def State.dispatchOne (s : State) (f : Nat) : State :=
  if !s.mode.ingressRuns ∨ s.md.entering ∨ (s.frond f).gated ∨ (s.frond f).fenced then s
  else
    match s.dispatchPick f with
    | none => s
    | some (i, t, second) =>
      match s.spore i with
      | none => s
      | some x =>
        let bound := match s.epRecord f x.entry with | some r => r.bound | none => 0
        let x := { x.setW 13 (wd bound) with bank := (s.core (coreKey t)).bankB }
        let s := s.setSpore i (some { x with stands := .slot t second })
        let s := s.setDispQ f ((s.dispQ f).filter (fun j => decide (j ≠ i)))
        let base := dmemBase f (tidC t) + slotOff t second
        let s := s.setBytes base (x.desc.flatMap (fun w => leBytes 4 w.toNat))
        let s := s.setBytes (base + 0x40) (padTo 256 ((s.frame x.cell).bytes.take 256))
        let s := s.modThr t (fun th => th.takeSlot second i)
        let s := if (s.thr t).run = .idle then s.beginSpore t second else s.pend t 8
        s.retryHeld

end Sys2Proof.Machine
end

