-- ==== Sys2Proof/Machine/Release.lean ====
section
/-! DEFINITION. The release of a spore by its thread (R94 to R97, R244), shared by the release instructions and by a thread
reset. -/

namespace Sys2Proof.Machine

/-- The code of a decision in a mirror record (Table 10-5) and in the ordering unit. -/
def Decision.code : Decision → Nat
  | .fwd _ => 0
  | .fwdm _ => 1
  | .drop => 2
  | .toslow _ => 3

/-- The status of a release that passed its checks, and of one that found its spore discarded. -/
def stLate : Word := 8

/-- The number of the spore in a slot of a thread. -/
def Thread.slotSpore (th : Thread) (second : Bool) : Option Nat := if second then th.spore1 else th.spore0

/-- The number of the spore the thread runs on. -/
def Thread.curSpore (th : Thread) : Option Nat := th.cur.bind (fun b => th.slotSpore b)

/-- The header window of a slot replaces the first bytes of the frame (R96). -/
def State.windowBack (s : State) (t : Tid) (second : Bool) (x : Spore) : State :=
  let fr := s.frame x.cell
  let w := s.bytes (dmemBase (tidF t) (tidC t) + slotOff t second + 0x40) (min 256 fr.bytes.length)
  s.setFrame x.cell { fr with bytes := patch fr.bytes 0 w }

/-- Frond telemetry of a release (DBG_TEL words 0 to 2). -/
def State.teleRelease (s : State) (f : Nat) (x : Spore) : State :=
  let y := s.tele f
  let age := s.now - (pair (x.w 4) (x.w 5)).toNat
  let gap : Int := (x.deadline.toNat : Int) - s.now
  s.setTele f { y with
    released := y.released + 1
    worst := max y.worst age
    slack := if x.family = 0 then some (match y.slack with | some g => min g gap | none => gap) else y.slack }

/-- A spore of a family other than CONTROL released at or after its deadline carries the late flag, LATE in its descriptor, and is counted
(R39, R239). -/
def State.markLate (s : State) (x : Spore) : State × Spore :=
  if x.family ≠ 0 ∧ x.deadline ≠ 0 ∧ x.deadline ≤ s.tb.now then
    ({ s with sw.famLate := Sparse.set (fun _ => 0) s.sw.famLate x.family (Sparse.get (fun _ => 0) s.sw.famLate x.family + 1) },
      { x.setW 11 (setBit (x.w 11) 30 true) with late := true })
  else (s, x)

/-- A CONTROL spore that has reached its deadline unreleased is discarded first (R38). -/
def State.dueDiscard (s : State) (i : Nat) : State :=
  match s.spore i with
  | some x =>
    if x.family = 0 ∧ !x.dead ∧ x.deadline ≠ 0 ∧ x.deadline ≤ s.tb.now then s.discardLate i x else s
  | none => s

/-- The decision of a valid release reaches the ordering unit, or the discard point for a DROPPKT; the slot becomes free. -/
def State.commitRelease (s : State) (t : Tid) (second : Bool) (i : Nat) (x : Spore) (d : Decision) (ts : Bool) : State :=
  let s := s.windowBack t second x
  let l := s.markLate x
  let s := l.1.teleRelease (tidF t) l.2
  let x := l.2
  let bytes := (s.frame x.cell).bytes
  let s := s.freeSlotOf t second
  match d with
  | .drop =>
    let s := s.mirror x.desc bytes 2 0xFFFF 0 0 x.late
    let s := { s with sw.thrDrops := s.sw.thrDrops + 1 }
    (((s.leaveDomain i x).unref x.cell 1).setSpore i none).retryHeld
  | .toslow r =>
    let x := { x.setW 11 (setFld (x.w 11) 15 8 r.toNat) with deadline := 0 }
    let s := s.mirror x.desc bytes 3 0xFFFF 0 0 x.late
    s.setSpore i (some { x with stands := .released 3 [] 0 false })
  | .fwd q => s.setSpore i (some { x with stands := .released 0 (s.fwdTargets x q.toNat) 0 ts })
  | .fwdm g =>
    s.setSpore i (some { x with stands := .released 1 (s.groupTargets x g.toNat) g.toNat ts })

/-- Is the operand of a release in range (R95, R254)? -/
def State.inRange (s : State) : Decision → Bool
  | .fwd q => (s.queuePort q.toNat).isSome
  | .fwdm g => decide (g.toNat < 16384)
  | .drop => true
  | .toslow _ => true

/-- A release after its drain: the checks of R96 in their order, and the status pushed. -/
def State.release (s : State) (t : Tid) (d : Decision) (ts : Bool) : State × Word :=
  let th := s.thr t
  match th.cur, th.curSpore with
  | some second, some i =>
    let s := s.dueDiscard i
    match s.spore i with
    | none => (s, 9)
    | some x =>
      if x.dead then ((s.setSpore i none).freeSlotOf t second, stLate)
      else if !s.inRange d then (s, 10)
      else (s.commitRelease t second i x d ts, 0)
  | _, _ => (s, 9)

/-- A thread reset's effect on a slot (R244): the running spore is dropped, a waiting one goes back to the head of its frond's
dispatch queue; a discarded one just frees its slot. -/
def State.resetSlot (s : State) (t : Tid) (second : Bool) : State :=
  let th := s.thr t
  match th.slotSpore second with
  | none => s
  | some i =>
    match s.spore i with
    | none => s.freeSlotOf t second
    | some x =>
      if x.dead then (s.setSpore i none).freeSlotOf t second
      else if th.cur = some second then (s.commitRelease t second i x .drop false).bump Reg.DSP_ABORTDROP
      else
        let f := tidF t
        let s := s.freeSlotOf t second
        (s.moveSpore i (.queue f)).setDispQ f (i :: s.dispQ f)

end Sys2Proof.Machine
end

