-- ==== Sys2Proof/Machine/ThreadReset.lean ====
section
/-! DEFINITION. The reset of a thread (R47, R177, R185, R196, R210, R244) and how a thread proceeds by its role (R146). -/

namespace Sys2Proof.Machine

/-- Committed stores of a thread's buffer reach memory: an instruction that has committed keeps its effect (R110). -/
def State.flushStores (s : State) (t : Tid) : State :=
  let s := (s.thr t).storeBuf.foldl (fun s e => s.setBytes e.dev e.bytes) s
  s.modThr t (fun th => { th with storeBuf := [] })

/-- A thread that waits at channels is no longer a reader of any. -/
def State.dropReader (s : State) (t : Tid) : State :=
  match (s.thr t).run with
  | .waiting (.chr c _) =>
    let ch := s.chan c
    s.setChan c { ch with readers := ch.readers.filter (fun u => decide (u ≠ t)) }
  | _ => s

/-- The state of R47: what a thread keeps across a reset is its role, its pinned bit, its epoch and its spore slots. -/
def Thread.fresh (th : Thread) : Thread :=
  { Thread.reset with role := th.role, pinned := th.pinned, epoch := th.epoch, tctl := th.tctl }

/-- How a thread proceeds by its role (R146): a PACKET thread runs the init entry of its frond's image, or idles; a TASK thread
is free for the scheduler. -/
def State.startThread (s : State) (t : Tid) : State :=
  let k := s.core (coreKey t)
  let im := s.liveImage (tidF t)
  s.modThr t (fun th =>
    let th := { th with bank := k.bankB }
    match th.role with
    | .idle => { th with run := .idle }
    | .task => { th with run := .free }
    | .packet =>
      match im.bind (fun m => m.init) with
      | none => { th with run := .idle }
      | some seg =>
        let th := { th with evbase := seg.evbase &&& 0x3FE0, evmask := seg.evmask ||| 1 }
        if seg.entry = 0xFFFF then { th with run := .idle }
        else { th with run := .running, pc := BitVec.ofNat 13 seg.entry })

/-- A reset of one thread: abort, core or frond reset, or spare-in. -/
def State.resetThread (s : State) (t : Tid) : State :=
  let s := s.flushStores t
  let s := s.dropQueued t
  let s := (s.withdrawLock t).abandonAll t
  let s := s.dropReader t
  let s := s.dropTask t
  let s := (s.resetSlot t (decide ((s.thr t).cur = some true)))
  let s := (s.resetSlot t false).resetSlot t true
  let s := s.modThr t (fun th => { th.fresh with epoch := th.epoch + 1 })
  (s.reapFrames).startThread t

end Sys2Proof.Machine
end

