-- ==== Sys2Proof/Machine/Issue.lean ====
section
/-! DEFINITION. The issue of one instruction (R49, R67, R70, R79, R90, R110, R134, R497): what every Opvis instruction shares
around its own effect. -/

namespace Sys2Proof.Machine

/-- What an instruction comes to, with its cost in slots: it goes on in sequence, takes a branch, enters a procedure, reaches
an address as though in sequence (and pays for a closing branch there, or, for `skip`, does not, R63), has by itself charged its slots and set where the thread goes on or waits, or takes a FAULT (`faultIn`: with a counter
of the checking unit advanced). -/
inductive Res where
  | next (s : State) (cost : Nat := 1)
  | jump (s : State) (pc : Nat)
  | call (s : State) (pc cost : Nat)
  | seq (s : State) (pc cost : Nat)
  | skip (s : State) (pc cost : Nat)
  | own (s : State)
  | fault (c : Cause) (addr : Word := 0)
  | faultIn (s : State) (c : Cause) (addr : Word)

/-- A thread takes a FAULT at the boundary of its instruction (R134): entry to the FAULT handler, or, while that handler runs, the
double fault, which aborts the thread. -/
def State.takeFault (s : State) (t : Tid) (c : Cause) (addr : Word) : State :=
  if (s.thr t).faultFrame.isSome then
    let s := s.countFault t c addr
    let s := s.bump (Reg.CORE_DFAULT_CNT (tidF t) (tidC t))
    (s.rasEvent 1 (t.setWidth 32) (wd c.code) 1).resetThread t
  else (s.enterFault t c addr).boundary t

/-- Charges slots to a thread (R76, R164), and the issue slot to its core (FRD_TSK_BUSY). -/
def State.charge (s : State) (t : Tid) (cost : Nat) : State :=
  (s.spend t cost).modFrond (tidF t) (fun fr =>
    { fr with busy := Sparse.set (fun _ => 0) fr.busy (tidC t) (Sparse.get (fun _ => 0) fr.busy (tidC t) + 1) })

/-- Word w of the debug record of a thread's core: breakpoints in words 0 to 3, watchpoints in 4 to 7 (R497). -/
def State.dbgWord (s : State) (t : Tid) (w : Nat) : Word := s.recW .dbg (coreKey t) w

/-- Does a breakpoint match the thread's next instruction (R497)? -/
def State.breakHere (s : State) (t : Tid) : Bool :=
  let th := s.thr t
  th.tctl.testBit 1 && !th.skipBp && (upTo 4).any (fun k =>
    let w := s.dbgWord t k
    bit w 31 && decide (bit w 30 = th.bank) && bit w (16 + tidT t) && decide (fld w 12 0 = th.pc.toNat))

/-- A committed access of n bytes at thread-view address a, in the direction `store` or not, meets a watchpoint: the thread halts
at the boundary (R497). -/
def State.watch (s : State) (t : Tid) (a n : Nat) (store : Bool) : State :=
  let th := s.thr t
  let hit := th.tctl.testBit 2 && (upTo 2).any (fun k =>
    let b := (s.dbgWord t (4 + 2 * k)).toNat
    let c := s.dbgWord t (5 + 2 * k)
    bit c 31 && bit c (16 + tidT t) && bit c (if store then 30 else 29) && decide (a < b + fld c 7 0) && decide (b < a + n))
  if hit && !th.haltReq then s.modThr t (fun th => { th with haltReq := true, haltReason := 3 }) else s

/-- One instruction of `len` halfwords of thread t issues, if it may: a breakpoint halts first, a repeat count of 0 skips it, and
otherwise `op` says what it does. -/
def State.issue (s : State) (t : Tid) (len : Nat) (op : State → Res) : State :=
  if !s.canIssue t then s
  else if s.breakHere t then s.halt t 2
  else
    let s := s.modThr t (fun th => { th with skipBp := false })
    let th := s.thr t
    if th.repact && decide (th.repc = 0) then
      ((s.modThr t (fun th => { th with repact := false }.goSeq (th.pc.toNat + len))).charge t (1 + th.seqCost (th.pc.toNat + len))).boundary t
    else match op s with
      | .next s n => ((s.modThr t (fun th => th.advance len)).charge t (n + (s.thr t).stepCost len)).boundary t
      | .jump s pc => ((s.modThr t (fun th => th.goJump pc)).charge t 3).boundary t
      | .call s pc n => ((s.modThr t (fun th => { th with pc := BitVec.ofNat 13 pc })).charge t n).boundary t
      | .seq s pc n => ((s.modThr t (fun th => th.goSeq pc)).charge t (n + (s.thr t).seqCost pc)).boundary t
      | .skip s pc n => ((s.modThr t (fun th => th.goSeq pc)).charge t n).boundary t
      | .own s => s
      | .fault c a => (s.charge t 1).takeFault t c a
      | .faultIn s c a => (s.charge t 1).takeFault t c a

/-- A stack operation: needs `need` entries and leaves at most 16 (R49). `f` maps the entries, top first, to the new top part and
the state; the entries below the `need` popped ones stay. -/
def State.stackOp (s : State) (t : Tid) (need push : Nat) (f : List Word → Res) : Res :=
  let n := (s.thr t).stack.length
  if n < need then .fault .stackUnder
  else if 16 < n - need + push then .fault .stackOver
  else f ((s.thr t).stack)

/-- Replaces the top `n` entries of the operand stack. -/
def State.setTop (s : State) (t : Tid) (n : Nat) (top : List Word) : State :=
  s.modThr t (fun th => { th with stack := top ++ th.stack.drop n })

/-- An instruction without memory or device effect: the encoding check, the stack check, and the new top entries (top first)
computed from the `need` popped ones (top first). -/
def State.compute (s : State) (t : Tid) (legal : Bool) (need push : Nat) (f : List Word → List Word) : Res :=
  if !legal then .fault .illegal
  else s.stackOp t need push (fun l => .next (s.setTop t need (f (l.take need))))

end Sys2Proof.Machine
end

