-- ==== Sys2Proof/Machine/Operands.lean ====
section
/-! DEFINITION. Operand forms of the Opvis instructions: stack operands, locals, the short and long encodings and their
displacements, offsets and immediates (R50, R52, R59, R73, Tables 03-9 and 03-10). -/

namespace Sys2Proof.Machine

/-- The next state as a step's outcome. -/
abbrev done (s : State) : Host.Outcome State Fault Refusal := .next s

/-- A one-operand instruction ( x -- z ) whose field A is 0. -/
def State.unary (s : State) (t : Tid) (a : Byte) (f : Word → Word) : State :=
  s.issue t 1 (fun s => s.compute t (decide (a = 0)) 1 1 (fun l => [f (nth 0 l 0)]))

/-- A two-operand instruction ( x y -- z ) whose field A is 0; y is on top. -/
def State.binary (s : State) (t : Tid) (a : Byte) (f : Word → Word → Word) : State :=
  s.issue t 1 (fun s => s.compute t (decide (a = 0)) 2 1 (fun l => [f (nth 0 l 1) (nth 0 l 0)]))

/-- A two-operand 64-bit instruction ( d1 d2 -- d ). -/
def State.dbinary (s : State) (t : Tid) (a : Byte) (f : DWord → DWord → DWord) : State :=
  s.issue t 1 (fun s => s.compute t (decide (a = 0)) 4 2 (fun l =>
    let d := f (pair (nth 0 l 3) (nth 0 l 2)) (pair (nth 0 l 1) (nth 0 l 0))
    [hi32 d, lo32 d]))

/-- A 64-bit compare ( d1 d2 -- f ). -/
def State.dcompare (s : State) (t : Tid) (a : Byte) (f : DWord → DWord → Bool) : State :=
  s.issue t 1 (fun s => s.compute t (decide (a = 0)) 4 1 (fun l =>
    [flag (f (pair (nth 0 l 3) (nth 0 l 2)) (pair (nth 0 l 1) (nth 0 l 0)))]))

/-- A 64-bit shift ( d n -- d ). -/
def State.dshift (s : State) (t : Tid) (a : Byte) (f : DWord → Nat → DWord) : State :=
  s.issue t 1 (fun s => s.compute t (decide (a = 0)) 3 2 (fun l =>
    let d := f (pair (nth 0 l 2) (nth 0 l 1)) (nth 0 l 0).toNat
    [hi32 d, lo32 d]))

/-- Local Li. -/
def Thread.local_ (th : Thread) (i : Nat) : Word := nth 0 th.locals.toList i

/-- Writes local Li, i < 16. -/
def Thread.setLocal (th : Thread) (i : Nat) (v : Word) : Thread :=
  if h : i < 16 then { th with locals := th.locals.set i v } else th

/-- The length of a form in halfwords. -/
def formLen : Form → Nat
  | .short _ => 1
  | .long _ _ => 2

/-- Is the encoding of a memory, branch or CHR form legal: field A of the long form is 0 (Table 03-10)? -/
def formLegal : Form → Bool
  | .short _ => true
  | .long a _ => decide (a = 0)

/-- The displacement of a memory form: field A times the access size, or the signed extension in bytes (R59). -/
def formDisp (f : Form) (size : Nat) : Word :=
  match f with
  | .short a => wd (a.toNat * size)
  | .long _ x => x.signExtend 32

/-- The signed halfword offset of a branch form (R73). -/
def formOffset : Form → Int
  | .short a => a.toInt
  | .long _ x => x.toInt

/-- The halfword address a branch at `pc` names: its offset counts from the instruction that follows it (R73). -/
def branchTarget (pc : Pc) (f : Form) : Nat :=
  (((pc.toNat + formLen f : Nat) : Int) + formOffset f).emod 8192 |>.toNat

end Sys2Proof.Machine
end

