-- ==== Sys2Proof/Machine/Clocks.lean ====
section
/-! DEFINITION. Clock gating and PLLs of the fronds (R474, R475, R479). -/

namespace Sys2Proof.Machine

/-- Restarts the stopped clock of a frond (R479): a gated frond, or one whose PLL is off. -/
def State.wakeFrond (s : State) (f : Nat) : State :=
  let fr := s.frond f
  let s := if fr.pllOff then s.bumpF Reg.CLK_WAKECNT 31 16 else if fr.gated then s.bumpF Reg.CLK_WAKECNT 15 0 else s
  if fr.pllOff ∨ fr.gated then s.setFrond f { fr with gated := false, pllOff := false } else s

/-- May a frond be gated: enabled, its clock running, no thread that could issue, no coprocessor command, no spore queued? -/
def State.gateOk (s : State) (f : Nat) : Bool :=
  let fr := s.frond f
  s.regB Reg.CLK_GATE f && !fr.gated && !fr.pllOff && decide (s.mode ≠ .keep) && decide (s.mode ≠ .enumerate)
    && fr.queues.isEmpty && fr.running.isEmpty && (s.dispQ f).isEmpty && (frondTids f).all (fun t => !s.canIssue t)

/-- FROND_GATE (R474): a frond has been idle for CLK_GATE_IDLE cycles. -/
def execFrondGate (f : Fin 16) (s : State) : Host.Outcome State Fault Refusal :=
  done (if s.gateOk f.val then s.modFrond f.val (fun fr => { fr with gated := true }) else s)

/-- FROND_WAKE (R479): a crossing into a stopped frond restarts it. -/
def execFrondWake (f : Fin 16) (s : State) : Host.Outcome State Fault Refusal := done (s.wakeFrond f.val)

/-- A write of CLK_PLLOFF in LOAD (R475): a bit set stops the PLL of a frond whose threads are all IDLE, and is otherwise refused and
logged; a bit cleared restarts it. -/
def State.pllOffWrite (s : State) (v : Word) : State :=
  let idle (f : Nat) : Bool := (frondTids f).all (fun t => decide ((s.thr t).role = .idle))
  let old := s.reg Reg.CLK_PLLOFF
  let s := (upTo 16).foldl (fun s f =>
    if bit v f then
      (if idle f then
        (s.modFrond f (fun fr => { fr with pllOff := true, gated := false })).setReg Reg.CLK_PLLOFF
          (setBit (s.reg Reg.CLK_PLLOFF) f true)
      else s)
    else (if bit old f then s.wakeFrond f else s).setReg Reg.CLK_PLLOFF (setBit (s.reg Reg.CLK_PLLOFF) f false)) s
  if (upTo 16).any (fun f => bit v f && !idle f) then s.refuse Reg.CLK_PLLOFF v else s

/-- CLK_STATUS as read: PLLs locked, fronds gated. -/
def State.clkStatus (s : State) : Word :=
  wd (((upTo 16).map (fun f => (if (s.frond f).pllOff then 0 else 2 ^ (16 + f)) + (if (s.frond f).gated then 2 ^ f else 0))).sum)

end Sys2Proof.Machine
end

