-- ==== Sys2Proof/Machine/Chan.lean ====
section
/-! DEFINITION. Channels (R106, R180 to R185): commit, delivery, watches. -/

namespace Sys2Proof.Machine

/-- The key of the channel that number c names for a thread of frond f: 0–63 the frond's own, 64–319 device channels. -/
def chanKey (f : Nat) (c : Word) : Option Nat :=
  if c.toNat < 64 then some (f * 64 + c.toNat) else if c.toNat < 320 then some (1024 + (c.toNat - 64)) else none

/-- May a thread write n bytes at `ea`: the ranges of R56 and R57, the special window excepted (R58)? -/
def destOk (t : Tid) (ea : Word) (n : Nat) : Bool :=
  viewSpanOk t true ea.toNat n && decide (viewRange ea.toNat ≠ some .special)

/-- A waiting instruction of a thread takes a FAULT: its operands are back on the stack. -/
def State.faultWait (s : State) (t : Tid) (c : Cause) (addr : Word) : State :=
  ((s.spendWait t).modThr t (fun th => { th with stack := th.popped ++ th.stack, popped := [], run := .running })).takeFault t c addr

/-- The bytes of a message. -/
def msgBytes (m : List Word) : List Byte := m.flatMap (fun w => leBytes 4 w.toNat)

/-- A CHR of thread t receives a message at `ea`: the copy is ordered behind its buffered stores (R125). -/
def State.copyMsg (s : State) (t : Tid) (ea : Word) (m : List Word) : State :=
  ((s.flushStores t).setBytes (viewDev t ea.toNat) (msgBytes m)).watch t ea.toNat (4 * m.length) true

/-- A committed message is offered to the waiting readers, oldest first (R181): delivered, or left for the channel. -/
def State.offer (s : State) (k : Nat) (m : List Word) : List Tid → State × Bool
  | [] => (s, false)
  | t :: rest =>
    let s := s.setChan k { s.chan k with readers := rest }
    match (s.thr t).run with
    | .waiting (.chr _ ea) =>
      if destOk t ea (4 * m.length) then
        let s := s.copyMsg t ea m
        let s := s.setChan k { s.chan k with recv := (s.chan k).recv + 1 }
        (s.finishWait t [0, wd (4 * m.length)], true)
      else (s.faultWait t .access ea).offer k m rest
    | _ => s.offer k m rest

/-- Event 6 becomes pending on every thread that watches a channel (R183). -/
def State.pendWatch (s : State) (k : Nat) : State :=
  s.threads.foldl (fun s e => if e.2.watches.contains k then s.pend (BitVec.ofNat 11 e.1) 6 else s) s

/-- Counts a CHS that pushes FULL (Table 07-3). -/
def State.countFull (s : State) (k : Nat) : State :=
  s.setChan k { s.chan k with full := BitVec.ofNat 32 (satAdd 0xFFFFFFFF (s.chan k).full.toNat 1) }

/-- Commits a message to a channel (R181, R182): false when it is full. -/
def State.commitMsg (s : State) (k : Nat) (m : List Word) : State × Bool :=
  let ch := s.chan k
  if ch.readers.isEmpty ∧ 16 ≤ ch.msgs.length then (s, false)
  else
    let s := s.setChan k { ch with sent := ch.sent + 1 }
    let s := { s with touchedChans := insNat s.touchedChans k }
    let r := s.offer k m ch.readers
    let s := r.1
    let s :=
      if r.2 then s
      else
        let ch := s.chan k
        s.setChan k { ch with msgs := ch.msgs ++ [m], hwm := max ch.hwm (ch.msgs.length + 1) }
    (s.pendWatch k, true)

/-- Would a channel take one more message? -/
def State.chanRoom (s : State) (k : Nat) : Bool := decide ((s.chan k).msgs.length < 16) || !(s.chan k).readers.isEmpty

/-- Removes the messages of a channel at a frond or data-plane reset, counted as delivered (R185). -/
def State.emptyChan (s : State) (k : Nat) : State :=
  let ch := s.chan k
  s.setChan k { ch with msgs := [], recv := ch.recv + wd ch.msgs.length }

end Sys2Proof.Machine
end

