-- ==== Sys2Proof/Machine/Inject.lean ====
section
/-! DEFINITION. Frames the device makes itself (R99, R264): EMIT, publications, announcements. -/

namespace Sys2Proof.Machine

/-- An injected frame of `bytes` takes its cells from the injection reservation and goes to queue q, or waits where the queue has
no room (R255). `port` is 64, no ingress port; the descriptor is all 0. -/
def State.injectFrame (s : State) (bytes : List Byte) (q : Nat) (ts : Bool) : State :=
  let n := cellsOf bytes.length
  let cells := s.takeCells n
  let c := nth 0 cells 0
  let s := s.setFrame c ⟨cells, bytes, 0, 0, n, 64, 0, 1, false, false⟩
  let k : Copy := ⟨c, [], queueCtx q, 7, ts, false, 0, 0, none, false, none⟩
  if s.qFits q n ∧ !(s.sw.injWait.any (fun e => decide (e.1 = q))) then s.enqCopy q k
  else { s with sw.injWait := s.sw.injWait ++ [(q, k)] }

/-- Injected frames that wait for room are enqueued in order, per queue. -/
def State.injectRetry (s : State) : State :=
  let r := s.sw.injWait.foldl (fun (a : State × List (Nat × Copy)) e =>
    if a.1.qFits e.1 (a.1.frame e.2.cell).cells.length ∧ !(a.2.any (fun x => decide (x.1 = e.1))) then (a.1.enqCopy e.1 e.2, a.2)
    else (a.1, a.2 ++ [e])) (s, [])
  { r.1 with sw.injWait := r.2 }

/-- Is the injection threshold of EMIT reached by n more cells (R264)? -/
def State.emitFull (s : State) (n : Nat) : Bool := decide (s.regF Reg.SWC_INJ 31 16 < s.injUse + n)

/-- Has the injection reservation room for n more cells (R264)? -/
def State.injectRoom (s : State) (n : Nat) : Bool := decide (s.injUse + n ≤ s.regF Reg.SWC_INJ 15 0)

end Sys2Proof.Machine
end

