-- ==== Sys2Proof/Machine/Mac.lean ====
section
/-! DEFINITION. The receiving MACs and their FIFOs (R266, R267, R285), received pause and its watchdog (R288, R488), links, and
the rows that move a frame from a FIFO to the ordering unit and the slow path. -/

namespace Sys2Proof.Machine

/-! ### Receive FIFOs -/

/-- The bytes a partition holds, FCS included; port × 8 + priority in PFC mode, the whole port otherwise (R266). -/
def State.rxFill (s : State) (p i : Nat) : Nat :=
  let len (k : Nat) : Nat := ((Sparse.get (fun _ => []) s.sw.rx k).map (fun f => f.bytes.length + 4)).foldl (· + ·) 0
  if s.regF (Reg.SWC_RXF_CFG p) 1 0 = 2 then len (p * 8 + i)
  else ((upTo 8).map (fun j => len (p * 8 + j))).foldl (· + ·) 0

/-- The size of a partition in bytes. -/
def State.rxSize (s : State) (p : Nat) : Nat :=
  let n := modeLanes (s.regF (Reg.PORT_CFG p) 3 0) * 0x80000
  if s.regF (Reg.SWC_RXF_CFG p) 1 0 = 2 then n / 8 else n

/-- The bit of Port.xoff of priority i: its own in PFC mode, bit 0 otherwise. -/
def State.xoffBit (s : State) (p i : Nat) : Nat := if s.regF (Reg.SWC_RXF_CFG p) 1 0 = 2 then i else 0

/-- Sends PFC or PAUSE for a partition with the given quanta, where the mode and PFCMASK have it (R266). -/
def State.sendPause (s : State) (p i quanta : Nat) : State :=
  let cfg := s.reg (Reg.SWC_RXF_CFG p)
  if fld cfg 1 0 = 2 then (if bit cfg (8 + i) then s.emit (.pause p true (2 ^ i) quanta) else s)
  else if fld cfg 1 0 = 1 then s.emit (.pause p false 0 quanta)
  else s

/-- A partition reaches XOFF: flow control begins (R266). -/
def State.rxXoff (s : State) (p i : Nat) : State :=
  let b := s.xoffBit p i
  let x := s.port p
  if s.regF (Reg.SWC_RXF_THR p) 15 0 * 256 ≤ s.rxFill p i ∧ !x.xoff.testBit b then
    (s.setPort p { x with xoff := x.xoff + 2 ^ b }).sendPause p i (s.regF (Reg.SWC_RXF_CFG p) 31 16)
  else s

/-- A partition has fallen to XON: quanta 0 is sent (R266). -/
def State.rxXon (s : State) (p i : Nat) : State :=
  let b := s.xoffBit p i
  let x := s.port p
  if s.rxFill p i ≤ s.regF (Reg.SWC_RXF_THR p) 31 16 * 256 ∧ x.xoff.testBit b then
    (s.setPort p { x with xoff := x.xoff - 2 ^ b }).sendPause p i 0
  else s

/-- The ingress priority of a frame (R260). -/
def State.ingressPrio (s : State) (p : Nat) (bytes : List Byte) : Nat :=
  let m := s.reg (Reg.SWC_RXF_PMAP p)
  let o := (parseFrame s.parseCfg bytes).outer
  if o.vids.isEmpty then fld m 26 24 else fld m (3 * o.pcp + 2) (3 * o.pcp)

/-- Do the MACs of the device receive and send (Table 20-1)? -/
def Mode.macsRun : Mode → Bool
  | .keep => false
  | _ => true

/-- Is port p in service: enabled, linked, not held down, its device not in KEEP? -/
def State.macUp (s : State) (p : Nat) : Bool :=
  s.mode.macsRun && s.portOn p && (s.port p).link && !(s.port p).fenced
    && !(s.reg (if p < 32 then Reg.RAS_PORTHOLD_LO else Reg.RAS_PORTHOLD_HI)).getLsbD (p % 32)

/-- A frame that passed the MAC's checks goes to the tail of its FIFO queue, or is discarded there (R267). -/
def State.rxQueue (s : State) (p : Nat) (bytes : List Byte) (t : DWord) : State :=
  let i := s.ingressPrio p bytes
  let k := p * 8 + i
  if s.rxSize p < s.rxFill p i + bytes.length + 4 then
    let s := if s.regF (Reg.SWC_RXF_CFG p) 1 0 = 0 then s.bumpF (Reg.SWC_RXF_OVR p) 15 0 else s.bumpF (Reg.SWC_RXF_OVR p) 31 16
    s.partner 2 p p
  else
    let f : RxFrame := ⟨bytes, t, s.regF Reg.TICK_PERIOD 15 0⟩
    ({ s with sw.rx := Sparse.set (fun _ => []) s.sw.rx k (Sparse.get (fun _ => []) s.sw.rx k ++ [f]) }).rxXoff p i

/-- A MAC receives a frame (R41, R285): `bytes` without its FCS. -/
def State.receive (s : State) (p : Nat) (bytes : List Byte) (fcsOk : Bool) (t : DWord) : State :=
  if !s.macUp p ∨ s.md.entering then s
  else if !fcsOk then s.bumpF (Reg.PORT_RXERR p) 31 16
  else if bytes.length + 4 < 64 then s.bumpF (Reg.PORT_RXERR p) 15 8
  else if s.regF (Reg.PORT_CFG p) 30 16 < bytes.length + 4 then s.bumpF (Reg.PORT_RXERR p) 7 0
  else s.rxQueue p bytes t

/-- FRAME_RECEIVE (R285): a frame arrives on port p at an instant. -/
def execFrameReceive (p : Fin 64) (bytes : List Byte) (fcsOk : Bool) (at_ : DWord) (s : State) :
    Host.Outcome State Fault Refusal :=
  done ((s.advanceTo at_).receive p bytes fcsOk at_)

/-- PAUSE_REPEAT (R266): pause is sent again for a partition whose fill stays above XON. -/
def execPauseRepeat (p : Fin 64) (i : Fin 8) (s : State) : Host.Outcome State Fault Refusal :=
  done (if (s.port p).xoff.testBit (s.xoffBit p i) then s.sendPause p i (s.regF (Reg.SWC_RXF_CFG p) 31 16) else s)

/-! ### Received pause -/

/-- A received PFC pauses or resumes priority tc of a port (R288, R487, R488). -/
def State.pfcFor (s : State) (p tc quanta : Nat) : State :=
  let cfg := s.reg (Reg.SWC_RXF_CFG p)
  if fld cfg 1 0 ≠ 2 ∨ !bit cfg (8 + tc) then (s.bumpF (Reg.PORT_PAUSECNT p) 15 0).partner 4 p p
  else
    let x := s.pclass p tc
    if 0 < x.ignore then s
    else s.setPclass p tc { x with paused := decide (0 < quanta), pausedTicks := if 0 < quanta then x.pausedTicks else 0 }

/-- A received PAUSE pauses or resumes a port. -/
def State.pauseAll (s : State) (p quanta : Nat) : State :=
  let x := s.port p
  if 0 < x.ignore then s
  else s.setPort p { x with pausedAll := decide (0 < quanta), pausedTicks := if 0 < quanta then x.pausedTicks else 0 }

/-- PAUSE_RECEIVE (R288): a PFC frame with its enable vector and eight times, or a PAUSE frame with one. -/
def execPauseReceive (p : Fin 64) (pfc : Bool) (enable : Byte) (quanta : List Half) (s : State) :
    Host.Outcome State Fault Refusal :=
  done (
    if !s.macUp p then s
    else if pfc then
      (upTo 8).foldl (fun s tc => if enable.getLsbD tc then s.pfcFor p tc (nth 0 quanta tc).toNat else s) s
    else s.pauseAll p (nth 0 quanta 0).toNat)

/-- PAUSE_QUANTA_EXPIRED (R288): the time of a received PFC (for a class) or PAUSE (for the port) runs out. -/
def execPauseQuantaExpired (p : Fin 64) (tc : Option (Fin 8)) (s : State) : Host.Outcome State Fault Refusal :=
  done (match tc with
    | some tc => let x := s.pclass p tc; s.setPclass p tc { x with paused := false, pausedTicks := 0 }
    | none => s.setPort p { s.port p with pausedAll := false, pausedTicks := 0 })

/-- PORT_PAUSEWD.TICKS of a port (R488). -/
def State.pauseWd (s : State) (p : Nat) : Nat := s.regF (Reg.PORT_PAUSEWD p) 15 0

/-- A watchdog trip is counted and logged (R488). -/
def State.pauseTrip (s : State) (p : Nat) : State := (s.bumpF (Reg.PORT_PAUSECNT p) 31 16).partner 3 p p

/-- PAUSE_WATCHDOG (R488): a class (or the whole port) held by received pause for TICKS ticks ignores it for as many. -/
def execPauseWatchdog (p : Fin 64) (tc : Option (Fin 8)) (s : State) : Host.Outcome State Fault Refusal :=
  let n := s.pauseWd p
  done (match tc with
    | some tc =>
      let x := s.pclass p tc
      if n ≠ 0 ∧ x.paused ∧ n ≤ x.pausedTicks then
        (s.setPclass p tc { x with paused := false, pausedTicks := 0, ignore := n + 1 }).pauseTrip p
      else s
    | none =>
      let x := s.port p
      if n ≠ 0 ∧ x.pausedAll ∧ n ≤ x.pausedTicks then
        (s.setPort p { x with pausedAll := false, pausedTicks := 0, ignore := n + 1 }).pauseTrip p
      else s)

/-- PAUSE_WATCHDOG_END (R488): after TICKS ticks, pause is honoured again. -/
def execPauseWatchdogEnd (p : Fin 64) (tc : Option (Fin 8)) (s : State) : Host.Outcome State Fault Refusal :=
  done (match tc with
    | some tc => let x := s.pclass p tc; if x.ignore = 1 then s.setPclass p tc { x with ignore := 0 } else s
    | none => let x := s.port p; if x.ignore = 1 then s.setPort p { x with ignore := 0 } else s)

/-- A boundary's count of paused ticks, and of the ticks for which pause is ignored (R488). -/
def State.pauseTick (s : State) : State :=
  let s := s.sw.ports.foldl (fun s e =>
    let x := s.port e.1
    s.setPort e.1 { x with
      pausedTicks := if x.pausedAll then x.pausedTicks + 1 else 0
      ignore := if 1 < x.ignore then x.ignore - 1 else x.ignore }) s
  s.sw.classes.foldl (fun s e =>
    let p := e.1 / 8
    let tc := e.1 % 8
    let x := s.pclass p tc
    s.setPclass p tc { x with
      pausedTicks := if x.paused then x.pausedTicks + 1 else 0
      ignore := if 1 < x.ignore then x.ignore - 1 else x.ignore }) s

/-! ### From the FIFO to the ordering unit -/

/-- INGRESS_TAKE (R253): a pipeline takes the frame at the head of a FIFO queue. `bad` names the table slots (table × 262,144 + index) that
its probes find uncorrectable (R317). -/
def execIngressTake (p : Fin 64) (i : Fin 8) (s : State) (bad : List (Fin 524288) := []) : Host.Outcome State Fault Refusal :=
  done ((s.ingressTake (bad.map (fun b => b.val)) p i).rxXon p i)

/-- DISPATCH (R242): a spore is handed to a thread of frond f. -/
def execDispatch (f : Fin 16) (s : State) : Host.Outcome State Fault Refusal := done (s.dispatchOne f)

/-- ORDERING_PASS (R247): the oldest release of a domain is passed. -/
def execOrderingPass (d : Half) (s : State) : Host.Outcome State Fault Refusal :=
  done (s.orderingPass d.toNat).retryHeld

/-- RESIDUE_RETRY (R270). -/
def execResidueRetry (s : State) : Host.Outcome State Fault Refusal := done s.residueRetry

/-- RESIDUE_EXPIRY (R273): the CONTROL residue entry k, counted from the oldest, has reached its deadline. -/
def execResidueExpiry (k : Nat) (s : State) : Host.Outcome State Fault Refusal :=
  done (match s.sw.residue[k]? with
    | some e => if e.control then (s.advanceTo e.deadline).residueExpire k else s
    | none => s)

/-! ### The slow path (R249 to R251) -/

/-- Is the host's slow-path ring available (R251)? -/
def State.slowRingUp (s : State) : Bool := s.ringUp 3 && decide (s.mode ≠ .island)

/-- Does a slow-path entry go to the host's ring, and was it redirected from it? -/
def State.slowToRing (s : State) (toslow : Bool) : Bool × Bool :=
  let want := toslow && s.regB Reg.DSP_SLOW_CFG 16
  (want && s.slowRingUp, want && !s.slowRingUp)

/-- The record of a slow-path spore: its descriptor with the element index, FROM_TOSLOW and TRUNC (R250). -/
def slowRecord (x : Spore) (elem : Nat) (toslow trunc : Bool) : List Word :=
  let d := setNth x.desc 0 (wd elem)
  setNth d 11 (setBit (setBit (nth 0 d 11) 28 trunc) 29 toslow)

/-- Delivers the slow-path spore at the head of the slow queue; nothing changes while it must wait (R250, R251). -/
def State.slowDeliver (s : State) : State :=
  match s.sw.slowQ with
  | [] => s
  | e :: rest =>
    match s.spore e.spore with
    | none => { s with sw.slowQ := rest }
    | some x =>
      let cfg := s.reg Reg.DSP_SLOW_CFG
      let pool := fld cfg 15 10
      let k := fld cfg 3 0 * 64 + fld cfg 9 4
      let d := s.slowToRing e.toslow
      let room := if d.1 then s.ringRoom 3 else s.chanRoom k
      if !room ∨ !(s.pool pool).valid ∨ !s.mayAlloc pool .dispatch then s
      else
        match s.allocElem pool .dispatch with
        | (s, none) => s
        | (s, some i) =>
          let bytes := (s.frame x.cell).bytes
          let size := s.poolSize pool
          let trunc := decide (size < bytes.length)
          let s := s.devWrite (s.elemAddr pool i) (bytes.take size)
          let s := if trunc then s.bump Reg.DSP_TRUNC else s
          let s := if d.2 then s.bump Reg.DSP_REDIRECT else s
          let r := slowRecord x i e.toslow trunc
          let s := if d.1 then s.ringPost 3 (fun _ => r.flatMap (fun w => leBytes 4 w.toNat)) else (s.commitMsg k r).1
          let s := ((s.unref x.cell 1).leaveDomain e.spore x).setSpore e.spore none
          { s with sw.slowQ := rest }.retryHeld

/-- SLOW_PATH_DELIVERY (R250). -/
def execSlowPathDelivery (s : State) : Host.Outcome State Fault Refusal := done s.slowDeliver

/-! ### Links -/

/-- Is port p held down after an abort (Table 21-1)? -/
def State.portHeld (s : State) (p : Nat) : Bool :=
  (s.reg (if p < 32 then Reg.RAS_PORTHOLD_LO else Reg.RAS_PORTHOLD_HI)).getLsbD (p % 32)

/-- LINK_STATE_CHANGE (R335): a port's link goes up or down; a path measured over a port whose link is down, if only at
the start of the tick, is marked. A link that
goes down ends verification and preemption. -/
def execLinkStateChange (p : Fin 64) (up : Bool) (s : State) : Host.Outcome State Fault Refusal :=
  if up ∧ s.portHeld p then done s else
  let x := s.port p
  let cfg := s.reg (Reg.PORT_CFG p)
  let x := if up then { x with link := true }.preempts 0 cfg
    else { x with link := false, vstate := 0, pactive := false, pausedAll := false, pausedTicks := 0 }
  done (if up ∧ (s.port p).link then s else { s.setPort p x with ct.downs := insNat s.ct.downs p })

/-- VERIFY (R294): the verify process of a port concludes, with success or failure. -/
def execVerify (p : Fin 64) (ok : Bool) (s : State) : Host.Outcome State Fault Refusal :=
  let x := s.port p
  let cfg := s.reg (Reg.PORT_CFG p)
  done (if bit cfg 10 ∧ bit cfg 11 ∧ x.link ∧ x.vstate = 1 then
      s.setPort p { x with vstate := if ok then 2 else 3, pactive := ok }
    else s)

end Sys2Proof.Machine
end

