-- ==== Sys2Proof/Machine/Egress.lean ====
section
/-! DEFINITION. The egress pipelines: selection of the next frame of a port (R286 to R296), its rewrite (R43, R297, R298),
transmission, gate list swaps (R292), and the commits of the egress tables. -/

namespace Sys2Proof.Machine

/-! ### Rewrite (R298) -/

/-- The VLAN tag types of a device: C-tag, S-tag and the programmable ones. -/
def ParseCfg.isVlan (cfg : ParseCfg) (v : Nat) : Bool :=
  decide (v = 0x8100) || decide (v = 0x88A8) || (decide (v = cfg.tpid2) && decide (v ≠ 0)) || (decide (v = cfg.tpid3) && decide (v ≠ 0))

/-- The tags of a frame from offset o on, as (offset, type, length), at most n. -/
def tagWalk (cfg : ParseCfg) (f : List Byte) : Nat → Nat → List (Nat × Nat × Nat)
  | 0, _ => []
  | n + 1, o =>
    let v := beAt f o 2
    let len := if cfg.isVlan v then 4 else if v = 0x893F then 8 else if v = 0xF1C1 then 6 else 0
    if len = 0 ∨ f.length < o + len then [] else (o, v, len) :: tagWalk cfg f n (o + len)

/-- The tags after the MAC addresses. -/
def tagsOf (cfg : ParseCfg) (f : List Byte) : List (Nat × Nat × Nat) := tagWalk cfg f 16 12

/-- Removes n bytes at an offset. -/
def cutBytes (f : List Byte) (o n : Nat) : List Byte := f.take o ++ f.drop (o + n)
/-- Inserts bytes at an offset. -/
def insBytes (f : List Byte) (o : Nat) (b : List Byte) : List Byte := f.take o ++ b ++ f.drop o

/-- Step 1: ETAG_POP removes an E-tag. -/
def etagPop (cfg : ParseCfg) (f : List Byte) : List Byte :=
  match (tagsOf cfg f).find? (fun t => decide (t.2.1 = 0x893F)) with
  | some t => cutBytes f t.1 8
  | none => f

/-- Step 2: TAG acts on the outermost VLAN tag; a push stands after the MAC addresses. -/
def tagAct (cfg : ParseCfg) (w0 : Word) (f : List Byte) : List Byte :=
  let op := fld w0 2 0
  let tci := fld w0 8 6 * 8192 + fld w0 20 9
  let outer := (tagsOf cfg f).find? (fun t => cfg.isVlan t.2.1)
  if op = 1 then insBytes f 12 (beBytes 2 0x8100 ++ beBytes 2 tci)
  else if op = 2 then insBytes f 12 (beBytes 2 0x88A8 ++ beBytes 2 tci)
  else if op = 3 then
    match outer with
    | some t => cutBytes f t.1 4
    | none => f
  else if op = 4 then
    match outer with
    | some t => patch f (t.1 + 2) (beBytes 2 (tci + beAt f (t.1 + 2) 2 / 4096 % 2 * 4096))
    | none => f
  else f

/-- Step 3: ETAG_PUSH inserts an E-tag with the context's E-CID base after the MAC addresses. -/
def etagPush (ecid : Nat) (f : List Byte) : List Byte :=
  insBytes f 12 (beBytes 2 0x893F ++ beBytes 2 0 ++ beBytes 2 ecid ++ beBytes 2 0)

/-- Step 4: the R-TAG after the last tag. -/
def rtagInsert (cfg : ParseCfg) (seq : Nat) (f : List Byte) : List Byte :=
  let o := match (tagsOf cfg f).getLast? with
    | some t => t.1 + t.2.2
    | none => 12
  insBytes f o (beBytes 2 0xF1C1 ++ beBytes 2 0 ++ beBytes 2 seq)

/-- One 16-bit word of a one's complement sum. -/
def onesAdd (a b : Nat) : Nat := let x := a + b; x % 65536 + x / 65536

/-- The UDP checksum after a change of 16-bit words from `old` to `new` (incremental update). -/
def udpUpdate (sum : Nat) (old new : List Byte) : Nat :=
  let words (l : List Byte) : List Nat := (upTo 4).map (fun i => beAt l (2 * i) 2)
  let x := (words old).foldl (fun a w => onesAdd a (65535 - w)) (65535 - sum)
  let x := (words new).foldl (fun a w => onesAdd a w) x
  if 65535 - x = 0 then 65535 else 65535 - x

/-- Step 5: the correction field of an IEEE 1588 event message grows by the residence time (R43). -/
def correct (cfg : ParseCfg) (residence : Nat) (f : List Byte) : List Byte :=
  let p := parseFrame cfg f
  match p.ptpOff with
  | some o =>
    if p.ptpType ≤ 3 then
      let old := slice f (o + 8) 8
      let new := beBytes 8 (beNat old + residence * 65536)
      let g := patch f (o + 8) new
      let l := p.inner
      if l.l4 = 0 then g
      else if l.l3type = 1 then patch g (l.l4 + 6) [0, 0]
      else patch g (l.l4 + 6) (beBytes 2 (udpUpdate (beAt f (l.l4 + 6) 2) old new))
    else f
  | none => f

/-- The egress context a copy leaves through (R297). -/
def State.ctxWord (s : State) (c w : Nat) : Word := s.recW .ctx c w

/-- The rewrite of a copy that starts at an instant, without FCS, padded to the smallest frame (R285, R298). -/
def State.rewrite (s : State) (k : Copy) (t : DWord) : List Byte :=
  let cfg := s.parseCfg
  let w0 := s.ctxWord k.ctx 0
  let f := (s.frame k.cell).bytes
  let f := if bit w0 3 then etagPop cfg f else f
  let f := tagAct cfg w0 f
  let f := if bit w0 4 then etagPush (fld (s.ctxWord k.ctx 1) 11 0) f else f
  let f := match k.rtag with
    | some q => if bit w0 5 then rtagInsert cfg q f else f
    | none => f
  let f := if s.regB Reg.PTP_CTRL 3 ∧ !k.desc.isEmpty then
      correct cfg (t.toNat - (pair (nth 0 k.desc 4) (nth 0 k.desc 5)).toNat) f
    else f
  padTo 60 f

/-! ### Deficit round robin (R286, R288) -/

/-- One member of a round robin: its number, its deficit, its quantum, and the length its head frame needs. -/
structure DrrItem where
  id : Nat
  deficit : Nat
  quantum : Nat
  need : Nat
  deriving DecidableEq, Repr

/-- Visits members in turn until one's deficit covers its head frame; the visited one stands first. A newly visited member
gets its quantum. -/
def drrVisit : Nat → List DrrItem → Option (DrrItem × List DrrItem)
  | 0, _ => none
  | _ + 1, [] => none
  | n + 1, a :: l =>
    if a.need ≤ a.deficit then some (a, a :: l)
    else match l ++ [a] with
      | [] => none
      | b :: m => drrVisit n ({ b with deficit := b.deficit + b.quantum } :: m)

/-- A round robin over members in number order, the one visited last being `cur`. -/
def drr (cur : Option Nat) (l : List DrrItem) : Option (DrrItem × List DrrItem) :=
  let at_ := cur.getD 0
  let l := l.filter (fun a => decide (at_ ≤ a.id)) ++ l.filter (fun a => decide (a.id < at_))
  match l with
  | [] => none
  | a :: m =>
    let a := if cur = some a.id then a else { a with deficit := a.deficit + a.quantum }
    drrVisit (300 * (m.length + 1)) (a :: m)

/-! ### Selection (R288) -/

/-- The quantum of a queue of port p in bytes (R286); a quantum of 0 counts as one unit. -/
def State.queueQuantum (s : State) (p q : Nat) : Nat :=
  let w := s.reg (Reg.EGR_PQW p)
  let n := if q < 512 then fld w 27 16 else if (q - 512) / 8 = p then fld w 11 0 else fld (s.xpServe ((q - 512) / 8)) 23 12
  64 * max 1 n

/-- The frame a class would send next: its queue, the copy, its bytes as sent, and the deficits of its queues by then. -/
structure Head where
  tc : Nat
  q : Nat
  copy : Copy
  bytes : List Byte
  deficits : List DrrItem
  deriving DecidableEq, Repr

/-- The head frame of class tc of port p at an instant. -/
def State.classHead (s : State) (p tc : Nat) (t : DWord) : Option Head :=
  let items := (s.classQueues p tc).filterMap (fun q =>
    let x := s.outq q
    x.copies.head?.map (fun k => (⟨q, x.deficit, s.queueQuantum p q, (s.rewrite k t).length + 4⟩ : DrrItem)))
  match drr (s.pclass p tc).curQ items with
  | some (a, l) =>
    (s.outq a.id).copies.head?.map (fun k => ⟨tc, a.id, k, s.rewrite k t, l⟩)
  | none => none

/-- The bits a frame of n bytes without FCS takes on the line, with preamble and inter-frame gap. -/
def lineBits (n : Nat) : Nat := (n + 4 + 20) * 8

/-- May `bits` bits of class tc leave from `t` on before its gate closes (R291)? -/
def State.gateFits (s : State) (p tc : Nat) (t : DWord) (bits : Nat) : Bool :=
  if !s.gclOn p then true
  else match (s.port p).cycleStart with
    | some c => s.openFor p tc c.toNat t.toNat bits
    | none => bit (s.gateNow p) tc

/-- Is class tc of port p open, unpaused and with credit, unless the shaped classes behave as strict priority (R288, R289)? -/
def State.classReady (s : State) (p tc : Nat) : Bool :=
  bit (s.gateNow p) tc && !(s.pclass p tc).paused && !(s.port p).pausedAll
    && (decide (s.regF (Reg.EGR_TCCFG p tc) 1 0 ≠ 1) || s.slopesOver p || decide (0 ≤ (s.pclass p tc).credit))
    && !(s.preemptableTc p tc && s.gateHold p)

/-- Must a frame be discarded by the transmitting MAC (R285, R293)? -/
def State.txTooLong (s : State) (p : Nat) (h : Head) : Bool :=
  decide (s.regF (Reg.PORT_CFG p) 30 16 < h.bytes.length + 4) || decide (s.sduLimit p h.tc < h.bytes.length + 4)

/-- Does the head frame pass the length check (R291, R296)? -/
def State.headFits (s : State) (p : Nat) (h : Head) (t : DWord) : Bool :=
  s.gateFits p h.tc t (if s.preemptableTc p h.tc then lineBits (min h.bytes.length (s.minFrag p - 4)) else lineBits h.bytes.length)

/-- The queue without its head, its deficit cleared when it empties, used by a frame of n bytes otherwise. -/
def State.takeHead (s : State) (h : Head) (use : Nat) : State :=
  let s := h.deficits.foldl (fun s a => s.setOutq a.id { s.outq a.id with deficit := a.deficit }) s
  let x := s.outq h.q
  let s := s.setOutq h.q ({ x with deficit := x.deficit - use }.leave (x.copies.drop 1))
  s.noteDepth h.q

/-- The class's round robin stands at the queue it served. -/
def State.setCurQ (s : State) (p : Nat) (h : Head) : State :=
  s.setPclass p h.tc { s.pclass p h.tc with curQ := some h.q }

/-- Discards a head frame that is too long (R285). -/
def State.dropLong (s : State) (p : Nat) (h : Head) : State :=
  (((s.takeHead h 0).creditEmpty p h.tc).bumpF (Reg.PORT_TXERR p) 31 16).unref h.copy.cell 1

/-- Discards the over-long head frames of the ready classes, at most n of them. -/
def State.dropLongs (s : State) (p : Nat) (t : DWord) : Nat → State
  | 0 => s
  | n + 1 =>
    match (upTo 8).findSome? (fun tc =>
      if s.classReady p tc then (s.classHead p tc t).bind (fun h => if s.txTooLong p h then some h else none) else none) with
    | some h => (s.dropLong p h).dropLongs p t n
    | none => s

/-- The eligible classes of a port with their head frames, highest first; `express` limits them to express ones. -/
def State.eligible (s : State) (p : Nat) (t : DWord) (express : Bool) : List Head :=
  (upTo 8).reverse.filterMap (fun tc =>
    if s.classReady p tc ∧ !(express ∧ s.preemptableTc p tc) then
      (s.classHead p tc t).bind (fun h => if s.headFits p h t then some h else none)
    else none)

/-- The quantum of a class of the DWRR group in bytes. -/
def State.classQuantum (s : State) (p tc : Nat) : Nat := max 1 (s.regF (Reg.EGR_TCCFG p tc) 31 16)

/-- The frame a port sends: the highest class of algorithm 0 or 1, else one of the DWRR group (R288). -/
def State.choose (s : State) (p : Nat) (l : List Head) : State × Option Head :=
  match l.find? (fun h => decide (s.regF (Reg.EGR_TCCFG p h.tc) 1 0 ≠ 2)) with
  | some h => (s, some h)
  | none =>
    let items := l.reverse.map (fun h =>
      (⟨h.tc, (s.pclass p h.tc).deficit, s.classQuantum p h.tc, h.bytes.length + 4⟩ : DrrItem))
    match drr (s.port p).dwrr items with
    | some (a, m) =>
      let s := m.foldl (fun s b =>
        let d := if b.id = a.id then b.deficit - b.need else b.deficit
        s.setPclass p b.id { s.pclass p b.id with deficit := d }) s
      (s.setPort p { s.port p with dwrr := some a.id }, l.find? (fun h => decide (h.tc = a.id)))
    | none => (s, none)

/-! ### Timestamps and windows -/

/-- Captures an egress timestamp (R42). The domain index of a frame whose domainNumber no PTP_DOMNUM field holds, and the PTP
fields of a frame that is no PTP message, are free values. -/
def State.captureTs (s : State) (p : Nat) (bytes : List Byte) (t : DWord) : State :=
  if 256 ≤ s.tb.txts.length then s.bump Reg.PTP_TXTS_LOST
  else
    let r := s.draw
    let s := r.2
    let f := parseFrame s.parseCfg bytes
    let dn := s.reg Reg.PTP_DOMNUM
    let rec_ : TxTs := match f.ptpOff with
      | some o =>
        let d := (upTo 4).find? (fun d => decide (fld dn (8 * d + 7) (8 * d) = f.ptpDomain))
        ⟨d.getD (fld r.1 1 0), p, f.ptpType, beAt bytes (o + 30) 2, t⟩
      | none => ⟨fld r.1 1 0, p, fld r.1 5 2, fld r.1 31 16, t⟩
    { s with tb.txts := s.tb.txts ++ [rec_] }

/-- Judges a frame of a measured stream against its window (R336): a hit on its path, or a miss of its port and class. -/
def State.windowJudge (s : State) (p : Nat) (h : Head) (t : DWord) : State :=
  match h.copy.path with
  | some (a, k) =>
    if t.toNat ≤ s.boundaryAt t + (s.recW .adapt a 1).toNat then
      s.modMeas a k (fun m => { m with frames := m.frames + 1 })
    else
      let s := s.modMeas a k (fun m => { m with dups := m.dups + 1 })
      { s with ct.misses := insNat s.ct.misses (p * 8 + h.tc) }
  | none => s

/-- A frame begins to leave: it is taken from its queue, judged, timestamped and mirrored. -/
def State.beginTx (s : State) (p : Nat) (h : Head) (t : DWord) : State :=
  let s := (s.takeHead h (h.bytes.length + 4)).setCurQ p h
  let s := if bit (s.ctxWord h.copy.ctx 0) 5 ∧ h.copy.rtag.isNone then s.bumpF (Reg.PORT_TXERR p) 15 0 else s
  let s := s.windowJudge p h t
  let s := if h.copy.ts then s.captureTs p h.bytes t else s
  let k := h.copy
  let s := s.mirrorOnce k.cell k.desc h.bytes k.decision h.q (if k.mirrTs then t else 0) (if k.decision = 1 then k.group else 0) k.late
  let s := { s with sw.qwSent := Sparse.set (fun _ => 0) s.sw.qwSent h.q (Sparse.get (fun _ => 0) s.sw.qwSent h.q + 1) }
  s.setPort p { s.port p with tx := some ⟨h.q, k, h.bytes, t, 0⟩ }

/-! ### Preemption (R295, R296) -/

/-- A ready express frame preempts the preemptable one in transmission (R295). -/
def State.cutTx (s : State) (p : Nat) (t : DWord) : State :=
  if (s.eligible p t true).isEmpty then s else s.suspend p t t

/-- Resumes a cut frame whose gate is open, when no express frame is ready. -/
def State.resumeTx (s : State) (p : Nat) (t : DWord) : State :=
  let x := s.port p
  match x.cut with
  | some y =>
    let tc := y.q % 8
    let rest := y.bytes.length + 4 - y.sent
    if bit (s.gateNow p) tc ∧ !s.gateHold p ∧ s.gateFits p tc t ((min rest (s.minFrag p) + 20) * 8) then
      s.setPort p { x with tx := some { y with start := t }, cut := none }
    else s
  | none => s

/-- A transmission opportunity of a port (R288). -/
def State.transmit (s : State) (p : Nat) (t : DWord) : State :=
  if !s.macUp p ∨ s.sw.dpFenced then s
  else
    let s := (s.syncPort p).cutTx p t
    let x := s.port p
    if x.tx.isSome then s
    else
      let s := s.dropLongs p t (s.sw.queues.map (fun e => e.2.copies.length)).sum
      let l := s.eligible p t x.cut.isSome
      let r := s.choose p l
      match r.2 with
      | some h => r.1.beginTx p h t
      | none => s.resumeTx p t

/-- A port's transmission ends: the frame has left, its copy is done, and waiting frames may enter its queue. -/
def State.txDone (s : State) (p : Nat) : State :=
  let s := s.syncPort p
  let x := s.port p
  match x.tx with
  | some y =>
    let s := s.emit (.frame p y.bytes)
    let s := (s.setPort p { x with tx := none }).creditEmpty p (y.q % 8)
    (s.unref y.copy.cell 1).injectRetry
  | none => s

/-- TRANSMISSION_SELECT (R288): a transmission opportunity of port p at an instant. -/
def execTransmissionSelect (p : Fin 64) (at_ : DWord) (s : State) : Host.Outcome State Fault Refusal :=
  done ((s.advanceTo at_).transmit p (s.advanceTo at_).tb.now)

/-- TRANSMIT_COMPLETE (R256): the transmission of port p ends. -/
def execTransmitComplete (p : Fin 64) (at_ : DWord) (s : State) : Host.Outcome State Fault Refusal :=
  done ((s.advanceTo at_).txDone p)

/-- GATE_ENTRY_CHANGE (R290): the interval of a port's running entry ends. -/
def execGateEntryChange (p : Fin 64) (at_ : DWord) (s : State) : Host.Outcome State Fault Refusal :=
  done ((s.advanceTo at_).syncPort p)

/-! ### Gate list banks and swaps (R292) -/

/-- EGR_GCL_DATA1 (R292): the write commits the entry that EGR_GCL_IDX names, unless its bank is active. -/
def State.gclCommit (s : State) (p : Nat) (v : Word) : State :=
  let idx := s.reg (Reg.EGR_GCL_IDX p)
  let b := bit idx 8
  let off := Reg.EGR_GCL_DATA1 p
  if b = (s.port p).gateBank then (s.clearStage (Reg.EGR_GCL_DATA0 p) 2).refuse off v
  else
    let e := gclIndex p b (fld idx 7 0)
    let w0 := (s.staged? (Reg.EGR_GCL_DATA0 p)).getD (s.recW .gcl e 0)
    (s.setRecs .gcl e 0 [w0 &&& 0x1FF#32, v]).clearStage (Reg.EGR_GCL_DATA0 p) 2

/-- Field STATUS of EGR_GCL_SWSTAT. -/
def State.gclStatus (s : State) (p st : Nat) : State := s.setRegF (Reg.EGR_GCL_SWSTAT p) 6 4 st

/-- The 48-bit tick that a 32-bit swap tick names. -/
def State.swapTick (s : State) (v : Word) : BitVec 48 := BitVec.ofNat 48 (s.tick / 2 ^ 32 * 2 ^ 32 + v.toNat)

/-- ARM of EGR_GCL_SWSTAT. -/
def State.gclArm (s : State) (p : Nat) : State :=
  let t := s.swapTick (s.reg (Reg.EGR_GCL_SWAP p))
  let s := s.setPort p { s.port p with armed := none }
  if t.toNat < s.tick + 2 then s.gclStatus p 3
  else if t.toNat % s.gclMult p ≠ 0 then s.gclStatus p 4
  else (s.setPort p { s.port p with armed := some t }).gclStatus p 1

/-- CANCEL of EGR_GCL_SWSTAT. -/
def State.gclCancel (s : State) (p : Nat) : State :=
  if (s.port p).armed.isSome then (s.setPort p { s.port p with armed := none }).gclStatus p 5 else s

/-- Boundary step 4 for port p: the idle bank of an armed swap becomes active (R292). -/
def State.gclSwap (s : State) (p : Nat) : State :=
  let x := s.port p
  match x.armed with
  | some a =>
    if a.toNat = s.tick then (s.setPort p { x with armed := none, gateBank := !x.gateBank }).gclStatus p 2 else s
  | none => s

/-- EGR_CTX_DATA1 (R297): the write commits the context that EGR_CTX_IDX names. -/
def State.ctxCommit (s : State) (v : Word) : State :=
  let i := s.regF Reg.EGR_CTX_IDX 11 0
  let w0 := (s.staged? Reg.EGR_CTX_DATA0).getD (s.recW .ctx i 0)
  (s.setRecs .ctx i 0 [w0 &&& 0x1FFFFF#32, v &&& 0xFFF#32]).clearStage Reg.EGR_CTX_DATA0 2

/-- A write of EGR_XP_L (R287): refused as DUP or COUNT, else the entry changes at once. -/
def State.xpWrite (s : State) (l : Nat) (v : Word) : State :=
  let others := (s.regs.filter (fun e => decide (Reg.EGR_XP_L 64 ≤ e.1 ∧ e.1 ≤ Reg.EGR_XP_L 4095 ∧ e.1 ≠ Reg.EGR_XP_L l)))
    |>.map (fun e => e.2) |>.filter (fun w => bit w 31 && decide (fld w 29 24 = fld v 29 24))
  if bit v 31 ∧ others.any (fun w => decide (fld w 11 0 = fld v 11 0)) then s.setReg Reg.EGR_XP_STAT 1
  else if bit v 31 ∧ 128 ≤ others.length then s.setReg Reg.EGR_XP_STAT 2
  else
    let w := v &&& 0xBFFFFFFF#32
    let s := (s.setReg (Reg.EGR_XP_L l) w).setReg Reg.EGR_XP_STAT 0
    if bit v 31 then { s with sw.xpOld := Sparse.set (fun _ => 0) s.sw.xpOld l w } else s

/-- Does a port's mode fit its number and leave the lanes of enabled ports alone (R284)? -/
def State.modeFits (s : State) (p m : Nat) : Bool :=
  let n := modeLanes m
  decide (m ≤ 9) && (decide (n = 0) || (decide (p % n = 0) && (upTo 64).all (fun q =>
    let k := modeLanes (s.regF (Reg.PORT_CFG q) 3 0)
    decide (q = p) || !s.portOn q || decide (k = 0) || decide (q + k ≤ p) || decide (p + n ≤ q))))

/-- A write of PORT_CFG (R284, R294): a mode that does not fit is refused and logged, and the port stays disabled. -/
def State.portCfg (s : State) (p : Nat) (v : Word) : State :=
  let off := Reg.PORT_CFG p
  let keep := v &&& 0xFFFF3E0F#32
  if s.modeFits p (fld v 3 0) then
    let s := s.syncPort p
    (s.setPort p ((s.port p).preempts (s.reg off) v)).setReg off keep
  else (s.setReg off (setBit (s.reg off) 31 false)).refuse off v

end Sys2Proof.Machine
end

