-- ==== Sys2Proof/Machine/Fit.lean ====
section
/-! DEFINITION. The deadline fit and the thread capacity of the admission ledger (R161, R162). -/

namespace Sys2Proof.Machine

/-- The distinct indices of the records of a kind that hold a nonzero word. -/
def State.recIds (s : State) (k : RecKind) : List Nat :=
  (s.recs.filterMap (fun e => if e.1 / 64 / 2 ^ 20 = k.num then some (e.1 / 64 % 2 ^ 20) else none)).foldl
    (fun l i => if l.getLast? = some i then l else l ++ [i]) []

/-- What the fit reads of one frond: the threads that may serve CONTROL, and the entry records of its images. -/
structure FitFrond where
  cap : Nat
  entries : List EntryRec
  deriving DecidableEq, Repr

/-- The role code of thread t in a core record. -/
def CoreRole.role (r : CoreRole) (t : Nat) : Nat := r.roles / 4 ^ t % 4

/-- The threads of a frond that may serve CONTROL (R161): its pinned threads, or all its PACKET threads when it has none. The threads
of a core out of service do not count (R490). -/
def fitCap (roles : List CoreRole) (down : Nat → Bool) : Nat :=
  let cores := roles.zip (upTo 16)
  let pinned (e : CoreRole × Nat) : Nat := ((upTo 8).filter (fun t => e.1.pinned.testBit t)).length
  let packet (e : CoreRole × Nat) : Nat := ((upTo 8).filter (fun t => decide (e.1.role t = 1))).length
  let up := cores.filter (fun e => !down e.2)
  if cores.any (fun e => decide (0 < pinned e)) then (up.map pinned).sum else (up.map packet).sum

/-- Is core c of frond f out of service? -/
def State.coreDown (s : State) (f c : Nat) : Bool := (s.core (f * 16 + c)).fenced || (s.frond f).fenced

/-- The staged image of a frond, if a live change waits. -/
def State.stagedImage (s : State) (f : Nat) : Option Image :=
  if (s.frond f).staged then (s.frond f).imgIdle else none

/-- A frond as its committed image, and a staged one beside it, make it. -/
def State.fitFrond (s : State) (f : Nat) : FitFrond :=
  match s.liveImage f with
  | none => ⟨0, []⟩
  | some im => ⟨fitCap im.roles (s.coreDown f), im.entries ++ (match s.stagedImage f with | some x => x.entries | none => [])⟩

/-- The fit's view of all fronds. -/
def State.fitView (s : State) : List FitFrond := (upTo 16).map (fun f => s.fitFrond f)

/-- The CONTROL records of entry e on a frond. -/
def FitFrond.of (x : FitFrond) (e : Nat) : List EntryRec := x.entries.filter (fun r => decide (r.ep = e ∧ r.family = 0))

/-- The frond set F that serves CONTROL entry e. -/
def State.fitSet (s : State) (v : List FitFrond) (e : Nat) : List Nat :=
  ((v.zip (upTo 16)).filter (fun x => s.regB (Reg.DSP_EPSET e) x.2 && !(x.1.of e).isEmpty)).map (fun x => x.2)

/-- The admitted streams: handle, ENTRY, FPT. -/
def State.admitted (s : State) : List (Nat × Nat × Nat) :=
  (s.recIds .stream).filterMap (fun h => if s.recF .stream h 1 31 16 = 0 then none else some (h, s.recF .stream h 1 15 8, s.recF .stream h 1 31 16))

/-- The largest bound of entry e on the fronds of F. -/
def fitBound (v : List FitFrond) (F : List Nat) (e : Nat) : Nat :=
  ((F.flatMap (fun f => (nth ⟨0, []⟩ v f).of e)).map (fun r => r.bound)).foldl max 0

/-- The terms of the fit for one CONTROL entry. -/
structure Fit where
  q : Nat
  b : Nat
  g : Nat
  load : Nat
  cap : Nat
  free : Bool
  deriving DecidableEq, Repr

/-- Slots per tick. -/
def State.tickSlots (s : State) : Nat := s.regF Reg.TICK_PERIOD 15 0 * 625

/-- The fit of CONTROL entry e (R161, R162). -/
def State.fitOf (s : State) (v : List FitFrond) (e : Nat) : Fit :=
  let F := s.fitSet v e
  let same := (upTo 256).filter (fun x => decide (s.fitSet v x = F))
  let str := s.admitted.filter (fun a => same.contains a.2.1)
  let n := (str.map (fun a => a.2.2)).sum
  let p := (F.map (fun f => (nth ⟨0, []⟩ v f).cap)).sum
  let bmax := (same.map (fun x => fitBound v F x)).foldl max 0
  ⟨if p = 0 then 0 else ceilDiv n p * bmax, fitBound v F e,
    if F.any (fun f => s.regB Reg.CLK_GATE f) then 125 else 0,
    (str.map (fun a => a.2.2 * fitBound v F a.2.1)).sum, p, decide (n = 0)⟩

/-- Does an entry pass the deadline fit (R161)? With no thread to serve it, it passes only when nothing is admitted to it. -/
def State.fitPass (s : State) (x : Fit) : Bool := (decide (0 < x.cap) || x.free) && decide (x.q + x.b + x.g ≤ s.tickSlots)
/-- Does its frond set pass the thread-capacity entry of the ledger (R162)? -/
def State.ledgerPass (s : State) (x : Fit) : Bool := decide (x.load ≤ x.cap * s.tickSlots)

/-- The CONTROL entries of a view that some frond serves. -/
def State.fitEntries (s : State) (v : List FitFrond) : List Nat := (upTo 256).filter (fun e => !(s.fitSet v e).isEmpty)

/-- The first CONTROL entry that fails check 1 of Table 13-7. -/
def State.fitFail (s : State) : Option Nat :=
  let v := s.fitView
  (s.fitEntries v).find? (fun e => let x := s.fitOf v e; !(s.fitPass x && s.ledgerPass x))

end Sys2Proof.Machine
end

