-- ==== Sys2Proof/Machine/Transfer.lean ====
section
/-! DEFINITION. The frond DMA engines and the check-value channels (R215 to R218, R412 to R420): checks, chunks, completion. -/

namespace Sys2Proof.Machine

/-! ### Address rules of R216 -/

/-- Do n bytes from a device address on lie in one region, or in the two I-RAM banks of one core? -/
def oneRegion (a n : Nat) : Bool :=
  let x := regionOf a
  let y := regionOf (a + n - 1)
  decide (x ≠ .unmapped) && (decide (x = y) || (match x, y with
    | .iram f c false, .iram g d true => decide (f = g ∧ c = d)
    | _, _ => false))

/-- May DMA read n bytes from a device address? -/
def State.dmaReads (s : State) (a n : Nat) : Bool :=
  decide (0 < n) && oneRegion a n && (decide (regionOf a ≠ .dram) || s.inDram a n)

/-- The code for a destination of n bytes, none where DMA may write it: OPERAND_RANGE, RO_TARGET or IRAM_ACTIVE. -/
def State.dmaWriteCode (s : State) (a n : Nat) : Option Byte :=
  if !s.dmaReads a n then some 0x43
  else match regionOf a with
    | .dram => none
    | .shared _ => none
    | .common => none
    | .dmem _ _ => if a % 0x10000 + n ≤ 0xC000 then none else some 0x58
    | .iram _ _ _ => if s.inActive a n then some 0x59 else none
    | _ => some 0x58

/-- Does an access to n bytes from `a` on wait for DRAM to serve requests (R399)? -/
def State.dramWaits (s : State) (a : Nat) : Bool := decide (a < 0x40000000000) && !s.dramReady

/-- Does a read at `a` end UNCORR because its channel group is retired (R408)? -/
def State.readRetired (s : State) (a : Nat) : Bool := decide (a < 0x40000000000) && s.dramRetired a

/-! ### DMA descriptors (R215, Table 08-6) -/

/-- The source address of words 2 and 3. -/
def Cmd.src (c : Cmd) : Nat := (c.w 2).toNat + fld (c.w 3) 15 0 * 2 ^ 32
/-- The destination address of words 4 and 5. -/
def Cmd.dst (c : Cmd) : Nat := (c.w 4).toNat + fld (c.w 5) 15 0 * 2 ^ 32
/-- The length of word 6. -/
def Cmd.len (c : Cmd) : Nat := (c.w 6).toNat

/-- One copy of a command: source, destination, length. -/
structure Part where
  src : Nat
  dst : Nat
  len : Nat
  deriving DecidableEq, Repr

/-- Entry j of a list whose words follow the descriptor. -/
def Cmd.entry (c : Cmd) (j : Nat) : Part :=
  let b := (upTo 4).flatMap (fun i => leBytes 4 (c.w (8 + 4 * j + i)).toNat)
  ⟨leAt b 0 6, leAt b 6 6, leAt b 12 4⟩

/-- The copy a command is at. -/
def Cmd.part (c : Cmd) : Part := if c.opcode = 4 then c.entry c.entries else ⟨c.src, c.dst, c.len⟩

/-- The code for one copy, none where it may begin (R215, R216). -/
def State.copyCode (s : State) (p : Part) : Option Byte :=
  if !s.dmaReads p.src p.len then some 0x43
  else match s.dmaWriteCode p.dst p.len with
    | some e => some e
    | none => if p.src < p.dst + p.len ∧ p.dst < p.src + p.len then some 0x5A else none

/-- The used bits of words 2 to 7, by opcode. -/
def dmaUsed (op : Nat) : List Word :=
  let f : Word := 0xFFFFFFFF
  if op = 1 then [f, 0xFFFF, f, 0xFFFF, f, 0]
  else if op = 2 then [0, 0, f, 0xFFFF, f, f]
  else if op = 3 then [0x7FFFF, 0x3FFF, f, 0xFFFF, f, 0]
  else [f, 0xFFFF, 0, 0, f, 0]

/-- Is the list of a LIST command well placed (R218)? -/
def State.listOk (s : State) (c : Cmd) : Bool :=
  let n := c.len
  decide (1 ≤ n ∧ n ≤ 64) && decide (c.src % 16 = 0) && s.dmaReads c.src (16 * n)
    && (match regionOf c.src with
      | .dram => true
      | .shared _ => true
      | .common => true
      | _ => false)

/-- A LIST command with its entries behind its descriptor. -/
def State.withList (s : State) (c : Cmd) : Cmd :=
  if c.opcode = 4 ∧ s.listOk c then
    { c with desc := c.desc.take 8 ++ (upTo (4 * c.len)).map (fun i => s.word (c.src + 4 * i)) }
  else c

/-- The checks of a DMA command (R215 to R218, R529). A length of 0, which R215 excludes, ends LIMIT. -/
def State.dmaCheck (s : State) (f : Nat) (c : Cmd) : Option Nat :=
  let op := c.opcode
  let max_ := s.lmax f 1
  let limit : Option Nat :=
    if op = 4 then
      (if s.listOk c ∧ max_ < ((upTo c.len).map (fun j => (c.entry j).len)).sum then some 0x44 else none)
    else if c.len = 0 ∨ max_ < c.len then some 0x44 else none
  let fr := s.frame (fld (c.w 2) 18 0)
  let bad : Option Byte :=
    if op = 1 then s.copyCode c.part
    else if op = 2 then s.dmaWriteCode c.dst c.len
    else if op = 3 then
      match s.dmaWriteCode c.dst c.len with
      | some e => some e
      | none => if !c.held then some 0x5B else if fr.bytes.length < fld (c.w 3) 13 0 + c.len then some 0x5C else none
    else if s.listOk c then none else some 0x5D
  let operand : Option Nat := if bad = some 0x43 then some 0x43 else none
  cmdCheck c f (decide (1 ≤ op ∧ op ≤ 4)) (dmaUsed op) none limit 8 operand (bad.map (fun b => b.toNat))

/-- The result record of a DMA command. -/
def Cmd.dmaResult (c : Cmd) : List Word := [wd c.acc, wd (if c.opcode = 4 then c.entries else 0)]

/-- A command that has acted, with its code and result record. -/
def Cmd.acted (c : Cmd) (code : Byte) (res : List Word) : Cmd := { c with phase := .acted code res }

/-- A LIST command at its next entry: it goes on, ends OK after the last, or ends with the code of an entry that fails (R218). -/
def State.listNext (s : State) (c : Cmd) : Cmd :=
  if c.len ≤ c.entries then c.acted 0 c.dmaResult
  else match s.copyCode (c.entry c.entries) with
    | some e => c.acted e c.dmaResult
    | none => { c with phase := .started 0 }

/-- The source that the log of R115 names for a command. -/
def Cmd.source (c : Cmd) : Word :=
  match c.who with
  | .thread t _ _ => t.setWidth 32
  | .host g => wd (2 ^ 31 + g)

/-- Logs the refused write of a command that has ended IRAM_ACTIVE (R115). -/
def State.noteIram (s : State) (c : Cmd) : State :=
  match c.phase with
  | .acted e _ => if e = 0x59 then s.iramRefused c.part.dst c.source else s
  | _ => s

/-- Starts the DMA command at the head of a frond's queue, if its opcode is `op` (R204, R215). -/
def State.dmaStart (s : State) (f op : Nat) : State :=
  match s.headCmd f 1 with
  | none => s
  | some c =>
    if c.opcode ≠ op ∨ (s.frond f).fencedKinds.testBit 1 then s
    else
      let c := s.withList c
      let c : Cmd := match s.dmaCheck f c with
        | some e => c.acted (BitVec.ofNat 8 e) []
        | none => if op = 4 then s.listNext c else { c with phase := .started 0 }
      (s.noteIram c).startCmd f 1 c c.phase

/-- The bytes of the next chunk: up to the next aligned 256-byte address (R396). -/
def chunkLen (a left : Nat) : Nat := min left (256 - a % 256)

/-- The bytes a DMA command writes next, from m bytes into its copy on. -/
def State.chunkBytes (s : State) (c : Cmd) (m n : Nat) : List Byte :=
  if c.opcode = 2 then (upTo n).map (fun i => nth 0 (leBytes 4 (c.w 7).toNat) ((m + i) % 4))
  else if c.opcode = 3 then slice (s.frame (fld (c.w 2) 18 0)).bytes (fld (c.w 3) 13 0 + m) n
  else s.bytes (c.part.src + m) n

/-- Does a command read a source by address? -/
def Cmd.reads (c : Cmd) : Bool := decide (c.opcode = 1 ∨ c.opcode = 4)

/-- The length of a command's chunk from m bytes into its copy on (R396): up to the next aligned 256-byte DRAM address of its source or its
destination, or of its destination where neither is DRAM, and on to the end of an aligned 8-byte destination word, which is written whole
(R216, log entry 41). -/
def Cmd.chunk (c : Cmd) (m : Nat) : Nat :=
  let p := c.part
  let left := p.len - m
  let a := p.src + m
  let b := p.dst + m
  let n :=
    if c.reads ∧ a < 0x40000000000 then
      (if b < 0x40000000000 then min (chunkLen a left) (chunkLen b left) else chunkLen a left)
    else chunkLen b left
  min left (n + (8 - (b + n) % 8) % 8)

/-- The 64-byte DRAM block at address `x` where a write of n bytes at `a` covers it in part, and so is a read-modify-write (R405). -/
def partBlock (a n : Nat) (x : Option Nat) : Option Nat :=
  match x with
  | none => none
  | some x =>
    let b := x / 64 * 64
    if a < 0x40000000000 ∧ a < b + 64 ∧ b < a + n ∧ (b < a ∨ a + n < b + 64) then some b else none

/-- The pieces of a write of bytes at `a` that leaves one block as it is. -/
def around (a : Nat) (bs : List Byte) (b : Option Nat) : List (Nat × List Byte) :=
  match b with
  | none => [(a, bs)]
  | some b => [(a, bs.take (b - a)), (b + 64, bs.drop (b + 64 - a))]

/-- Writes the pieces of a write. -/
def State.devWrites (s : State) (l : List (Nat × List Byte)) : State := l.foldl (fun s e => s.devWrite e.1 e.2) s

/-- One chunk of a DMA command that has moved m bytes of its copy; `bad` tells of an uncorrectable error in what it reads, `part` names a
block that it writes in part and whose read finds one: that block stays as it is (R405). -/
def State.dmaChunk (s : State) (f i : Nat) (c : Cmd) (m : Nat) (bad : Bool) (part : Option Nat) : State :=
  let p := c.part
  let n := c.chunk m
  let reads := c.reads
  if s.dramWaits (p.dst + m) ∨ (reads ∧ s.dramWaits (p.src + m)) then s
  else
    let lost := reads && s.readRetired (p.src + m)
    let s := if lost then s.bump Reg.DRC_CNT_RETIREDACC else s
    if bad ∨ lost then s.setRunning f i (c.acted 0x45 c.dmaResult)
    else if s.inActive (p.dst + m) n then (s.iramRefused (p.dst + m) c.source).setRunning f i (c.acted 0x59 c.dmaResult)
    else
      let b := s.chunkBytes c m n
      let gone := s.orphanToReplaced c.who (p.dst + m)
      let s := if gone then s.countLost f c else s.devWrites (around (p.dst + m) b (partBlock (p.dst + m) n part))
      let c := { c with acc := c.acc + n, lost := c.lost || gone }
      let c := if m + n < p.len then { c with phase := .started (m + n) }
        else if c.opcode = 4 then s.listNext { c with entries := c.entries + 1 }
        else c.acted 0 c.dmaResult
      (s.noteIram c).setRunning f i c

/-- The block that running command i of frond f is about to write in part, of those `part` names (R405). -/
def State.chunkPart (s : State) (f : Option Nat) (i : Nat) (bad : Bool) (part : Option Nat) : Option Nat :=
  match f.bind (fun f => (s.frond f).running[i]?) with
  | none => none
  | some c =>
    match c.phase with
    | .started m =>
      let p := c.part
      let stops := bad || s.dramWaits (p.dst + m) || (c.reads && (s.dramWaits (p.src + m) || s.readRetired (p.src + m))) || s.readRetired (p.dst + m)
      if c.kind = 1 ∧ !stops then partBlock (p.dst + m) (c.chunk m) part else none
    | _ => none

/-! ### Check values (R412 to R419) -/

/-- The channel of a CHK job. -/
def Cmd.chan (c : Cmd) : Nat := fld (c.w 3) 21 16
/-- Its length. -/
def Cmd.chkLen (c : Cmd) : Nat := fld (c.w 4) 15 0 + 1
/-- Its zero window: offset and length. -/
def Cmd.zero (c : Cmd) : Nat × Nat := (fld (c.w 4) 31 16, fld (c.w 3) 27 24)
/-- The channel's configuration as captured at the start. -/
def Cmd.chCfg (c : Cmd) : Word := c.w 8
/-- The polynomial of a job. -/
def Cmd.poly (c : Cmd) : Nat := fld c.chCfg 1 0
/-- The guard of a job (R413). -/
def Cmd.guard (c : Cmd) : Nat :=
  let m := fld (c.w 3) 23 22
  Nat.xor (if m = 1 ∨ m = 3 then c.src else 0) (if m = 2 ∨ m = 3 then (c.w 5).toNat else 0)
/-- The expected value of a COMPARE. -/
def Cmd.expected (c : Cmd) : DWord := pair (c.w 6) (c.w 7)

/-- The job with its channel's configuration and seed captured (R415). -/
def State.withChannel (s : State) (c : Cmd) : Cmd :=
  let n := c.chan
  { c with desc := c.desc.take 8 ++ [s.reg (Reg.CHK_CH_CFG n), s.reg (Reg.CHK_CH_SEED_LO n), s.reg (Reg.CHK_CH_SEED_HI n)] }

/-- Do expected bits stand above the width of a COMPARE's polynomial (R418)? -/
def Cmd.wide (c : Cmd) : Bool := decide (c.opcode = 2) && decide (2 ^ polyWidth c.poly ≤ c.expected.toNat)

/-- The used bits of words 2 to 7 of a CHK descriptor (R417). -/
def chkUsed (op : Nat) : List Word :=
  let f : Word := 0xFFFFFFFF
  [f, 0x0FFFFFFF, f, f, if op = 2 then f else 0, if op = 2 then f else 0]

/-- The remaining checks of a job: CHANNEL_OFF, ZERO_RANGE. -/
def Cmd.chkRest (c : Cmd) : Option Nat :=
  if !bit c.chCfg 31 then some 0x61
  else if 8 < c.zero.2 ∨ c.chkLen < c.zero.1 + c.zero.2 then some 0x62
  else none

/-- The checks of a CHK command (R417, R418, R529), its channel captured. -/
def State.chkCheck (s : State) (f : Nat) (c : Cmd) : Option Nat :=
  let op := c.opcode
  cmdCheck c f (decide (op = 1 ∨ op = 2) && !c.wide) (chkUsed op) none
    (if s.lmax f 2 < c.chkLen then some 0x44 else none) 16
    (if s.dmaReads c.src c.chkLen then none else some 0x43) c.chkRest

/-- A job that reads its source next: the register of its check value stands in `acc`. -/
def Cmd.chkBegin (c : Cmd) : Cmd :=
  { c with phase := .started 0, acc := crcStart c.poly (pair (c.w 9) (c.w 10)).toNat c.guard }

/-- Starts the CHK command at the head of a frond's queue, if its opcode is `op`. -/
def State.chkStart (s : State) (f op : Nat) : State :=
  match s.headCmd f 2 with
  | none => s
  | some c =>
    if c.opcode ≠ op ∨ (s.frond f).fencedKinds.testBit 2 then s
    else
      let c := s.withChannel c
      let c : Cmd := match s.chkCheck f c with
        | some e => c.acted (BitVec.ofNat 8 e) []
        | none => c.chkBegin
      s.startCmd f 2 c c.phase

/-- Records a mismatch (R419): the log, the channel's count, the submitter. `reg` marks the job of the host registers. -/
def State.mismatch (s : State) (c : Cmd) (value : DWord) (reg : Bool) : State :=
  let live := s.live c.who
  let (host, tag, thr) : Bool × Nat × Nat := match c.who with
    | .thread t g _ => (false, g, t.toNat)
    | .host g => (true, if reg then 0 else g, 0)
  let head := wd (2 ^ 31 + (if host then 2 ^ 30 else 0) + c.chan * 2 ^ 24 + tag * 2 ^ 20 + thr)
  let s := s.bump (Reg.CHK_CH_MISCNT c.chan)
  let s := if s.ck.log.length < 16 then
      let r : MisRec := ⟨head, c.expected, value, s.tick32⟩
      { s with ck.log := s.ck.log ++ [r] }
    else s.bump Reg.CHK_MLOG_LOST
  match c.who with
  | .thread t g _ => if live then s.lateRecord t g 2 0x60 c.ptr else s
  | .host _ => s.msix 17

/-- The bytes of a chunk of a job's source, with its zero window (R414). -/
def State.chkBytes (s : State) (c : Cmd) (m n : Nat) : List Byte :=
  let z := c.zero
  (upTo n).map (fun i => if z.1 ≤ m + i ∧ m + i < z.1 + z.2 then 0 else s.byte (c.src + m + i))

/-- The end of a job whose register is `reg`: the code and the computed value. -/
def Cmd.chkEnd (c : Cmd) (reg : Nat) : Byte × DWord :=
  let v : DWord := BitVec.ofNat 64 (crcFinish c.poly reg)
  (if c.opcode = 2 ∧ v ≠ c.expected then 0x60 else 0, v)

/-- The result record of a job. -/
def Cmd.chkResult (c : Cmd) (v : DWord) : List Word := [lo32 v, hi32 v, wd c.chkLen, 0]

/-- One chunk of a job: the job after it, and when it is complete its code and value. -/
def State.chkStep (s : State) (c : Cmd) (m : Nat) : Cmd × Option (Byte × DWord) :=
  let n := chunkLen (c.src + m) (c.chkLen - m)
  let reg := crcFeed c.poly c.acc (s.chkBytes c m n)
  if m + n < c.chkLen then ({ c with phase := .started (m + n), acc := reg }, none)
  else (c, some (c.chkEnd reg))

/-- One chunk of a CHK command. -/
def State.chkChunk (s : State) (f i : Nat) (c : Cmd) (m : Nat) (bad : Bool) : State :=
  if s.dramWaits (c.src + m) then s
  else
    let lost := s.readRetired (c.src + m)
    let s := if lost then s.bump Reg.DRC_CNT_RETIREDACC else s
    if bad ∨ lost then s.setRunning f i (c.acted 0x45 [])
    else match s.chkStep c m with
      | (d, none) => s.setRunning f i d
      | (_, some r) =>
        let s := s.setRunning f i (c.acted r.1 (c.chkResult r.2))
        if r.1 = 0x60 then s.mismatch c r.2 false else s

/-! ### The host's check job (R420) -/

/-- Ends the host job with a code and a value. -/
def State.hjEnd (s : State) (code : Byte) (v : Option DWord) : State :=
  let s := s.setReg Reg.CHK_HJ_CMD (setFld (setBit (s.reg Reg.CHK_HJ_CMD) 31 false) 15 8 code.toNat)
  let s := match v with
    | some v => (s.setReg Reg.CHK_HJ_RES_LO (lo32 v)).setReg Reg.CHK_HJ_RES_HI (hi32 v)
    | none => s
  { s with ck.job := none }

/-- A write of CHK_HJ_CMD with OP ≠ 0: the job is captured and checked, and reads its source chunk by chunk. -/
def State.hjStart (s : State) (op : Nat) : State :=
  let c : Cmd := ⟨.host 0, 2, wd (2 + op * 256) :: 0 :: (upTo 6).map (fun i => s.reg (Reg.CHK_HJ_W i)), 0, .queued, 0, 0, false, s.tb.now, s.tick, 0, false⟩
  let c := s.withChannel c
  let s := s.setReg Reg.CHK_HJ_CMD (setBit (setFld (s.reg Reg.CHK_HJ_CMD) 1 0 op) 31 true)
  let unused := (upTo 6).any (fun i => c.w (i + 2) &&& ~~~(nth 0 (chkUsed op) i) != 0)
  if 2 < op ∨ unused ∨ c.wide then s.hjEnd 0x40 none
  else if !s.dmaReads c.src c.chkLen then s.hjEnd 0x43 none
  else match c.chkRest with
    | some e => s.hjEnd (BitVec.ofNat 8 e) none
    | none => { s with ck.job := some c.chkBegin }

/-- One chunk of the host job. -/
def State.hjChunk (s : State) (bad : Bool) : State :=
  match s.ck.job with
  | none => s
  | some c =>
    match c.phase with
    | .started m =>
      if s.dramWaits (c.src + m) then s
      else
        let lost := s.readRetired (c.src + m)
        let s := if lost then s.bump Reg.DRC_CNT_RETIREDACC else s
        if bad ∨ lost then s.hjEnd 0x45 none
        else match s.chkStep c m with
          | (d, none) => { s with ck.job := some d }
          | (_, some r) =>
            let s := s.hjEnd r.1 (some r.2)
            if r.1 = 0x60 then s.mismatch c r.2 true else s
    | _ => s

/-- DMA_CHUNK's effect on the running command i of frond f, or on the host job. -/
def State.moveChunk (s : State) (f : Option Nat) (i : Nat) (bad : Bool) (part : Option Nat) : State :=
  match f with
  | none => s.hjChunk bad
  | some f =>
    match (s.frond f).running[i]? with
    | none => s
    | some c =>
      match c.phase with
      | .started m => if c.kind = 1 then s.dmaChunk f i c m bad part else if c.kind = 2 then s.chkChunk f i c m bad else s
      | _ => s

end Sys2Proof.Machine
end

