-- ==== Sys2Proof/Machine/Votes.lean ====
section
/-! DEFINITION. The vote unit (R356 to R358) and the SIG commands (R354, R355). -/

namespace Sys2Proof.Machine

/-! ### Values by TYPE (R344) -/

/-- The ordering key of a value: signed, binary64 or unsigned. -/
def sigKey (ty : Nat) (v : DWord) : Int := if ty = 1 then v.toInt else if ty = 2 then f64Key v.toNat else v.toNat

/-- Is a value no number of its TYPE (a binary64 NaN)? -/
def sigNan (ty : Nat) (v : DWord) : Bool := decide (ty = 2) && f64Nan v.toNat

/-- The values in the order of their TYPE. -/
def sortValues (ty : Nat) (l : List DWord) : List DWord := sortBy (fun a b => decide (sigKey ty a ≤ sigKey ty b)) l

/-- Does max − min of the values exceed the threshold (Table 14-8)? No difference with a NaN exceeds anything. -/
def spreadOver (ty : Nat) (l : List DWord) (disc : DWord) : Bool :=
  let o := sortValues ty l
  let lo := nth 0 o 0
  let hi := nth 0 o (o.length - 1)
  if l.any (sigNan ty) then false
  else if ty = 2 then
    match f64Add hi.toNat (f64Negate lo.toNat) with
    | some d => !f64Nan disc.toNat && decide (f64Key disc.toNat < f64Key d)
    | none => false
  else if ty = 3 then decide (lo ≠ hi)
  else decide ((disc.toNat : Int) < sigKey ty hi - sigKey ty lo)

/-- The mean of values (R357); of one that is a NaN, IEEE 754 leaves sign and payload free. -/
def State.meanOf (s : State) (ty : Nat) (l : List DWord) : State × DWord :=
  let n := l.length
  if ty = 2 then
    let sum := (l.drop 1).foldl (fun (a : Option Nat) v => a.bind (fun x => f64Add x v.toNat)) ((l.head?).map (fun v => v.toNat))
    match sum.bind (fun x => f64DivNat x n) with
    | some x => (s, BitVec.ofNat 64 x)
    | none => let r := s.draw64; (r.2, quietNan64 r.1)
  else if ty = 1 then (s, BitVec.ofInt 64 ((l.map (fun v => v.toInt)).sum / n))
  else (s, BitVec.ofNat 64 ((l.map (fun v => v.toNat)).sum / n))

/-- The median of three values; with a NaN among them, which has no place in their order, it is any one of them. -/
def State.medianOf (s : State) (ty : Nat) (l : List DWord) : State × DWord :=
  if l.any (sigNan ty) then let r := s.draw; (r.2, nth 0 l (r.1.toNat % l.length)) else (s, nth 0 (sortValues ty l) 1)

/-! ### Groups -/

/-- MODE of a group. -/
def State.vgMode (s : State) (g : Nat) : Nat := s.recF .vote g 0 21 19
/-- Is a group in use (R356)? -/
def State.groupInUse (s : State) (g : Nat) : Bool := decide (s.recF .vote g 0 22 22 = 1) && decide (s.vgMode g ≠ 0)
/-- The sources of a group. -/
def State.vgSources (s : State) (g : Nat) : List Nat := (upTo (s.recF .vote g 0 25 24)).map (fun i => s.recF .vote g (1 + i) 18 0)
/-- The result signal of a group. -/
def State.vgResult (s : State) (g : Nat) : Nat := s.recF .vote g 0 18 0
/-- The vote state of a group. -/
def State.vgState (s : State) (g : Nat) : VoteState := Sparse.get (fun _ => VoteState.reset) s.sg.votes g
/-- Writes the vote state of a group. -/
def State.setVgState (s : State) (g : Nat) (x : VoteState) : State :=
  { s with sg.votes := Sparse.set (fun _ => VoteState.reset) s.sg.votes g x }

/-- May a group be written (R356)? -/
def State.groupOk (s : State) (w : List Word) : Bool :=
  let w0 := nth 0 w 0
  let mode := fld w0 21 19
  let n := fld w0 25 24
  let res := s.sig (fld w0 18 0)
  let src := (upTo n).map (fun i => s.sig (fld (nth 0 w (1 + i)) 18 0))
  let clean := decide (w0 &&& 0xFC800000#32 = 0) && (upTo 3).all (fun i => decide (fld (nth 0 w (1 + i)) 31 19 = 0))
    && decide (fld (nth 0 w 6) 31 16 = 0) && nth 0 w 7 == 0 && decide (mode ≤ 4)
  let use_ := bit w0 22 && decide (mode ≠ 0)
  clean && (!use_ || (
    (res :: src).all (fun e => e.valid && decide (e.type = res.type))
      && (if mode = 1 then decide (n = 2) else if mode = 2 ∨ mode = 3 then decide (n = 3) else decide (n = 2 ∨ n = 3))
      && (if mode = 3 then decide (res.type = 3) else if mode = 2 ∨ mode = 4 then decide (res.type ≠ 3) else true)
      && decide (fld (nth 0 w 6) 15 0 ≠ 0)))

/-- What an evaluation gives: value, quality, whether the sources showed a discrepancy. -/
structure VoteAns where
  value : DWord
  quality : Byte
  disc : Bool
  deriving DecidableEq, Repr

/-- The outcome of Table 14-8 for the good source values `l` of `n` sources, with the result's previous view. -/
def State.voteOutcome (s : State) (mode ty n : Nat) (l : List DWord) (prev disc : DWord) : State × VoteAns :=
  let first := nth 0 l 0
  let wide := spreadOver ty l disc
  if l.isEmpty then (s, ⟨prev, 0x01, false⟩)
  else if mode = 1 then
    if l.length = n then (s, ⟨first, qGood, wide⟩) else (s, ⟨first, 0x44, false⟩)
  else if l.length = 1 then (s, ⟨first, if mode = 4 then 0x44 else 0x45, false⟩)
  else if mode = 2 then
    if l.length = n then let r := s.medianOf ty l; (r.1, ⟨r.2, qGood, wide⟩)
    else let r := s.meanOf ty l; (r.1, ⟨r.2, 0x44, wide⟩)
  else if mode = 3 then
    let ones := (l.filter (fun v => decide (v ≠ 0))).length
    let split := decide (0 < ones) && decide (ones < l.length)
    if l.length = n then (s, ⟨if n < 2 * ones then 1 else 0, qGood, split⟩)
    else if split then (s, ⟨prev, 0x06, true⟩)
    else (s, ⟨first, 0x44, false⟩)
  else
    let r := s.meanOf ty l
    (r.1, ⟨r.2, if l.length = n then qGood else 0x44, wide⟩)

/-- Reports a discrepancy (R358). -/
def State.voteReport (s : State) (g mask : Nat) : State :=
  let s := (s.postEvent 9 0 (wd g) (wd mask)).bump Reg.SIG_VOTE_DISC
  let cfg := s.reg Reg.SIG_VOTE_CFG
  if bit cfg 31 then
    let r := s.commitMsg (1024 + fld cfg 24 17) [wd g, s.tick32, wd mask, 0]
    if r.2 then r.1 else r.1.bump Reg.SIG_VOTE_CHFULL
  else s

/-- Evaluates a group in use (R357, R358): the state, value, quality and good-source mask. -/
def State.voteEval (s : State) (g : Nat) : State × DWord × Byte × Nat :=
  let src := s.vgSources g
  let res := s.sig (s.vgResult g)
  let good (n : Nat) : Bool :=
    let e := s.sig n
    e.valid && decide (e.type = res.type) && decide (qClass (s.sigView n).2 = 3)
  let mask := ((src.zip (upTo src.length)).map (fun p => if good p.1 then 2 ^ p.2 else 0)).sum
  let vals := (src.filter good).map (fun n => (s.sigView n).1)
  let disc := pair (s.recW .vote g 4) (s.recW .vote g 5)
  let r := s.voteOutcome (s.vgMode g) res.type src.length vals (s.sigView (s.vgResult g)).1 disc
  let a := r.2
  let s := r.1
  let s := if res.valid ∧ !res.subst then s.sigWrite (s.vgResult g) a.value a.quality s.tb.now 3 else s
  let x := s.vgState g
  let run := if a.disc then satAdd 65535 x.drun 1 else 0
  let due := a.disc && !x.reported && decide (s.recF .vote g 6 15 0 ≤ run)
  let s := s.setVgState g ⟨run, a.disc && (x.reported || due), mask⟩
  (if due then s.voteReport g mask else s, a.value, a.quality, mask)

/-- The groups in use among the first COUNT, in number order. -/
def State.voteGroups (s : State) : List Nat :=
  let n := s.regF Reg.SIG_VOTE_CFG 16 0
  (s.recs.filterMap (fun e =>
    let i := e.1 / 64 % 2 ^ 20
    if e.1 / 64 / 2 ^ 20 = RecKind.vote.num ∧ e.1 % 64 = 0 ∧ i < n ∧ s.groupInUse i then some i else none))

/-- The stale mark of Table 02-3 item 4 on the result of a group that was not evaluated. -/
def State.voteStale (s : State) (g : Nat) : State :=
  let n := s.vgResult g
  let e := s.sig n
  if e.valid ∧ !e.subst ∧ qClass e.quality = 3 then s.sigWrite n e.value 0x42 e.ts 3 else s

/-! ### SIG commands (R354, Tables 14-5 and 14-6) -/

/-- The first signal of a command. -/
def Cmd.sig0 (c : Cmd) : Nat := fld (c.w 2) 18 0
/-- Its count. -/
def Cmd.count (c : Cmd) : Nat := fld (c.w 3) 4 0
/-- Its signals. -/
def Cmd.signals (c : Cmd) : List Nat := (upTo c.count).map (fun i => c.sig0 + i)

/-- The used bits of words 2 to 7, by opcode. -/
def sigUsed (op : Nat) : List Word :=
  if op = 5 then [0xFFFF, 0, 0, 0, 0, 0]
  else [0x7FFFF, 0x1F, if op = 3 then 0xFFFFFFFF else if op = 4 then 0x11F else 0, 0, 0, 0]

/-- The size of the result record. -/
def Cmd.sigResultSize (c : Cmd) : Nat :=
  let op := c.opcode
  if op = 1 then 32 * c.count else if op = 2 then 16 * c.count else if op = 5 then 16 else 8

/-- The records of a WRITE, 16 bytes each. -/
def State.writeRecs (s : State) (f : Nat) (c : Cmd) : List (List Byte) :=
  (upTo c.count).map (fun i => s.bytes (sharedBase f + ((c.w 4).toNat - 0x100000) + 16 * i) 16)

/-- Is a WRITE record for signal n refused as VALUE_BAD? -/
def State.recBad (s : State) (n : Nat) (r : List Byte) : Bool :=
  decide (2 ≤ byteAt r 9) || (slice r 10 6).any (fun b => b != 0) || decide (byteAt r 8 / 64 = 2)
    || (decide ((s.sig n).type = 3) && decide (2 ≤ leAt r 0 8))

/-- The checks of a SIG command (R354, R529). -/
def State.sigCheck (s : State) (f : Nat) (c : Cmd) : Option Nat :=
  let op := c.opcode
  let range : Option Nat :=
    if op = 5 then (if s.groupInUse (fld (c.w 2) 15 0) then none else some 0x71)
    else if c.count = 0 ∨ 16 < c.count ∨ 524288 < c.sig0 + c.count then some 0x70 else none
  let a := (c.w 4).toNat
  let operand : Option Nat :=
    if op = 3 ∧ (a % 32 ≠ 0 ∨ viewRange a ≠ some .shared ∨ viewRange (a + 16 * c.count - 1) ≠ some .shared) then some 0x43 else none
  let rest : Option Nat :=
    if op = 3 ∧ (c.signals.zip (s.writeRecs f c)).any (fun p => s.recBad p.1 p.2) then some 0x72 else none
  cmdCheck c f (decide (1 ≤ op ∧ op ≤ 5)) (sigUsed op) none range c.sigResultSize operand rest

/-- CONFIG of one entry (R355). -/
def Sig.config (e : Sig) (w : Word) : Sig :=
  let clear := bit w 8 || decide (e.type ≠ fld w 1 0)
  let e := { e with type := fld w 1 0, valid := bit w 2, subst := bit w 3, staleChk := bit w 4 }
  if clear then { e with value := 0, prev := 0, quality := 0x01, prevQ := 0x01, old := true, changes := 0 } else e

/-- WRITE of one record (R355): whether it was written. -/
def State.sigPut (s : State) (n : Nat) (r : List Byte) : State × Bool :=
  let e := s.sig n
  if !e.valid ∨ (e.subst ∧ byteAt r 9 = 0) then (s, false)
  else (s.sigWrite n (BitVec.ofNat 64 (leAt r 0 8)) (BitVec.ofNat 8 (byteAt r 8)) s.tb.now 2, true)

/-- Bytes as little-endian words. -/
def toWords (bs : List Byte) : List Word := (upTo (bs.length / 4)).map (fun i => wd (leAt bs (4 * i) 4))

/-- The effect of a checked SIG command: the state, its code and its result record. -/
def State.sigAct (s : State) (f : Nat) (c : Cmd) : State × Byte × List Word :=
  let op := c.opcode
  if op = 1 then (s, 0, toWords (c.signals.flatMap (fun n => (s.sig n).bytes)))
  else if op = 2 then
    (s, 0, toWords (c.signals.flatMap (fun n =>
      let v := s.sigView n
      leBytes 8 v.1.toNat ++ [v.2, BitVec.ofNat 8 (s.sig n).flags] ++ List.replicate 6 0)))
  else if op = 3 then
    let r := (c.signals.zip (s.writeRecs f c)).foldl (fun (a : State × Nat) p =>
      let b := a.1.sigPut p.1 p.2
      (b.1, if b.2 then a.2 + 1 else a.2)) (s, 0)
    (r.1, if r.2 = c.count then 0 else 0x73, [wd r.2, wd (c.count - r.2)])
  else if op = 4 then
    (c.signals.foldl (fun s n => s.setSig n ((s.sig n).config (c.w 4))) s, 0, [wd c.count, 0])
  else
    let r := s.voteEval (fld (c.w 2) 15 0)
    (r.1, 0, [lo32 r.2.1, hi32 r.2.1, wd (r.2.2.1.toNat + r.2.2.2 * 256), 0])

/-- Starts the command of kind k and opcode `op` at the head of a frond's queue: its checks, then its effect at once (R204, R219,
R529). -/
def State.cmdAct (s : State) (f k op : Nat) (check : Cmd → Option Nat) (act : Cmd → State × Byte × List Word) : State :=
  match s.headCmd f k with
  | none => s
  | some c =>
    if c.opcode ≠ op ∨ (s.frond f).fencedKinds.testBit k then s
    else match check c with
      | some e => s.startCmd f k c (.acted (BitVec.ofNat 8 e) [])
      | none => let r := act c; r.1.startCmd f k c (.acted r.2.1 r.2.2)

/-- Starts the SIG command of opcode `op` at the head of a frond's queue. -/
def State.sigStart (s : State) (f op : Nat) : State := s.cmdAct f 4 op (fun c => s.sigCheck f c) (fun c => s.sigAct f c)

/-! ### Windows: items and groups (R353, R356) -/

/-- Writes SIG_WSTAT after a window commit. -/
def State.sigWstat (s : State) (window status : Nat) : State := s.setReg Reg.SIG_WSTAT (wd (window * 16 + status))

/-- A write of SIG_HV_DATA3 commits the item at SIG_HV_IDX (R349, R353). -/
def State.hvCommit (s : State) (v : Word) : State :=
  let i := s.regF Reg.SIG_HV_IDX 15 0
  let w := (upTo 3).map (fun k => (s.staged? (Reg.SIG_HV_DATA k)).getD (s.hvWord i k)) ++ [v]
  let s := s.clearStage (Reg.SIG_HV_DATA 0) 4
  if harvestOk w then
    (s.setBytes (0x803000000000 + i * 16) (w.flatMap (fun x => leBytes 4 x.toNat))).sigWstat 0 0
  else s.sigWstat 0 1

/-- A write of SIG_VG_DATA7 commits the group at SIG_VG_IDX (R356). -/
def State.vgCommit (s : State) (v : Word) : State :=
  let g := s.regF Reg.SIG_VG_IDX 15 0
  let w := (s.windowWords .vote g (Reg.SIG_VG_DATA 0) 7) ++ [v]
  let s := s.clearStage (Reg.SIG_VG_DATA 0) 8
  if s.groupOk w then
    let x := s.vgState g
    ((s.setRecs .vote g 0 w).setVgState g { x with drun := 0, reported := false }).sigWstat 1 0
  else s.sigWstat 1 1

end Sys2Proof.Machine
end

