-- ==== Sys2Proof/Machine/Peat.lean ====
section
/-! DEFINITION. The peat store (R366 to R380, R492): policies, streams, the scan of a tick, pages, PEAT commands. -/

namespace Sys2Proof.Machine

/-! ### Engine state -/

/-- A stream's state in the engine. -/
def State.pstream (s : State) (i : Nat) : PStream := Sparse.get (fun _ => PStream.reset) s.pt.streams i
/-- Writes a stream's state. -/
def State.setPstream (s : State) (i : Nat) (x : PStream) : State :=
  { s with pt.streams := Sparse.set (fun _ => PStream.reset) s.pt.streams i x }
/-- The engine's state of the signal at offset k of stream i. -/
def State.psig (s : State) (i k : Nat) : PSig := Sparse.get (fun _ => PSig.reset) s.pt.sigs (i * 2 ^ 20 + k)
/-- Writes the engine's state of a signal. -/
def State.setPsig (s : State) (i k : Nat) (x : PSig) : State :=
  { s with pt.sigs := Sparse.set (fun _ => PSig.reset) s.pt.sigs (i * 2 ^ 20 + k) x }

/-- The fields of a stream record (Table 15-2). -/
def psPolicy (w : List Word) : Nat := fld (nth 0 w 0) 15 8
/-- FIRST. -/
def psFirst (w : List Word) : Nat := fld (nth 0 w 1) 18 0
/-- COUNT. -/
def psCount (w : List Word) : Nat := fld (nth 0 w 2) 19 0
/-- PAGEBASE. -/
def psBase (w : List Word) : Nat := (nth 0 w 3).toNat + fld (nth 0 w 4) 15 0 * 2 ^ 32
/-- PAGES. -/
def psPages (w : List Word) : Nat := (nth 0 w 5).toNat
/-- STATE. -/
def psState (w : List Word) : Nat := fld (nth 0 w 6) 22 0

/-- KIND of a policy (Table 15-1). -/
def State.polKind (s : State) (p : Nat) : Nat := s.recF .policy p 0 2 0
/-- The committed record of stream i. -/
def State.peatRec (s : State) (i : Nat) : List Word := (upTo 8).map (fun k => s.recW .peat i k)
/-- Is stream i valid? -/
def State.peatValid (s : State) (i : Nat) : Bool := decide (s.recF .peat i 0 0 0 = 1)
/-- The valid streams, in number order. -/
def State.peatStreams (s : State) : List Nat :=
  s.recs.filterMap (fun e => if e.1 / 64 / 2 ^ 20 = RecKind.peat.num ∧ e.1 % 64 = 0 ∧ bit e.2 0 then some (e.1 / 64 % 2 ^ 20) else none)

/-- The bytes of state area per signal of a kind (R367). -/
def stateSize (kind : Nat) : Nat := if kind = 2 ∨ kind = 3 then 16 else if kind = 4 then 32 else 0

/-- Do [a, a + n) and [b, b + m) overlap? -/
def overlaps (a n b m : Nat) : Bool := decide (0 < n ∧ 0 < m ∧ a < b + m ∧ b < a + n)

/-! ### Budget (R378) -/

/-- The data rate in MT/s of a SPEED code. -/
def dramRate (code : Nat) : Nat := nth 0 [6400, 5600, 4800, 3200] code

/-- Worst-case bytes per tick of one stream. -/
def State.peatBytes (s : State) (w : List Word) : Nat :=
  (if s.polKind (psPolicy w) = 4 then 3 * psCount w else psCount w) * 16 + 64
/-- Signals scanned per tick of one stream. -/
def State.peatScanned (s : State) (w : List Word) : Nat := if s.polKind (psPolicy w) = 0 then 0 else psCount w

/-- The running sums of R378 over streams: bytes, signals, and the first stream at which one exceeds its limit. -/
def State.peatSums (s : State) (l : List (Nat × List Word)) : Nat × Nat × Option Nat :=
  let period := s.regF Reg.TICK_PERIOD 15 0
  let cap := 24 * s.chInService * dramRate s.dc.speed * period
  l.foldl (fun (a : Nat × Nat × Option Nat) e =>
    let b := a.1 + s.peatBytes e.2
    let n := a.2.1 + s.peatScanned e.2
    (b, n, if a.2.2.isSome then a.2.2 else if cap < 5 * b ∨ 10000 * period < 32 * n then some e.1 else none)) (0, 0, none)

/-- Runs the checks of R378 over streams: the state with the budget registers, and the stream that fails. -/
def State.peatBudget (s : State) (l : List (Nat × List Word)) : State × Option Nat :=
  let r := s.peatSums l
  ((s.setReg Reg.PEAT_BUDGET0 (wd r.1)).setReg Reg.PEAT_BUDGET1 (wd (ceilDiv (16 * r.2.1) 5)), r.2.2)

/-- The valid streams with their records. -/
def State.peatList (s : State) : List (Nat × List Word) := s.peatStreams.map (fun i => (i, s.peatRec i))

/-- Shows the outcome of the checks of Table 13-7 in CTL_ADMIT and CTL_ADMIT_OBJ (R342, R378). -/
def State.showAdmit (s : State) (r : Option (Nat × Nat)) : State :=
  let v := r.getD (0, 0)
  (s.setReg Reg.CTL_ADMIT (wd (v.1 * 256))).setReg Reg.CTL_ADMIT_OBJ (wd v.2)

/-! ### Commits (R366, R367) -/

/-- Writes PEAT_WSTAT after a window commit. -/
def State.peatWstat (s : State) (window status : Nat) : State := s.setReg Reg.PEAT_WSTAT (wd (window * 16 + status))

/-- A write of PEAT_P_DATA3 commits the policy at PEAT_P_IDX. -/
def State.policyCommit (s : State) (v : Word) : State :=
  let i := s.regF Reg.PEAT_P_IDX 7 0
  let w := (s.windowWords .policy i (Reg.PEAT_P_DATA 0) 3) ++ [v]
  let s := s.clearStage (Reg.PEAT_P_DATA 0) 4
  let w0 := nth 0 w 0
  let kind := fld w0 2 0
  let n := fld w0 31 16
  if s.peatStreams.any (fun j => decide (psPolicy (s.peatRec j) = i)) then s.peatWstat 0 3
  else if fld w0 15 4 ≠ 0 ∨ nth 0 w 1 ≠ 0 ∨ 5 ≤ kind ∨ (decide (kind = 3 ∨ kind = 4) = decide (n = 0)) then s.peatWstat 0 1
  else (s.setRecs .policy i 0 w).peatWstat 0 0

/-- The BAD checks of an enabling commit (R367). -/
def State.peatOk (s : State) (i : Nat) (w : List Word) : Bool :=
  let kind := s.polKind (psPolicy w)
  let size := stateSize kind * psCount w
  let others := (s.peatStreams.filter (fun j => decide (j ≠ i))).map (fun j => s.peatRec j)
  let clean := decide (fld (nth 0 w 0) 7 2 = 0) && decide (fld (nth 0 w 0) 31 16 = 0) && decide (fld (nth 0 w 1) 31 19 = 0)
    && decide (fld (nth 0 w 2) 31 20 = 0) && decide (fld (nth 0 w 4) 31 16 = 0) && decide (fld (nth 0 w 6) 31 23 = 0) && nth 0 w 7 == 0
  clean && decide (1 ≤ psCount w) && decide (psFirst w + psCount w ≤ 524288) && decide (psBase w % 4096 = 0) && decide (2 ≤ psPages w)
    && s.inDram (psBase w) (psPages w * 4096)
    && !others.any (fun o => overlaps (psBase w) (psPages w * 4096) (psBase o) (psPages o * 4096))
    && (decide (size = 0) || (decide (psState w % 16 = 0) && decide (psState w + size ≤ 0x800000)
      && !others.any (fun o => overlaps (psState w) size (psState o) (stateSize (s.polKind (psPolicy o)) * psCount o))))

/-- Is the device in a mode with a running tick's work (RUN, ISLAND, DRAIN)? -/
def Mode.serves : Mode → Bool
  | .run => true
  | .island => true
  | .drain => true
  | _ => false

/-- The bits of each word of a stream record that Table 15-2 gives a field. -/
def peatMask : List Word := [0xFF03, 0x7FFFF, 0xFFFFF, 0xFFFFFFFF, 0xFFFF, 0xFFFFFFFF, 0x7FFFFF, 0]

/-- A commit ends the run of a stream's record for APPEND: what was appended under the record in effect stays due, and what was
appended under a record that never took effect is gone. -/
def PStream.commit (x : PStream) : PStream :=
  { x with dirty := true, due := if x.dirty then x.due else x.due ++ x.appended, appended := [] }

/-- A write of PEAT_S_DATA7 commits the stream at PEAT_S_IDX (R367, R368). -/
def State.peatCommit (s : State) (v : Word) : State :=
  let i := s.regF Reg.PEAT_S_IDX 11 0
  let w := (s.windowWords .peat i (Reg.PEAT_S_DATA 0) 7) ++ [v]
  let s := s.clearStage (Reg.PEAT_S_DATA 0) 8
  let take (s : State) : State :=
    let s := s.setRecs .peat i 0 (List.zipWith (fun x m => x &&& m) w peatMask)
    (s.setPstream i (s.pstream i).commit).peatWstat 1 0
  if !bit (nth 0 w 0) 0 then take s
  else if s.peatValid i then s.peatWstat 1 3
  else if !s.peatOk i w then s.peatWstat 1 1
  else if s.mode.serves then
    let l := s.peatList
    let r := s.peatBudget (l.filter (fun e => decide (e.1 < i)) ++ [(i, w)] ++ l.filter (fun e => decide (i < e.1)))
    match r.2 with
    | some j => (r.1.showAdmit (some (5, j))).peatWstat 1 2
    | none => take r.1
  else take s

/-! ### Pages (R373 to R376) -/

/-- The device address of the slot of page q. -/
def pageAddr (w : List Word) (q : Nat) : Nat := psBase w + q % psPages w * 4096

/-- The CRC of a page at a device address (R376): bytes 60–63 taken as 0. -/
def pageCrc (addr : Nat) (bs : List Byte) : Nat := crcOf 1 0xFFFFFFFF addr (patch bs 60 [0, 0, 0, 0])

/-- The 4,096 bytes of a stream's newest page. -/
def PStream.page (x : PStream) (i : Nat) : List Byte :=
  let head := leBytes 4 0x54414550 ++ leBytes 2 i ++ leBytes 2 x.flags ++ leBytes 8 x.seq ++ leBytes 8 x.first ++ leBytes 8 x.last
    ++ leBytes 8 x.base ++ leBytes 2 x.recs.length ++ leBytes 1 (psPolicy x.run) ++ List.replicate 21 0
  let bs := padTo 4096 (head ++ x.recs.flatten)
  patch bs 60 (leBytes 4 (pageCrc (pageAddr x.run x.seq) bs))

/-- Writes the newest page of stream i, records and header, to DRAM (R377); none in a retired group (R492). -/
def State.writePage (s : State) (i : Nat) : State :=
  let x := s.pstream i
  let a := pageAddr x.run x.seq
  if s.dramRetired a then s else s.setBytes a (x.page i)

/-- Closes the open page of stream i. -/
def State.closePage (s : State) (i : Nat) : State :=
  let x := s.pstream i
  if x.opened then
    let flags := if x.flags % 2 = 1 then x.flags else x.flags + 1
    let s := (s.setPstream i { x with flags := flags }).writePage i
    s.setPstream i { s.pstream i with opened := false }
  else s

/-- The first page sequence from q on whose slot is in service (R492). -/
def State.nextPage (s : State) (w : List Word) (q : Nat) : Nat → Nat
  | 0 => q
  | n + 1 => if s.dramRetired (pageAddr w q) then s.nextPage w (q + 1) n else q

/-- The flags of a page with flag bit b set. -/
def orFlag (f b : Nat) : Nat := if f.testBit b then f else f + 2 ^ b

/-- The 16 bytes of a record in a page of a base time (Table 15-5). -/
def PRec.bytes (r : PRec) (base : Nat) : List Byte :=
  let o := (r.time - base) % 2 ^ 40
  leBytes 4 (r.signal + (r.kind + 4 * r.cls) * 2 ^ 20 + o % 256 * 2 ^ 24) ++ leBytes 4 (o / 256) ++ leBytes 8 r.value.toNat

/-- Puts one record into its stream's pages (R373): a new page where the rule opens one. -/
def State.putRec (s : State) (r : PRec) : State :=
  let i := r.stream
  let x := s.pstream i
  let fits := x.opened && decide (x.recs.length < 252) && decide (x.base ≤ r.time) && decide (r.time - x.base < 2 ^ 40)
    && !s.dramRetired (pageAddr x.run x.seq)
  let s :=
    if fits then s
    else
      let s := s.closePage i
      let x := s.pstream i
      let q := s.nextPage x.run (if x.has then x.seq + 1 else 0) (psPages x.run)
      s.setPstream i { x with has := true, seq := q, opened := true, first := r.tick, last := r.tick, base := r.base,
                              flags := if x.gap then 2 else 0, gap := false, recs := [] }
  let x := s.pstream i
  let x := { x with
    last := r.tick
    flags := if r.app then orFlag x.flags 2 else x.flags
    recs := x.recs ++ [r.bytes x.base]
    committed := x.committed + 1 }
  (s.setPstream i x).bumpWrap Reg.PEAT_RECS

/-- Writes records and then the headers of the pages they joined (R377). -/
def State.putRecs (s : State) : List PRec → State
  | [] => s
  | r :: rest =>
    let s := s.putRec r
    let s := if rest.any (fun x => decide (x.stream = r.stream)) then s else s.writePage r.stream
    s.putRecs rest

/-- Flags GAP on the page that a lost record of stream i would have joined. -/
def State.flagGap (s : State) (i : Nat) : State :=
  let x := s.pstream i
  s.setPstream i (if x.opened then { x with flags := orFlag x.flags 1 } else { x with gap := true })

/-- Puts a record into the FIFO, or drops it when the FIFO is full (R377). -/
def State.pushRec (s : State) (r : PRec) : State :=
  if s.pt.fifo.length < 65536 then
    let n := s.pt.fifo.length + 1
    { s with pt.fifo := s.pt.fifo ++ [r], pt.hwm := max s.pt.hwm n }
  else (s.bump Reg.PEAT_DROP).flagGap r.stream

/-! ### The scan of a tick (R369 to R372) -/

/-- Is the distance of two values of a TYPE strictly greater than a deadband (R370)? -/
def beyondDeadband (ty : Nat) (a b dead : DWord) : Bool :=
  if ty = 1 then decide ((dead.toNat : Int) < ((a.toInt - b.toInt).natAbs : Int))
  else if ty = 2 then
    match f64Dist a.toNat b.toNat with
    | some d => !f64Nan dead.toNat && decide (f64Key dead.toNat < f64Key d)
    | none => false
  else if ty = 3 then decide (a ≠ b)
  else decide (dead.toNat < max a.toNat b.toNat - min a.toNat b.toNat)

/-- Overwrites the state area of one signal; the layout of its content is the engine's own, so the bytes are free. -/
def State.touchState (s : State) (a : Nat) : Nat → State
  | 0 => s
  | n + 1 => let r := s.draw; (r.2.setWord a r.1).touchState (a + 4) n

/-- The smaller and the larger of two values of a TYPE; with a NaN among them both are free. -/
def State.minMax (s : State) (ty : Nat) (a b : DWord) : State × DWord × DWord :=
  if sigNan ty a || sigNan ty b then
    let x := s.draw64
    let y := x.2.draw64
    (y.2, x.1, y.1)
  else if sigKey ty a ≤ sigKey ty b then (s, a, b) else (s, b, a)

/-- A signal's window after one more sample (R372). -/
def State.addSample (s : State) (ty : Nat) (g : PSig) (v : DWord) (cls : Nat) : State × PSig :=
  let g := { g with notGood := g.notGood || decide (cls ≠ 3) }
  if cls = 0 then (s, g)
  else
    let lo := s.minMax ty (if g.n = 0 then v else g.lo) v
    let hi := lo.1.minMax ty (if g.n = 0 then v else g.hi) v
    let x : Int := if ty = 1 then v.toInt else if ty = 3 then (if v = 0 then 0 else 1) else v.toNat
    let f := if g.n = 0 then some v.toNat else g.fsum.bind (fun y => f64Add y v.toNat)
    (hi.1, { g with n := g.n + 1, lo := lo.2.1, hi := hi.2.2, isum := if g.n = 0 then x else g.isum + x, fsum := f })

/-- The mean of a window (R372); where the sum of a FLOAT window is a NaN it is a NaN, its sign and payload free. -/
def State.windowMean (s : State) (ty : Nat) (g : PSig) : State × DWord :=
  if g.n = 0 then (s, 0)
  else if ty = 2 then
    match g.fsum.bind (fun y => f64DivNat y g.n) with
    | some m => (s, BitVec.ofNat 64 m)
    | none => let r := s.draw64; (r.2, quietNan64 r.1)
  else if ty = 3 then (s, BitVec.ofNat 64 ((f64DivNat (f64OfInt g.isum) g.n).getD 0))
  else (s, BitVec.ofInt 64 (g.isum / (g.n : Int)))

/-- Reads the signal at offset k of stream i for the tick in scan and makes its records by Table 15-3. -/
def State.scanSignal (s : State) (i k : Nat) : State :=
  let w := (s.pstream i).run
  let n := psFirst w + k
  let e := s.sig n
  if !e.valid then s
  else
    let p := psPolicy w
    let kind := s.polKind p
    let qrec := s.recF .policy p 0 3 3
    let per := s.recF .policy p 0 31 16
    let dead := pair (s.recW .policy p 2) (s.recW .policy p 3)
    let v := e.view s.sg.tick16
    let cls := qClass v.2
    let t := s.pt.scanTick
    let prev := !e.old && decide (e.wtick = s.sg.tick16)
    let tchg := if prev then s.pt.b1 else max e.ts.toNat s.pt.b0
    let g := s.psig i k
    let mk (time kind cls : Nat) (value : DWord) : PRec := ⟨i, t, s.pt.b0, time, n, kind, cls, value, false⟩
    let area := commonBase + psState w + stateSize kind * k
    if kind = 1 then s.pushRec (mk s.pt.b1 0 cls v.1)
    else if kind = 2 ∨ kind = 3 then
      let chg := match g.last with
        | none => true
        | some (x, c) => beyondDeadband e.type v.1 x dead || (decide (qrec = 1) && decide (c ≠ cls))
      let due := decide (kind = 3) && decide (g.tick + per ≤ t)
      if chg || due then
        let s := s.pushRec (mk (if chg then tchg else s.pt.b1) 0 cls v.1)
        (s.setPsig i k { g with last := some (v.1, cls), tick := t }).touchState area 4
      else s
    else if kind = 4 then
      let r := s.addSample e.type g v.1 cls
      let g := r.2
      let s := r.1
      if (t + 1) % per = 0 then
        let m := s.windowMean e.type g
        let c := if g.n = 0 then 0 else if g.notGood then 1 else 3
        let s := ((m.1.pushRec (mk s.pt.b1 1 c g.lo)).pushRec (mk s.pt.b1 2 c g.hi)).pushRec (mk s.pt.b1 3 c m.2)
        (s.setPsig i k PSig.reset).touchState area 8
      else (s.setPsig i k g).touchState area 8
    else s

/-- Is stream i one that only APPEND fills (kind 0)? -/
def State.peatAppends (s : State) (i : Nat) : Bool := decide (s.polKind (psPolicy (s.pstream i).run) = 0)

/-- Passes the records that APPEND left due to stream i into the FIFO. -/
def State.passDue (s : State) (i : Nat) : State :=
  let x := s.pstream i
  x.due.foldl (fun s r => s.pushRec r) (s.setPstream i { x with due := [] })

/-- Scans at most n more signals in order; a kind-0 stream passes the records appended to it in the tick. -/
def State.scanSome (s : State) : Nat → State
  | 0 => s
  | n + 1 =>
    match s.pt.todo with
    | [] => s
    | (i, k) :: rest =>
      if s.peatAppends i then ({ s with pt.todo := rest }.passDue i).scanSome n
      else
        let next := if k + 1 < psCount (s.pstream i).run then (i, k + 1) :: rest else rest
        ({ s with pt.todo := next }.scanSignal i k).scanSome n

/-- PEAT_COMMIT (R377): the engine scans up to `scan` more signals, then writes up to `n` records, with the headers of the pages
they joined, to DRAM; nothing is written while DRAM does not serve requests. -/
def State.peatWork (s : State) (scan n : Nat) : State :=
  let s := s.scanSome scan
  if s.dramReady then
    let l := s.pt.fifo.take n
    { s with pt.fifo := s.pt.fifo.drop n }.putRecs l
  else s

/-! ### Boundaries (R368, R377) -/

/-- At step 3: what is left of the scan of the tick before is skipped (R377); a kind-0 stream has nothing to scan, and its records
pass, before any record of the next tick. -/
def State.peatSkip (s : State) : State :=
  s.pt.todo.foldl (fun (s : State) e =>
    if s.peatAppends e.1 then s.passDue e.1
    else (s.bump Reg.PEAT_SKIP (psCount (s.pstream e.1).run - e.2)).flagGap e.1) { s with pt.todo := [] }

/-- The header fields of a page as it stands in DRAM: magic, stream, sequence and CRC are correct (R369, Table 15-7). -/
def State.pageGood (s : State) (w : List Word) (i q : Nat) : Bool :=
  let a := pageAddr w q
  let bs := s.bytes a 4096
  decide (leAt bs 0 4 = 0x54414550) && decide (leAt bs 4 2 = i) && decide (leAt bs 8 8 = q) && decide (leAt bs 60 4 = pageCrc a bs)

/-- The newest correct page in a ring (R369), by its sequence. -/
def State.newestPage (s : State) (w : List Word) (i : Nat) : Option Nat :=
  let qs := (upTo (psPages w)).filterMap (fun slot =>
    let a := psBase w + slot * 4096
    let q := leAt (s.bytes (a + 8) 8) 0 8
    if q % psPages w = slot ∧ !s.dramRetired a ∧ s.pageGood w i q then some q else none)
  qs.foldl (fun m q => match m with | none => some q | some x => some (max x q)) none

/-- Step 8 for one stream with a waiting commit: the records of its old run are written and the page closes, an enabled stream
starts (R368, R369) with what was appended to it since its commit. -/
def State.peatApply (s : State) (i : Nat) : State :=
  let x := s.pstream i
  let mine := s.pt.fifo.filter (fun r => decide (r.stream = i))
  let s := if x.run.isEmpty then s
    else ({ s with pt.fifo := s.pt.fifo.filter (fun r => decide (r.stream ≠ i)) }.putRecs (mine ++ x.due)).closePage i
  let x := s.pstream i
  let w := s.peatRec i
  if s.peatValid i then
    let size := stateSize (s.polKind (psPolicy w)) * psCount w
    let s := s.setBytes (commonBase + psState w) (List.replicate size 0)
    let s := { s with pt.sigs := Sparse.keep (fun k => decide (k / 2 ^ 20 ≠ i)) s.pt.sigs }
    let q := if bit (nth 0 w 0) 1 then s.newestPage w i else none
    s.setPstream i { PStream.reset with run := w, has := q.isSome, seq := q.getD 0, due := x.appended, committed := x.committed }
  else s.setPstream i { PStream.reset with committed := x.committed }

/-- The records appended in the tick that ended are due (R379). -/
def PStream.endTick (x : PStream) : PStream := { x with due := x.due ++ x.appended, appended := [] }

/-- Step 8 of boundary N: commits take effect, and the scan of tick t = N − 1, which began at b0 and ended at b1, begins (R368, R369). -/
def State.peatStep8 (s : State) (t b0 b1 : Nat) : State :=
  if !s.regB Reg.PEAT_CFG 31 then { s with pt.streams := s.pt.streams.map (fun (e : Nat × PStream) => (e.1, if e.2.dirty then e.2 else e.2.endTick)) }
  else
    let dirty := s.pt.streams.filterMap (fun (e : Nat × PStream) => if e.2.dirty then some e.1 else none)
    let s := dirty.foldl (fun s i => s.peatApply i) s
    let s := { s with pt.streams := s.pt.streams.map (fun (e : Nat × PStream) => (e.1, e.2.endTick)) }
    let live := s.pt.streams.filterMap (fun (e : Nat × PStream) => if e.2.run.isEmpty then none else some (e.1, 0))
    { s with pt.todo := s.pt.todo ++ live, pt.scanTick := t, pt.b0 := b0, pt.b1 := b1 }

/-- The streams whose writes are unfinished (Table 02-3 item 3): those with records in the FIFO, or with appended records that the
scan has not passed. -/
def State.peatUnfinished (s : State) : List Nat :=
  let waiting := s.pt.todo.filterMap (fun e => if (s.pstream e.1).due.isEmpty then none else some e.1)
  waiting.foldl insNat (s.pt.fifo.foldl (fun l r => insNat l r.stream) [])

/-! ### Retirement of a channel group (R492) -/

/-- The oldest retained page of a stream. -/
def PStream.oldest (x : PStream) : Nat := x.seq + 1 - psPages x.run

/-- The pages a stream retains, oldest first, each in its own slot. -/
def PStream.retained (x : PStream) : List Nat :=
  if x.has then (upTo (x.seq + 1 - x.oldest)).map (fun k => x.oldest + k) else []

/-- Keeps the record of lost pages for each valid stream with pages in a retired group. -/
def State.peatLost (s : State) (g : Nat) : State :=
  s.peatStreams.foldl (fun s i =>
    let x := s.pstream i
    if x.retained.any (fun q => decide (s.dramGroup (pageAddr x.run q) = g)) then
      { s with pt.lost := Sparse.set (fun _ => none) s.pt.lost i (some (g, x.oldest, x.seq)) }
    else s) s

/-! ### PEAT commands (R379, R380) -/

/-- The stream of a command. -/
def Cmd.pst (c : Cmd) : Nat := fld (c.w 2) 11 0
/-- The 64-bit operand in words k and k + 1. -/
def Cmd.w64 (c : Cmd) (k : Nat) : Nat := (c.w k).toNat + (c.w (k + 1)).toNat * 2 ^ 32

/-- The used bits of words 2 to 7, by opcode (Table 15-6). -/
def peatUsed (op : Nat) : List Word :=
  let f : Word := 0xFFFFFFFF
  if op = 1 then [0xFFF, f, f, f, 0, 0] else if op = 2 then [0xFFF, f, f, 0, 0, 0] else [0xFFF, f, f, f, f, 0]

/-- May an operand area of n bytes stand at a thread-view address: 64-byte aligned, in frond shared or common memory? -/
def peatAreaOk (c : Cmd) (f : Nat) (a : Word) (n : Nat) : Bool :=
  decide (a.toNat % 64 = 0) && viewSpanOk (c.who.tid f) false a.toNat n
    && (match viewRange a.toNat with | some .shared => true | some .common => true | _ => false)

/-- The instant at which tick t began. -/
def State.boundTime (s : State) (t : Nat) : Nat :=
  match s.tk.history.find? (fun e => decide (e.2 = t)) with
  | some e => e.1.toNat
  | none => 0

/-- The records of an APPEND, 16 bytes each. -/
def State.appendRecs (s : State) (f : Nat) (c : Cmd) : List (List Byte) :=
  (upTo (c.w 3).toNat).map (fun k => s.bytes (viewDev (c.who.tid f) (c.w 4).toNat + 16 * k) 16)

/-- The time of a record at base time b. -/
def appendTime (b : Nat) (r : List Byte) : Nat := b + byteAt r 3 + leAt r 4 4 * 256

/-- The remaining checks of an APPEND (R380), in the order of its rule. -/
def State.appendCheck (s : State) (f : Nat) (c : Cmd) : Option Nat :=
  let i := c.pst
  let w := s.peatRec i
  let rs := s.appendRecs f c
  let lo := s.boundTime c.capTick
  if s.polKind (psPolicy w) ≠ 0 then some 0x6B
  else if rs.any (fun r => decide (appendTime (c.w64 5) r < lo) || decide (c.capTime.toNat < appendTime (c.w64 5) r)) then some 0x6C
  else if psCount w < (s.pstream i).appended.length + rs.length then some 0x6D
  else if rs.any (fun r => decide (524287 < leAt r 0 4 % 2 ^ 20) || decide (byteAt r 2 / 64 = 2)) then some 0x6E
  else none

/-- The checks of a PEAT command (R379, R529). -/
def State.peatCheck (s : State) (f : Nat) (c : Cmd) : Option Nat :=
  let op := c.opcode
  let i := c.pst
  let x := s.pstream i
  let range : Option Nat :=
    if op = 3 ∧ ((c.w 3).toNat = 0 ∨ 252 < (c.w 3).toNat) then some 0x44 else none
  let operand : Option Nat :=
    if op = 1 ∧ !peatAreaOk c f (c.w 5) 4096 then some 0x43
    else if op = 3 ∧ !peatAreaOk c f (c.w 4) (16 * (c.w 3).toNat) then some 0x43 else none
  let gone := decide (x.run ≠ s.peatRec i) || !x.has
  let rest : Option Nat :=
    if !s.peatValid i then some 0x68
    else if op = 3 then s.appendCheck f c
    else if gone then some 0x69
    else if op = 1 ∧ (c.w64 3 < x.oldest ∨ x.seq < c.w64 3) then some 0x69 else none
  cmdCheck c f (decide (1 ≤ op ∧ op ≤ 3)) (peatUsed op) none range (if op = 1 then 16 else if op = 2 then 32 else 8) operand rest

/-- The words of a 64-bit number, low first. -/
def words64 (n : Nat) : List Word := [wd n, wd (n / 2 ^ 32)]

/-- The effect of a checked PEAT command; `bad` names the 256-byte chunk of the page that reads with an uncorrectable DRAM error:
the destination is written up to it (Table 08-4). -/
def State.peatAct (s : State) (f : Nat) (bad : Option Nat) (c : Cmd) : State × Byte × List Word :=
  let i := c.pst
  let x := s.pstream i
  let op := c.opcode
  if op = 1 then
    let q := c.w64 3
    let a := pageAddr x.run q
    if s.dramRetired a then (s.bump Reg.DRC_CNT_RETIREDACC, 0x45, [])
    else
      let bs := s.bytes a 4096
      let dev := viewDev (c.who.tid f) (c.w 5).toNat
      match bad with
      | some k => (s.setBytes dev (bs.take (256 * k)), 0x45, [])
      | none =>
        let good := s.pageGood x.run i q
        (s.setBytes dev bs, if good then 0 else 0x6A, [wd (leAt bs 40 2), wd (leAt bs 6 2), 0, 0])
  else if op = 2 then
    let baseOf (q : Nat) : Nat := leAt (s.bytes (pageAddr x.run q + 32) 8) 0 8
    let t := c.w64 3
    let found := (x.retained.filter (fun q => !s.dramRetired (pageAddr x.run q) && decide (baseOf q ≤ t))).getLast?
    if bad.isSome then (s, 0x45, [])
    else (s, 0, words64 x.oldest ++ words64 x.seq ++ words64 (found.getD x.oldest)
      ++ [if found.isNone then 1 else 0, wd (if x.opened then x.recs.length else 0)])
  else
    let rs := s.appendRecs f c
    let t := c.capTick
    let new : List PRec := rs.map (fun r =>
      { stream := i, tick := t, base := s.boundTime t, time := appendTime (c.w64 5) r, signal := leAt r 0 4 % 2 ^ 20,
        kind := byteAt r 2 / 16 % 4, cls := byteAt r 2 / 64, value := BitVec.ofNat 64 (leAt r 8 8), app := true })
    (s.setPstream i { x with appended := x.appended ++ new }, 0, [wd rs.length])

/-- Starts the PEAT command of opcode `op` at the head of a frond's queue; one that reads a page waits for DRAM. -/
def State.peatStart (s : State) (f op : Nat) (bad : Option Nat) : State :=
  if op ≠ 3 ∧ !s.dramReady then s
  else s.cmdAct f 3 op (fun c => s.peatCheck f c) (fun c => s.peatAct f bad c)

end Sys2Proof.Machine
end

