-- ==== Sys2Proof/Machine/Admit.lean ====
section
/-! DEFINITION. Admission (R342), the windows of the control-stream unit (R324, R326, R328, R329, R531, R341) and path adaptation
(R339, R340). -/

namespace Sys2Proof.Machine

/-! ### Adaptation records as committed -/

/-- The words of adaptation record a as the host last committed them. -/
def State.adaptWords (s : State) (a : Nat) : List Word :=
  match (s.adapt a).waiting with
  | some w => w
  | none => (upTo 12).map (fun k => s.recW .adapt a k)

/-! ### The checks of Table 13-7 -/

/-- Open bytes per tick of class tc of a port in a bank of its gate list: those of the longest open run (R293), counted across the cycle end. -/
def State.openBytes (s : State) (p tc : Nat) (bankB : Bool) : Nat :=
  let rate := s.portRate p
  if s.gclOn p then
    let l := s.gclSpans p bankB (s.gclCycle p) 256 0 0
    min (s.gclCycle p) (longestOpen tc (l ++ l) 0 0) * rate / 8 / s.gclMult p
  else s.regF Reg.TICK_PERIOD 15 0 * 1000 * rate / 8

/-- The ports and classes of the paths of an adaptation record. -/
def State.adaptPorts (s : State) (w : List Word) : List (Nat × Nat) :=
  (upTo (fld (nth 0 w 0) 4 3 + 1)).filterMap (fun k => s.queuePort (fld (nth 0 w (4 + 2 * k)) 15 0))

/-- Twelve times the bytes per tick that stream h asks of each port and class of its TX record. -/
def State.txLoad (s : State) (h : Nat) : Nat :=
  let copies := if s.strF h 1 0 0 = 1 ∧ s.strF h 1 1 1 = 1 then max 1 (s.recF .frer (s.strF h 0 31 16) 0 11 9) else 1
  s.strF h 1 31 16 * 12 / copies * (s.strF h 3 13 0 + 20)

/-- Check 2: the first port × 8 + class whose gate window is too small. -/
def State.gateFail (s : State) : Option Nat :=
  let tx := (s.recIds .stream).filter (fun h => decide (s.strF h 2 30 30 = 1))
  let loads := tx.map (fun h => (s.txLoad h, s.adaptPorts (s.adaptWords (s.strF h 2 29 16))))
  (upTo 512).find? (fun k =>
    let need : Nat := ((loads.filter (fun l => l.2.contains (k / 8, k % 8))).map (fun l => l.1)).sum
    decide (0 < need) && (decide (12 * s.openBytes (k / 8) (k % 8) false < need) || decide (12 * s.openBytes (k / 8) (k % 8) true < need)))

/-- Check 3: the first handle that shares its FRER record for recovery, or names one that does not exist. -/
def State.frerFail (s : State) : Option Nat :=
  let named := (s.recIds .stream).filter (fun h => decide (s.strF h 1 0 0 = 1))
  named.find? (fun h =>
    let r := s.strF h 0 31 16
    !(s.frer r).exist || (decide (s.strF h 1 1 1 = 1) && named.any (fun g => decide (g ≠ h ∧ s.strF g 1 1 1 = 1 ∧ s.strF g 0 31 16 = r))))

/-- Check 4: the first handle that names an adaptation record that is not valid or of the other direction. -/
def State.adaptFail (s : State) : Option Nat :=
  let ok (a : Nat) (tx : Bool) : Bool := let w := nth 0 (s.adaptWords a) 0; bit w 0 && decide (bit w 1 = tx)
  (s.recIds .stream).find? (fun h =>
    (decide (s.strF h 2 14 14 = 1) && !ok (s.strF h 2 13 0) false) || (decide (s.strF h 2 30 30 = 1) && !ok (s.strF h 2 29 16) true))

/-- The first check of Table 13-7 that fails, with its object; check 5 writes the budget registers. -/
def State.admission (s : State) : State × Option (Nat × Nat) :=
  let b := s.peatBudget s.peatList
  let r :=
    match s.fitFail with
    | some e => some (1, e)
    | none => match s.gateFail with
      | some k => some (2, k)
      | none => match s.frerFail with
        | some h => some (3, h)
        | none => match s.adaptFail with
          | some h => some (4, h)
          | none => b.2.map (fun i => (5, i))
  (b.1, r)

/-- CTL_ADMIT.RUN (R342): runs the checks; whether they all pass. -/
def State.runAdmit (s : State) : State × Bool :=
  let r := s.admission
  (r.1.showAdmit r.2, r.2.isNone)

/-- Reruns check 5 alone and shows its result (R408). -/
def State.rerunPeat (s : State) : State :=
  let b := s.peatBudget s.peatList
  b.1.showAdmit (b.2.map (fun i => (5, i)))

/-- Reruns check 1 alone and shows its result (R490). -/
def State.rerunFit (s : State) : State := s.showAdmit (s.fitFail.map (fun e => (1, e)))

/-! ### Windows -/

/-- Writes CTL_WSTAT after a window commit. -/
def State.ctlWstat (s : State) (window status : Nat) : State := s.setReg Reg.CTL_WSTAT (wd (window * 16 + status))

/-- CTL_SDATA3 commits the stream record at CTL_SIDX (R324). -/
def State.streamCommit (s : State) (v : Word) : State :=
  let h := s.regF Reg.CTL_SIDX 17 0
  let w := (s.windowWords .stream h (Reg.CTL_SDATA 0) 3) ++ [v]
  let s := s.clearStage (Reg.CTL_SDATA 0) 4
  let w0 := nth 0 w 0
  let w1 := nth 0 w 1
  let w2 := nth 0 w 2
  let rx := nth 0 (s.adaptWords (fld w2 13 0)) 0
  let bad := decide (fld w0 15 13 ≠ 0) || decide (fld w1 7 3 ≠ 0) || bit w2 15 || bit w2 31 || decide (fld v 31 14 ≠ 0)
    || (!bit w1 0 && (bit w1 1 || bit w1 2)) || (bit w2 14 && bit w1 1 && bit rx 2)
  let old (k hi lo : Nat) : Nat := s.recF .stream h k hi lo
  let changes := decide (old 1 31 8 ≠ fld w1 31 8) || decide (old 2 30 16 ≠ fld w2 30 16) || decide (old 3 13 0 ≠ fld v 13 0)
  let s' := s.setRecs .stream h 0 w
  if bad then s.ctlWstat 0 1
  else if s.mode.serves then
    if bit w1 0 ∧ !(s.frer (fld w0 31 16)).exist then (s.showAdmit (some (3, h))).ctlWstat 0 2
    else if changes then
      let r := s'.admission
      match r.2 with
      | some x => ((s.peatBudget s.peatList).1.showAdmit (some x)).ctlWstat 0 2
      | none => (r.1.showAdmit none).ctlWstat 0 0
    else s'.ctlWstat 0 0
  else s'.ctlWstat 0 0

/-- CTL_FDATA1 commits the filter at CTL_FIDX (R326); the write clears BLOCKED. -/
def State.filterCommit (s : State) (v : Word) : State :=
  let f := s.regF Reg.CTL_FIDX 11 0
  let w := s.windowWords .filter f (Reg.CTL_FDATA 0) 1
  let s := s.clearStage (Reg.CTL_FDATA 0) 2
  (s.setRecs .filter f 0 [nth 0 w 0 &&& 0x03FF007F#32, v &&& 0x3FFF0FFF#32]).ctlWstat 1 0

/-- CTL_GDATA1 commits the gate entry at CTL_GIDX (R328): the active bank is refused with BAD. -/
def State.sgateCommit (s : State) (v : Word) : State :=
  let idx := s.reg Reg.CTL_GIDX
  let g := fld idx 9 0
  let b := bit idx 14
  let e := sgIndex g b (fld idx 13 10)
  let w := s.windowWords .sgate e (Reg.CTL_GDATA 0) 1
  let s := s.clearStage (Reg.CTL_GDATA 0) 2
  let x := s.sgate g
  if b = x.bankB then s.ctlWstat 2 1
  else ((s.setRecs .sgate e 0 [nth 0 w 0 &&& 0x1F#32, v]).setSgate g { x with pending := true }).ctlWstat 2 0

/-- Field STATUS of CTL_GSWSTAT. -/
def State.sgateStatus (s : State) (st : Nat) : State := s.setRegF Reg.CTL_GSWSTAT 6 4 st

/-- ARM of CTL_GSWSTAT (R328, R34). -/
def State.sgateArm (s : State) : State :=
  let t := s.swapTick (s.reg Reg.CTL_GSWAP_TICK)
  if t.toNat < s.tick + 2 then { s with ct.swapAt := none }.sgateStatus 3 else { s with ct.swapAt := some t }.sgateStatus 1

/-- CANCEL of CTL_GSWSTAT. -/
def State.sgateCancel (s : State) : State :=
  if s.ct.swapAt.isSome then { s with ct.swapAt := none }.sgateStatus 5 else s

/-- Boundary step 4: every gate with PENDING makes its idle bank active at the armed tick (R328). -/
def State.sgateSwap (s : State) : State :=
  match s.ct.swapAt with
  | some t =>
    if t.toNat = s.tick then
      let s := ((s.ct.gates.filter (fun e => e.2.pending)).map (fun e => e.1)).foldl (fun s g =>
        let s := s.keepSgate g (s.tk.last.getD s.tb.now)
        let x := s.sgate g
        s.setSgate g { x with pending := false, bankB := !x.bankB }) s
      { s with ct.swapAt := none }.sgateStatus 2
    else s
  | none => s

/-- A write of CTL_GCTL for the selected gate: MULT, INVRX_EN and the length of the idle bank; writing 1 clears INVRX. A length
outside 1–16, or of the active bank, is ignored and logged. -/
def State.gctlWrite (s : State) (v : Word) : State :=
  let g := s.regF Reg.CTL_GIDX 9 0
  let x := s.sgate g
  let la := fld v 4 0
  let lb := fld v 20 16
  let badA := decide (la ≠ x.lenA) && (!x.bankB || decide (la = 0) || decide (16 < la))
  let badB := decide (lb ≠ x.lenB) && (x.bankB || decide (lb = 0) || decide (16 < lb))
  let s := if x.mult = fld v 31 28 then s else s.keepSgate g s.tb.now
  let s := s.setSgate g { s.sgate g with
    mult := fld v 31 28
    invrxEn := bit v 24
    invrx := x.invrx && !bit v 25
    lenA := if badA then x.lenA else la
    lenB := if badB then x.lenB else lb }
  if badA ∨ badB then s.refuse Reg.CTL_GCTL v else s

/-- CTL_MDATA4 commits the meter at CTL_MIDX and refills both buckets (R329). -/
def State.meterCommit (s : State) (v : Word) : State :=
  let m := s.regF Reg.CTL_MIDX 11 0
  let w := (s.windowWords .meter m (Reg.CTL_MDATA 0) 4) ++ [v &&& 0xF#32]
  let s := (s.clearStage (Reg.CTL_MDATA 0) 5).setRecs .meter m 0 w
  let x : Meter := ⟨(nth 0 w 2).toNat * 8000000, (nth 0 w 3).toNat * 8000000, s.tb.now⟩
  { s with ct.meters := Sparse.set (fun _ => Meter.reset) s.ct.meters m x }.ctlWstat 3 0

/-- Recovery of a FRER record starts anew (R331): TAKEANY set, the history cleared, the reset counted. -/
def Frer.restart (x : Frer) : Frer := { x.count 6 with takeAny := true, hist := 0, idle := 0 }

/-- CTL_RDATA2 commits words 0–2 of the FRER record at CTL_RIDX and resets recovery (R531); a latent period starts anew (R334). -/
def State.frerCommit (s : State) (v : Word) : State :=
  let r := s.regF Reg.CTL_RIDX 15 0
  let w := (s.windowWords .frer r (Reg.CTL_RDATA 0) 2) ++ [v]
  let s := s.clearStage (Reg.CTL_RDATA 0) 8
  let w0 := nth 0 w 0
  let paths := fld w0 11 9
  let bad := decide (fld w0 15 12 ≠ 0) || decide (fld w0 6 0 = 0) || decide (paths < 2) || decide (4 < paths) || decide (fld w0 31 16 = 0)
    || (bit w0 8 && (decide (fld (nth 0 w 1) 31 16 = 0) || decide (fld v 15 0 = 0)))
  if bad then s.ctlWstat 4 1
  else
    let x := s.frer r
    let x := if x.exist then x.restart else x
    let x := { x with exist := true, passed := 0, discarded := 0, latAge := 0, resetAge := 0 }
    ((s.setRecs .frer r 0 w).setFrer r x).ctlWstat 4 0

/-- May an adaptation record be committed (R341)? -/
def adaptOk (w : List Word) : Bool :=
  let w0 := nth 0 w 0
  let tx := bit w0 1
  let clean := nth 0 w 3 == 0 && (if tx then nth 0 w 2 == 0 else decide (fld (nth 0 w 2) 31 16 = 0))
    && (upTo 4).all (fun k => if tx then decide (fld (nth 0 w (4 + 2 * k)) 31 28 = 0) && nth 0 w (5 + 2 * k) == 0
      else decide (fld (nth 0 w (4 + 2 * k)) 31 12 = 0))
  clean && (!bit w0 0 || (decide (fld w0 15 8 ≠ 0) && decide (fld w0 31 16 ≠ 0)
    && (if tx then decide (fld w0 6 5 ≤ fld w0 4 3) else decide (fld w0 6 5 = 0))))

/-- CTL_ADATA11 commits the adaptation record at CTL_AIDX for the next step 5 (R341). -/
def State.adaptCommit (s : State) (v : Word) : State :=
  let a := s.regF Reg.CTL_AIDX 13 0
  let old := s.adaptWords a
  let w := ((upTo 11).map (fun k => (s.staged? (Reg.CTL_ADATA k)).getD (nth 0 old k))) ++ [v]
  let s := s.clearStage (Reg.CTL_ADATA 0) 12
  if adaptOk w then (s.setAdapt a { s.adapt a with waiting := some w }).ctlWstat 5 0 else s.ctlWstat 5 1

/-! ### Step 2: latched measurements (R335, R336) -/

/-- Was the link of a port down at any time in the tick? -/
def State.wasDown (s : State) (p : Nat) : Bool := !(s.port p).link || s.ct.downs.contains p

/-- The physical port of a logical port. -/
def State.physPort (s : State) (l : Nat) : Nat := if l < 64 then l else s.regF (Reg.EGR_XP_L l) 29 24

/-- Latches the measurements of one adaptation record. -/
def State.latchAdapt (s : State) (a : Nat) : State :=
  let x := s.adapt a
  let tx := s.adpTx a
  let m := (upTo 4).map (fun k =>
    let c := nth Meas.reset x.cur k
    let w := s.adpPath a k
    if tx then
      match s.queuePort (fld w 15 0) with
      | some (p, tc) => { c with down := s.wasDown p, portMiss := s.ct.misses.contains (p * 8 + tc) }
      | none => { c with down := true }
    else { c with down := s.wasDown (s.physPort (fld w 11 0)) })
  s.setAdapt a { x with last := m, cur := List.replicate 4 Meas.reset }

/-- The adaptation records that hold anything. -/
def State.adaptIds (s : State) : List Nat :=
  (s.ct.adapt.map (fun e => e.1)).foldl insNat (s.recIds .adapt)

/-- Step 2 for the control-stream unit: measurements latch and the per-tick counts restart (R325, R335). -/
def State.ctlLatch (s : State) : State :=
  let s := ((s.adaptIds).filter (fun a => s.adpValid a)).foldl (fun s a => s.latchAdapt a) s
  { s with ct.fpt := [], ct.misses := [], ct.downs := [] }

/-! ### Step 5: decisions (R339 to R341) -/

/-- The cause a path was bad for in the latest tick (Table 13-6), or none. -/
def State.badCause (s : State) (a k : Nat) : Option Nat :=
  let m := nth Meas.reset (s.adapt a).last k
  let late := match m.late with | some l => decide (((s.recW .adapt a 1).toNat : Int) < l) | none => false
  if s.adpTx a then
    if m.down then some 1 else if m.portMiss then some 5 else if 0 < m.rogues then some 6 else none
  else
    if m.down then some 1 else if late then some 2 else if m.frames < s.recF .adapt a 2 15 0 then some 3
    else if 0 < m.rogues then some 4 else none

/-- Writes an adaptation log record (R340). -/
def State.adaptLog (s : State) (a slot from_ to_ cause bad good : Nat) : State :=
  let w : List Word := [s.tick32, wd (a + (if s.adpTx a then 2 ^ 14 else 0) + slot * 2 ^ 16 + from_ * 2 ^ 18 + to_ * 2 ^ 20 + cause * 2 ^ 24),
    wd (bad + good * 65536), 0]
  let s := (upTo 4).foldl (fun s i => s.setReg (Reg.CTL_LOG i) (nth 0 w i)) s
  if s.ringRoom 2 then s.ringPost 2 (fun _ => w.flatMap (fun x => leBytes 4 x.toNat)) else s.bump Reg.CTL_LOG_LOST

/-- Moves slot j of record a from path k to path c, logged with a cause. -/
def State.adaptMove (s : State) (a j k c cause : Nat) : State :=
  let x := s.adapt a
  (s.setAdapt a { x with active := setNth x.active j c }).adaptLog a j k c cause (nth 0 x.bad k) (nth 0 x.good c)

/-- The run counts of record a after the latched tick. -/
def State.adaptRuns (s : State) (a : Nat) : State :=
  let x := s.adapt a
  let kk := s.recF .adapt a 0 15 8
  let fast := decide (s.recF .adapt a 0 7 7 = 1)
  let step (k : Nat) : Nat × Nat :=
    if s.adpPaths a ≤ k then (nth 0 x.bad k, nth 0 x.good k)
    else match s.badCause a k with
      | some c => (if fast && decide (c = 1) then kk else min (nth 0 x.bad k + 1) 65535, 0)
      | none => (0, min (nth 0 x.good k + 1) 65535)
  let r := (upTo 4).map step
  s.setAdapt a { x with bad := r.map (fun e => e.1), good := r.map (fun e => e.2) }

/-- The decision of one slot (R339). -/
def State.adaptSlot (s : State) (a j : Nat) : State :=
  let x := s.adapt a
  let k := nth 0 x.active j
  let act := x.active.take (s.adpCopies a)
  let n := s.adpPaths a
  let s :=
    if k ≠ j ∧ s.recF .adapt a 0 31 16 ≤ nth 0 x.good j ∧ !act.contains j then s.adaptMove a j k j 7
    else if s.recF .adapt a 0 15 8 ≤ nth 0 x.bad k then
      match ((upTo n).map (fun d => (k + 1 + d) % n)).find? (fun c => !act.contains c && decide (nth 0 x.bad c = 0)) with
      | some c => s.adaptMove a j k c ((s.badCause a k).getD 0)
      | none =>
        if nth false x.noalt j then s
        else (s.setAdapt a { x with noalt := setNth x.noalt j true }).adaptLog a j k k 8 (nth 0 x.bad k) (nth 0 x.good k)
    else s
  let x := s.adapt a
  if nth 0 x.bad (nth 0 x.active j) = 0 then s.setAdapt a { x with noalt := setNth x.noalt j false } else s

/-- A host write takes effect (R341): counts at 0, slots at their preferred paths, each change logged with cause HOST. -/
def State.adaptApply (s : State) (a : Nat) (w : List Word) : State :=
  let x := s.adapt a
  let s := s.setRecs .adapt a 0 w
  let s := s.setAdapt a { Adapt.reset with cur := x.cur, last := x.last }
  (upTo (s.adpCopies a)).foldl (fun s j =>
    if nth 0 x.active j = j then s else s.adaptLog a j (nth 0 x.active j) j 0 0 0) s

/-- Step 5 for one record. -/
def State.adaptStep (s : State) (a : Nat) : State :=
  match (s.adapt a).waiting with
  | some w => s.adaptApply a w
  | none =>
    if !s.adpValid a then s
    else
      let s := s.adaptRuns a
      if s.adpSelect a then (upTo (s.adpCopies a)).foldl (fun s j => s.adaptSlot a j) s else s

/-- Step 5 (R339), record by record in number order. -/
def State.adaptAll (s : State) : State :=
  (sortBy (fun x y => decide (x ≤ y)) s.adaptIds).foldl (fun s a => s.adaptStep a) s

end Sys2Proof.Machine
end

