-- ==== Sys2Proof/Machine/Chain.lean ====
section
/-! DEFINITION. The rhizoid chain (R442 to R453): frames sent and accepted, messages, notices. -/

namespace Sys2Proof.Machine

/-- Frame types (Table 19-2). -/
inductive CType where
  | enum | tick | abort | msg | wake | replace | heartbeat | ack
  deriving DecidableEq, Repr

/-- The code of a frame type. -/
def CType.code : CType → Nat
  | .enum => 1
  | .tick => 2
  | .abort => 3
  | .msg => 4
  | .wake => 5
  | .replace => 6
  | .heartbeat => 7
  | .ack => 8

/-- The bytes of a frame (Table 19-1). -/
def chainBytes (f : ChainFrame) (ty : CType) : List Byte :=
  let b := [BitVec.ofNat 8 ty.code, BitVec.ofNat 8 (f.dst.toNat + (if f.bcast then 32 else 0)), f.src.setWidth 8, f.seq,
    f.hops.setWidth 8, f.chan] ++ leBytes 2 f.tag.toNat ++ f.payload
  b ++ leBytes 4 (crc32c 0xFFFFFFFF b)

/-- The device's chain address; 0 while it has none. -/
def State.chainAddr (s : State) : BitVec 5 := s.cn.addr.getD 0

/-- May the device originate frames other than HEARTBEAT: it has an address (R447) and is not in KEEP (R465)? -/
def State.chainOriginates (s : State) : Bool := s.cn.addr.isSome && decide (s.mode ≠ .keep)

/-- Sends a frame as three copies with the link's next sequence number (R444). -/
def State.chainSend (s : State) (ty : CType) (f : ChainFrame) : State :=
  let b := chainBytes { f with seq := s.cn.seqOut } ty
  let s := { s with cn := { s.cn with seqOut := s.cn.seqOut + 1, lastTx := s.tb.now } }
  ((s.emit (.chain b)).emit (.chain b)).emit (.chain b)

/-- Sends a TICK once (R443, R448). -/
def State.chainSendTick (s : State) (f : ChainFrame) : State :=
  { s with cn := { s.cn with lastTx := s.tb.now } }.emit (.chain (chainBytes f .tick))

/-- A frame the device originates (R445). -/
def State.chainFrame (s : State) (dst : BitVec 5) (bcast : Bool) (chan : Byte) (tag : Half) (payload : List Byte) : ChainFrame :=
  ⟨dst, bcast, s.chainAddr, 0, 0, chan, tag, payload⟩

/-- Sends a broadcast notice: ABORT, WAKE or REPLACE (R452). DST and TAG of a notice are not stated: free values. -/
def State.chainNotice (s : State) (ty : CType) (payload : List Byte) : State :=
  if s.chainOriginates then
    let r := s.draw
    let s := r.2.chainSend ty (r.2.chainFrame (r.1.truncate 5) true 0 (BitVec.ofNat 16 (fld r.1 31 16)) payload)
    { s with cn.flying := s.cn.flying ++ [(ty.code, 0)] }
  else s

/-- Sends an ACK (R450). -/
def State.chainAck (s : State) (dst : BitVec 5) (tag : Half) (status : Nat) : State :=
  let s := s.chainSend .ack (s.chainFrame dst false (BitVec.ofNat 8 status) tag [])
  { s with cn.flying := s.cn.flying ++ [(CType.ack.code, tag)] }

/-- Forwards an accepted frame (R445). -/
def State.chainForward (s : State) (ty : CType) (f : ChainFrame) : State := s.chainSend ty { f with hops := f.hops + 1 }

/-- A frame is accepted at an instant; the frames accepted without a gap of 8 µs, which declares an input down, begin with it or with an
earlier one (R453). -/
def State.chainHeard (s : State) (t : DWord) : State :=
  let since := match s.cn.upSince with
    | some u => if t.toNat < s.cn.lastRx.toNat + 8000 then u else t
    | none => t
  { s with cn := { s.cn with lastRx := t, upSince := some since } }

/-- A frame is accepted on the input (R444, R453). -/
def State.chainGood (s : State) (seq : Byte) (t : DWord) : State := { s with cn.seqIn := some seq }.chainHeard t

/-- The copies of a frame, by whether each had a correct CRC: the state, and whether the frame is accepted (R444). -/
def State.chainCopies (s : State) (f : ChainFrame) (good : List Bool) (t : DWord) : State × Bool :=
  match good.findIdx? (fun b => b) with
  | none => (s.bump Reg.CHN_CNT_EXHAUSTED, false)
  | some n =>
    if s.cn.seqIn = some f.seq then (s, false)
    else ((if n = 0 then s else s.bump Reg.CHN_CNT_RECOVERED).chainGood f.seq t, true)

/-- Counts and logs a frame with a bad address or HOPS, which is discarded (R445). -/
def State.chainBad (s : State) (f : ChainFrame) : State := (s.bump Reg.CHN_CNT_BADADDR).partner 10 f.src.toNat f.src.toNat

/-- Is a frame the device's own by SRC? -/
def State.chainOwn (s : State) (f : ChainFrame) : Bool := decide (s.cn.addr = some f.src)

/-- A copy of a frame of a type other than TICK and ENUM: accepted and within R445's limits, or discarded. -/
def State.chainTake (s : State) (f : ChainFrame) (good : List Bool) (t : DWord) : State × Bool :=
  let r := s.chainCopies f good t
  if !r.2 then r
  else if 31 < f.hops.toNat then (r.1.chainBad f, false)
  else r

/-! ### Messages (R449 to R451) -/

/-- Ends an outstanding message with a status (R451): CHN_TX_STAT, or the record in channel STCHAN. -/
def State.chainEnd (s : State) (m : OutMsg) (status : Nat) : State :=
  let s := { s with cn.out := s.cn.out.filter (fun x => decide (x.tag ≠ m.tag)) }
  if m.host then { s with cn.status := status }
  else (s.commitMsg (1024 + s.regF Reg.CHN_CFG 23 16) [wd (status + m.cookie * 2 ^ 8 + m.dst.toNat * 2 ^ 16), 0]).1

/-- Sends a MSG and notes it as outstanding. -/
def State.chainMsg (s : State) (host : Bool) (dst : BitVec 5) (bcast : Bool) (chan cookie : Nat) (payload : List Byte) : State :=
  let tag := s.cn.nextTag
  let m : OutMsg := ⟨tag, host, cookie, dst, bcast, s.tb.now⟩
  let s := { s with cn := { s.cn with nextTag := tag + 1, out := s.cn.out ++ [m], expired := s.cn.expired.filter (fun x => decide (x ≠ tag)) } }
  s.chainSend .msg (s.chainFrame dst bcast (BitVec.ofNat 8 chan) tag payload)

/-- CHN_TX_CMD.GO (R449, R452): the host's message, ABORT or WAKE leaves; the seventeenth message is refused. -/
def State.chainGo (s : State) : State :=
  let h := s.reg Reg.CHN_TX_HDR
  let data (n : Nat) : List Byte := (upTo n).flatMap (fun i => leBytes 4 (s.reg (Reg.CHN_TX_DATA i)).toNat)
  let ty := fld h 2 0
  if ty = 1 then s.chainNotice .abort (data 2)
  else if ty = 2 then s.chainNotice .wake []
  else if ty = 0 ∧ s.chainOriginates then
    if 16 ≤ s.cn.out.length then { s with cn.status := 1 }
    else s.chainMsg true (BitVec.ofNat 5 (fld h 12 8)) (bit h 13) (fld h 23 16) 0 (data 8)
  else s

/-- The interface reads a thread's message from channel TXCHAN (R449). -/
def State.chainThreadMsg (s : State) : State :=
  let cfg := s.reg Reg.CHN_CFG
  let k := 1024 + fld cfg 15 8
  let ch := s.chan k
  match ch.msgs with
  | [] => s
  | m :: rest =>
    if !bit cfg 0 ∨ 16 ≤ s.cn.out.length ∨ !s.chainOriginates then s
    else
      let s := s.setChan k { ch with msgs := rest, recv := ch.recv + 1 }
      let w := nth 0 m 0
      if m.length ≠ 9 ∨ w &&& 0x0000C0FF#32 ≠ 0 then s.bump Reg.CHN_CNT_BADADDR
      else s.chainMsg false (BitVec.ofNat 5 (fld w 12 8)) (bit w 13) (fld w 23 16) (fld w 31 24)
        ((m.drop 1).flatMap (fun x => leBytes 4 x.toNat))

/-- Commits a received MSG to its channel (R450): events 6 and 15 become pending on watchers; whether it was delivered. -/
def State.chainDeliver (s : State) (f : ChainFrame) : State × Bool :=
  let k := 1024 + f.chan.toNat
  let m := wd (f.src.toNat + (if f.bcast then 32 else 0)) :: (upTo 8).map (fun i => wd (leAt f.payload (4 * i) 4))
  let r := s.commitMsg k m
  if r.2 then
    (r.1.threads.foldl (fun s e => if e.2.watches.contains k then s.pend (BitVec.ofNat 11 e.1) 15 else s) r.1, true)
  else r

/-- An accepted MSG (R450, R451). -/
def State.chainMsgIn (s : State) (f : ChainFrame) : State :=
  if s.cn.addr.isNone then s.chainForward .msg f
  else
    let mine := s.cn.out.find? (fun m => decide (m.tag = f.tag))
    if s.chainOwn f ∧ (f.bcast ∨ f.dst ≠ f.src) then
      match mine with
      | some m => s.chainEnd m (if f.bcast then 0 else 3)
      | none => if s.cn.expired.contains f.tag then s.bump Reg.CHN_CNT_LATECOMP else s.chainBad f
    else if s.chainOwn f ∧ mine.isNone ∧ !s.cn.expired.contains f.tag then s.chainBad f
    else if f.bcast then
      let s := if s.mode = .keep then s else (s.chainDeliver f).1
      s.chainForward .msg f
    else if s.cn.addr = some f.dst then
      if s.mode = .keep then s
      else
        let r := s.chainDeliver f
        r.1.chainAck f.src f.tag (if r.2 then 0 else 2)
    else s.chainForward .msg f

/-- An accepted ACK (R450, R451). -/
def State.chainAckIn (s : State) (f : ChainFrame) : State :=
  if s.cn.addr = some f.dst then
    match s.cn.out.find? (fun m => decide (m.tag = f.tag)) with
    | some m => s.chainEnd m (if f.chan = 0 then 0 else 2)
    | none => if s.cn.expired.contains f.tag then s.bump Reg.CHN_CNT_LATECOMP else s
  else if s.chainOwn f ∧ !s.cn.flying.contains (CType.ack.code, f.tag) then s.chainBad f
  else s.chainForward .ack f

/-- Takes back a frame that returns to its sender, or discards one that carries the device's address and that it did not send (R445). -/
def State.chainReturn (s : State) (ty : CType) (f : ChainFrame) : State :=
  if s.cn.flying.contains (ty.code, 0) then { s with cn.flying := s.cn.flying.erase (ty.code, 0) } else s.chainBad f

/-- An accepted notice (R452): its sender removes it, every other device acts on it (`act`) and forwards it. -/
def State.chainNoticeIn (s : State) (ty : CType) (f : ChainFrame) (act : State → State) : State :=
  if s.cn.addr.isNone then s.chainForward ty f
  else if s.chainOwn f then s.chainReturn ty f
  else (act s).chainForward ty f

/-- A received REPLACE notice is logged; the log holds 8. -/
def State.chainReplIn (s : State) (f : ChainFrame) : State :=
  if s.cn.replLog.length < 8 then
    { s with cn.replLog := s.cn.replLog ++ [(f.src, BitVec.ofNat 16 (leAt f.payload 0 2))] }
  else s

/-! ### Enumeration (R446) -/

/-- The head sends ENUM with token 1; its DST and BCAST are not stated: free values. -/
def State.sendEnum (s : State) : State :=
  let s := { s with cn := { s.cn with enumAt := some s.tb.now, flying := s.cn.flying ++ [(CType.enum.code, 0)] } }
  let r := s.draw
  r.2.chainSend .enum (r.2.chainFrame (r.1.truncate 5) (bit r.1 5) 0 1 [])

/-- The token of an ENUM frame. -/
def enumToken (f : ChainFrame) : Nat := f.tag.toNat % 256
/-- The OVF bit of an ENUM frame. -/
def enumOvf (f : ChainFrame) : Bool := f.tag.getLsbD 8
/-- An ENUM frame with another token and OVF. -/
def withToken (f : ChainFrame) (n : Nat) (ovf : Bool) : ChainFrame :=
  { f with tag := BitVec.ofNat 16 (n % 256 + (if ovf then 256 else 0)) }

/-- An accepted ENUM that is not a foreign frame with the device's address: returned to the head, or handled by a device with CHN_HEAD
low. -/
def State.enumTaken (s : State) (f : ChainFrame) : State :=
  if s.cn.head then
    { s with cn := { s.cn with count := min (enumToken f) 32, ovf := s.cn.ovf || enumOvf f, enumAt := none } }
  else match s.cn.addr with
    | none =>
      if enumToken f ≤ 31 then
        ({ s with cn.addr := some (BitVec.ofNat 5 (enumToken f)) }).chainForward .enum (withToken f (enumToken f + 1) (enumOvf f))
      else ({ s with cn.ovf := true }).chainForward .enum (withToken f (enumToken f) true)
    | some a =>
      let s := if enumToken f = a.toNat then s else { s with cn.addrErr := true }
      s.chainForward .enum (withToken f (enumToken f + 1) (enumOvf f))

/-- An accepted ENUM (R445, R446). -/
def State.chainEnumIn (s : State) (f : ChainFrame) : State :=
  if s.chainOwn f then
    if s.cn.flying.contains (CType.enum.code, 0) then (s.chainReturn .enum f).enumTaken f else s.chainBad f
  else s.enumTaken f

/-- An accepted HEARTBEAT: the next device removes it, unless it has no address, and discards one that carries its own address when it has
sent none (R445, R447). -/
def State.heartbeatIn (s : State) (f : ChainFrame) : State :=
  if s.cn.addr.isNone then s.chainForward .heartbeat f
  else if s.chainOwn f ∧ !s.cn.flying.contains (CType.heartbeat.code, 0) then s.chainBad f
  else s

end Sys2Proof.Machine
end

