-- ==== Sys2Proof/Machine/Ras.lean ====
section
/-! DEFINITION. Replace reasons (R491). -/

namespace Sys2Proof.Machine

/-- Is REPLACE_N low: a replace reason is set (R491)? -/
def State.replaceLow (s : State) : Bool := s.reg Reg.RAS_REPLACE != 0

/-- What the device does for replace reason `bit_` newly set: a chain REPLACE carries RAS_REPLACE, and the record joins the history. -/
def State.replaceNote (s : State) (bit_ : Nat) : State :=
  let s := s.chainNotice .replace (leBytes 8 (s.reg Reg.RAS_REPLACE).toNat)
  { s with replHist := s.replHist ++ [(⟨bit_, s.reg Reg.RAS_REPLACE, 0, 2, s.tick32, lo32 s.tb.now⟩ : RasRec)] }

/-- Sets the replace reasons of one condition (Table 21-5): where one is newly set REPLACE_N goes low, and each has its notices. -/
def State.replaceAll (s : State) (bits : List Nat) : State :=
  match bits.filter (fun b => !s.regB Reg.RAS_REPLACE b) with
  | [] => s
  | new =>
    let was := s.alert
    let low := s.replaceLow
    let s := s.setReg Reg.RAS_REPLACE (new.foldl (fun v b => setBit v b true) (s.reg Reg.RAS_REPLACE))
    let s := if low then s else s.emit (.pin "REPLACE_N" false)
    (new.foldl (fun s b => s.replaceNote b) s).alertPin was

/-- Sets one replace reason. -/
def State.replace (s : State) (bit_ : Nat) : State := s.replaceAll [bit_]

/-- A write of 1 bits to RAS_REPLACE clears reasons; REPLACE_N and DEV_ALERT_N follow (R486, R491). -/
def State.clearReplace (s : State) (v : Word) : State :=
  let was := s.alert
  let low := s.replaceLow
  let s := s.setReg Reg.RAS_REPLACE (s.reg Reg.RAS_REPLACE &&& ~~~v)
  let s := if low ∧ !s.replaceLow then s.emit (.pin "REPLACE_N" true) else s
  s.alertPin was

end Sys2Proof.Machine
end

