-- ==== Sys2Proof/Machine/Dram.lean ====
section
/-! DEFINITION. The DRAM controller (R389 to R411): training, retraining, refresh, errors, scrub, retirement, the keep set. -/

namespace Sys2Proof.Machine

/-! ### Training (R399 to R402) -/

/-- Is the controller enabled? -/
def State.dramEn (s : State) : Bool := s.regB Reg.DRC_CFG 31

/-- The speed code that SPEED, the DIMMs and the population allow (R389, Table 16-1): the slowest of the three. -/
def State.dramSpeed (s : State) : Nat :=
  max (s.regF Reg.DRC_CFG 10 8) (max s.dc.board.speed (if s.dc.board.dimms = 2 then 1 else 0))

/-- Full training begins: READY 0, every DRAM request waits (R399). -/
def State.dramTrain (s : State) : State := if s.dramEn then { s with dc := { s.dc with training := true, ready := false } } else s

/-- A bit per fitted DIMM, 2c + s. -/
def Board.present (b : Board) : Nat := if b.dimms = 0 then 0 else if b.dimms = 1 then 0x5555 else 0xFFFF

/-- A write of DRC_CFG in LOAD (R390, R401): the SPDs are read; EN is refused while MISMATCH; enabling, or another speed, starts full
training, and a code 4–7 leaves SPEED as it is and is logged. -/
def State.drcCfg (s : State) (v : Word) : State :=
  let old := s.reg Reg.DRC_CFG
  let badSpeed := decide (3 < fld v 10 8)
  let s := { s with dc.present := s.dc.board.present }
  let en := bit v 31 && !s.dc.board.mismatch
  let sp := if badSpeed then fld old 10 8 else fld v 10 8
  let s := s.setReg Reg.DRC_CFG (wd (sp * 256 + (if en then 2 ^ 31 else 0)))
  let s := if badSpeed ∨ (bit v 31 ∧ !en) then s.refuse Reg.DRC_CFG v else s
  if !en then { s with dc := { s.dc with training := false, ready := false } }
  else if !bit old 31 ∨ sp ≠ fld old 10 8 then s.dramTrain
  else s

/-- DRC_STATUS as read. -/
def State.drcStatus (s : State) : Word :=
  let b (x : Bool) (i : Nat) : Nat := if x then 2 ^ i else 0
  let ins := (upTo 8).map (fun c => b (s.dc.present.testBit (2 * c) && !s.chRetired c) (16 + c))
  wd (b s.dc.ready 31 + b s.dc.training 30 + b s.dc.panic 29 + b (s.dc.board.mismatch && decide (0 < s.dc.present)) 28
    + s.dc.speed * 2 ^ 24 + ins.sum + s.dc.present)

/-- DRC_CH_STATUS as read: the DIMMs found join the stored fields. -/
def State.chStatus (s : State) (c : Nat) : Word :=
  s.reg (Reg.DRC_CH_STATUS c) ||| wd (((s.dc.present >>> (2 * c)) % 4 + 1) / 2)

/-- The requests of a channel. -/
def State.dramQ (s : State) (c : Nat) : DramChan := Sparse.get (fun _ => DramChan.reset) s.dc.chans c
/-- Writes the requests of a channel. -/
def State.setDramQ (s : State) (c : Nat) (q : DramChan) : State :=
  { s with dc.chans := Sparse.set (fun _ => DramChan.reset) s.dc.chans c q }

/-- Retires channel c (R408): its whole group goes out of service; RAS event 4, replace reason DRAM_RETIRED, the pages the group
held, check 5. Causes: 1 training, 2 UE threshold, 3 host, 4 abort; 5 for the other members. -/
def State.retire (s : State) (c cause : Nat) : State :=
  if s.chRetired c then s
  else
    let g := c / 4
    let s := (upTo 4).foldl (fun s i =>
      let k := 4 * g + i
      let r := Reg.DRC_CH_STATUS k
      s.setReg r (setBit (setFld (s.reg r) 30 28 (if k = c then cause else 5)) 31 true)) s
    let s := (upTo 4).foldl (fun s i => s.setDramQ (4 * g + i) DramChan.reset) s
    let s := s.rasEvent 4 (wd c) (wd cause) 2
    ((s.replace 4).peatLost g).rerunPeat

/-- A group whose channels all passed training returns to service. -/
def State.unretire (s : State) (g : Nat) : State :=
  (upTo 4).foldl (fun s i =>
    let r := Reg.DRC_CH_STATUS (4 * g + i)
    s.setReg r (setFld (s.reg r) 31 28 0)) s

/-- The content of a unit is lost: its bytes are free values anew. -/
def State.loseContent (s : State) (unit : Nat) (p : Nat → Bool) : State :=
  let gens := Sparse.set (fun _ => 0) s.dc.gens unit (Sparse.get (fun _ => 0) s.dc.gens unit + 1)
  { s with dram := Sparse.keep (fun a => !p a) s.dram, dc.gens := gens }

/-- The end of a full training (R393, R399, R402, R408); `fail` names the subchannels that failed, channel × 2 + subchannel. -/
def State.trained (s : State) (fail : BitVec 16) : State :=
  if !s.dc.training then s
  else
    let s := s.loseContent 4 (fun a => s.trainingArea a)
    let s := (upTo 8).foldl (fun s c =>
      let r := Reg.DRC_CH_STATUS c
      s.setReg r (setFld (s.reg r) 3 2 (bitsN fail.toNat (2 * c + 1) (2 * c)))) s
    let s := (upTo 2).foldl (fun s g => if bitsN fail.toNat (8 * g + 7) (8 * g) = 0 then s.unretire g else s) s
    let s := (upTo 8).foldl (fun s c => if bitsN fail.toNat (2 * c + 1) (2 * c) = 0 then s else s.retire c 1) s
    { s with dc := { s.dc with training := false, ready := true, speed := s.dramSpeed } }

/-- TRAINING (R399): full training ends. -/
def execTraining (fail : BitVec 16) (s : State) : Host.Outcome State Fault Refusal := done (s.trained fail)

/-- RETRAIN (R400): subchannel j pauses for `dur` ns from `at_` on; `due` tells that its interval has ended. -/
def execRetrain (j : Fin 16) (dur : Fin 1501) (due : Bool) (at_ : DWord) (s : State) : Host.Outcome State Fault Refusal :=
  let s := s.advanceTo at_
  let free := decide (s.dc.pauseEnd.toNat + 10000 ≤ at_.toNat) || s.dc.pauseEnd == 0
  done (if !s.dc.ready ∨ !free ∨ (s.dc.panic ∧ !due) then s
    else
      let s := if s.dc.panic then s.bumpF (Reg.DRC_CH_STATUS (j.val / 2)) 23 16 else s
      { s with dc := { s.dc with pauseEnd := at_ + BitVec.ofNat 64 dur.val, pauseSub := j.val } })

/-- REFRESH (R398): a bank's refresh falls due; `burst` tells that a real-time burst on its channel uses the bank, `full` that
the refresh has been postponed by 2 tREFI. -/
def execRefresh (burst full : Bool) (s : State) : Host.Outcome State Fault Refusal :=
  done (if !s.dc.ready ∨ !burst then s
    else if s.dc.panic ∧ !full then s.bump Reg.DRC_CNT_POSTPONE
    else s.bump Reg.DRC_CNT_INSERT)

/-! ### Accesses and errors (R397, R403 to R407) -/

/-- The real-time FIFO's fill after an access, and PANIC (R397). -/
def State.rtFill (s : State) (n : Nat) : State :=
  let up := !s.dc.panic && decide (s.regF Reg.DRC_PANIC_HI 12 0 < n)
  let down := s.dc.panic && decide (n < s.regF Reg.DRC_PANIC_LO 12 0)
  let s := if up then s.bump Reg.DRC_CNT_PANIC else s
  { s with dc := { s.dc with rtFill := n, panic := (s.dc.panic || up) && !down } }

/-- Shows the three words of an error in the log of channel c. -/
def State.showElog (s : State) (c : Nat) (w : List Word) : State := (upTo 3).foldl (fun s i => s.setReg (Reg.DRC_CH_ELOG0 c + 4 * i) (nth 0 w i)) s

/-- Holds an error of a channel in its log: the first of each kind, corrected or not, since the log was last read (R404). -/
def State.elog (s : State) (a : Nat) (unc scrub : Bool) (device : Nat) : State :=
  let c := s.dramChan a
  let shown := s.reg (Reg.DRC_CH_ELOG0 c)
  let other := Sparse.get (fun _ => []) s.dc.elogs c
  if bit shown 31 ∧ (bit shown 30 = unc ∨ other ≠ []) then s
  else
    let r := s.draw
    let s := r.2
    let rank := if s.dc.board.ranks = 2 then fld r.1 0 0 else 0
    let b (x : Bool) (i : Nat) : Nat := if x then 2 ^ i else 0
    let w := [wd (2 ^ 31 + b unc 30 + b scrub 29 + s.dramSub a * 2 ^ 28 + s.dramSlot a * 2 ^ 27 + rank * 2 ^ 26 + device * 2 ^ 16),
      wd (a / 64 * 64), wd (a / 2 ^ 32)]
    if bit shown 31 then { s with dc.elogs := Sparse.set (fun _ => []) s.dc.elogs c w } else s.showElog c w

/-- The errors of a channel in the window in progress. -/
def State.errWin (s : State) (c : Nat) : ErrWin := Sparse.get (fun _ => ErrWin.reset) s.dc.errs c
/-- Writes the errors of a channel. -/
def State.setErrWin (s : State) (c : Nat) (e : ErrWin) : State :=
  { s with dc.errs := Sparse.set (fun _ => ErrWin.reset) s.dc.errs c e }

/-- What an error does (R404, R407): counts, log, RAS event 3 for one that persists, the thresholds of the window. -/
def State.dramError (s : State) (a : Nat) (e : Ecc) (scrub : Bool) : State :=
  let c := s.dramChan a
  match e with
  | .clean => s
  | .recovered => s.bump (Reg.DRC_CH_RECOVERED c)
  | .corrected d =>
    let s := (s.bump (Reg.DRC_CH_CE c)).elog a false scrub d.toNat
    let w := s.errWin c
    let s := s.setErrWin c { w with ce := w.ce + 1 }
    if w.ce = s.regF Reg.DRC_ERRTHR 31 16 then (s.rasEvent 9 1 (wd c) 2).replace 2 else s
  | .uncorrectable =>
    let s := (s.bump (Reg.DRC_CH_UE c)).elog a true scrub 15
    let s := s.rasEvent 3 (wd c) (wd a) 1
    let w := s.errWin c
    let s := s.setErrWin c { w with ue := w.ue + 1 }
    let t := s.regF Reg.DRC_ERRTHR 15 8
    if 0 < t ∧ t ≤ w.ue + 1 then s.retire c 2 else s

/-- The window of R407 at a tick boundary. -/
def State.errTick (s : State) : State :=
  if (s.reg Reg.DRC_ERRWIN).toNat ≤ s.dc.winTicks + 1 then { s with dc := { s.dc with errs := [], winTicks := 0 } }
  else { s with dc.winTicks := s.dc.winTicks + 1 }

/-- Is the subchannel of an address paused for retraining at an instant? -/
def State.subPaused (s : State) (a : Nat) (t : DWord) : Bool :=
  decide (t < s.dc.pauseEnd) && decide (s.dc.pauseSub = s.dramChan a * 2 + s.dramSub a)

/-- Is a request one of a frond's DMA port? -/
def dmaReq (r : DramReq) : Bool := decide (1 ≤ r.src.val ∧ r.src.val ≤ 16)

/-- One request asks for a queue entry: of 128, 32 are reserved for the frond DMA ports; one that finds none is held (R394). -/
def DramChan.enter (q : DramChan) (r : DramReq) : DramChan :=
  let others := (q.queue.filter (fun x => !dmaReq x)).length
  if q.queue.length < 128 ∧ (dmaReq r ∨ others < 96) then { q with queue := q.queue ++ [r] } else { q with held := q.held ++ [r] }

/-- New requests reach a channel behind those that are held. -/
def DramChan.arrive (q : DramChan) (l : List DramReq) : DramChan := (q.held ++ l).foldl DramChan.enter { q with held := [] }

/-- The places in a queue of the requests that may be served at an instant: those whose subchannel is not paused (R400) and that stand
behind no request for the same block (R394). -/
def State.dramServable (s : State) (q : List DramReq) (t : DWord) : List (Nat × DramReq) :=
  (q.zipIdx.filter (fun e => !s.subPaused e.1.addr.toNat t
    && !(q.take e.2).any (fun x => decide (x.addr.toNat / 64 = e.1.addr.toNat / 64)))).map (fun e => (e.2, e.1))

/-- The first of a rising list of numbers that is past `last`, in rotating order. -/
def rotate (last : Nat) (l : List Nat) : Option Nat :=
  match l.find? (fun i => decide (last < i)) with
  | some i => some i
  | none => l.head?

/-- The requester that a channel serves next: outside PANIC the next in rotating order (R395); in PANIC the real-time port, except in a
slot that the floor of R396 claims, which goes to the frond DMA ports in rotating order (R397). -/
def State.dramTurn (s : State) (q : DramChan) (l : List (Nat × DramReq)) (claimed : Bool) : Option Nat :=
  let waits := (upTo 20).filter (fun i => l.any (fun e => decide (e.2.src.val = i)))
  let ports := waits.filter (fun i => decide (1 ≤ i ∧ i ≤ 16))
  if !s.dc.panic then rotate q.turn waits
  else if claimed ∧ !ports.isEmpty then rotate q.turn ports
  else if waits.contains 0 then some 0 else rotate q.turn waits

/-- Channel c serves one access, if a requester waits for it: of the requester whose turn it is, the one that `pick` chooses, since
requests for different blocks complete in no given order (R394). -/
def State.dramServe (s : State) (c pick : Nat) (claimed : Bool) (err : Ecc) (t : DWord) : State :=
  let q := s.dramQ c
  let l := s.dramServable q.queue t
  match s.dramTurn q l claimed with
  | none => s
  | some i =>
    let mine := l.filter (fun e => decide (e.2.src.val = i))
    match mine[pick % mine.length]? with
    | none => s
    | some (k, r) =>
      let s := s.setDramQ c ({ q with queue := q.queue.eraseIdx k, turn := i }.arrive [])
      if s.dramRetired r.addr.toNat then s else s.dramError r.addr.toNat err false

/-- DRAM_ACCESS (R395, R404): the requests `reqs` reach channel c, which serves the access whose turn it is, unless DRAM does not serve
requests; `claimed` tells that the floor of R396 claims the slot, `err` what the ECC of the access finds, and `fill` the real-time FIFO's
fill after it. What an access moves is the effect of the command that asks for it. -/
def execDramAccess (c : Fin 8) (err : Ecc) (fill : Fin 4097) (at_ : DWord) (s : State) (reqs : List DramReq := [])
    (pick : Nat := 0) (claimed : Bool := false) : Host.Outcome State Fault Refusal :=
  let s := s.advanceTo at_
  let new := reqs.filter (fun r => s.inDram r.addr.toNat 1 && decide (s.dramChan r.addr.toNat = c.val))
  let s := s.setDramQ c.val ((s.dramQ c.val).arrive new)
  let s := if s.dc.ready then s.dramServe c.val pick claimed err at_ else s
  done (s.rtFill fill.val)

/-! ### Scrub (R406) -/

/-- The 64-byte blocks of fitted DRAM. -/
def State.dramBlocks (s : State) : Nat := s.dramSize / 64

/-- A walk begins when none is in progress or its period has ended; one that ends unfinished counts in LATE. -/
def State.scrubPeriod (s : State) (t : DWord) : State :=
  let per := s.regF Reg.DRC_SCRUB 15 0 * 3600000000000
  if s.dc.scrubLeft = 0 ∧ s.dc.scrubStart = 0 then { s with dc := { s.dc with scrubStart := t, scrubLeft := s.dramBlocks } }
  else if s.dc.scrubStart.toNat + per ≤ t.toNat then
    let s := if 0 < s.dc.scrubLeft then s.bumpF Reg.DRC_SCRUB 31 16 else s
    { s with dc := { s.dc with scrubStart := t, scrubLeft := s.dramBlocks } }
  else s

/-- SCRUB (R406): patrol scrub reads the block at `a` in a slot that no requester uses; each block counts once per walk. -/
def execScrub (a : BitVec 48) (err : Ecc) (at_ : DWord) (s : State) : Host.Outcome State Fault Refusal :=
  let s := s.advanceTo at_
  done (if !s.dc.ready ∨ !s.inDram a.toNat 1 then s
    else
      let s := s.scrubPeriod at_
      if s.dc.scrubLeft = 0 ∨ !(s.dramServable (s.dramQ (s.dramChan a.toNat)).queue at_).isEmpty then s
      else
        let s := { s with dc.scrubLeft := s.dc.scrubLeft - 1 }
        if s.dramRetired a.toNat then s else s.dramError (a.toNat / 64 * 64) err true)

/-! ### Registers -/

/-- A write of DRC_RETIRE: each bit set retires its channel. -/
def State.drcRetire (s : State) (v : Word) : State :=
  (upTo 8).foldl (fun s c => if bit v c then s.retire c 3 else s) s

/-- The bits of the channels out of service. -/
def State.drcRetired (s : State) : Word := wd ((upTo 8).map (fun c => if s.chRetired c then 2 ^ c else 0)).sum

/-- Is a mask a union of keep units (R409)? -/
def keepMaskOk (v : Nat) : Bool :=
  (upTo 2).all (fun g => (upTo 2).all (fun sl => (upTo 4).all (fun i => v.testBit (8 * g + 2 * i + sl) == v.testBit (8 * g + sl))))

/-- A write of DRC_KEEP (R409). -/
def State.drcKeep (s : State) (v : Word) : State :=
  if keepMaskOk (fld v 15 0) then s.setReg Reg.DRC_KEEP (v &&& 0xFFFF#32)
  else s.setReg Reg.DRC_KEEP (setBit (s.reg Reg.DRC_KEEP) 31 true)

/-- Is slot s of group g in the keep set? -/
def State.kept (s : State) (g sl : Nat) : Bool := (s.regF Reg.DRC_KEEP 15 0).testBit (8 * g + sl)

/-- A read of DRC_CH_ELOG2 clears ELOG0.VALID (R404); the first error of the other kind, if one is held, shows then. -/
def State.elogRead (s : State) (c : Nat) : State :=
  let other := Sparse.get (fun _ => []) s.dc.elogs c
  if other.isEmpty then s.setReg (Reg.DRC_CH_ELOG0 c) (setBit (s.reg (Reg.DRC_CH_ELOG0 c)) 31 false)
  else { s with dc.elogs := Sparse.set (fun _ => []) s.dc.elogs c [] }.showElog c other

end Sys2Proof.Machine
end

