-- ==== Sys2Proof/Machine/Host.lean ====
section
/-! DEFINITION. The host interface (R422 to R441): bulk channels, rings, mailbox, heartbeat, host-link resets. -/

namespace Sys2Proof.Machine

/-! ### Device addresses as bulk transfers reach them (Table 18-3, R427) -/

/-- Does the range touch a group of DRAM that is out of service? -/
def State.rangeRetired (s : State) (a n : Nat) : Bool :=
  decide (a < 0x40000000000) &&
    (if 4096 < n then s.chRetired 0 || s.chRetired 4 else s.dramRetired a || s.dramRetired (a + n - 1))

/-- Does a bulk read find n readable bytes at `a`? -/
def State.bulkReads (s : State) (a n : Nat) : Bool := s.dmaReads a n && !s.rangeRetired a n

/-- Is the active bank of a core open to a debug patch (R500): the host holds the debug lock and all the core's threads are halted? -/
def State.patchOk (s : State) (f c : Nat) : Bool :=
  decide (s.regF Reg.DBG_LOCK 9 8 = 1) && (coreTids (f * 16 + c)).all (fun t => (s.thr t).halted)

/-- Does a bulk write find n writable bytes at `a` (R115, R426, R500)? -/
def State.bulkWrites (s : State) (a n : Nat) : Bool :=
  s.bulkReads a n && (match regionOf a with
    | .iram f c _ => decide (c < 16) && s.patchOk f c || !s.inActive a n
    | _ => decide (s.dmaWriteCode a n = none))

/-- Marks the core whose active bank a bulk write patches (R500). -/
def State.markPatch (s : State) (a : Nat) : State :=
  match regionOf a with
  | .iram f c b =>
    let k := s.core (ramCore f c)
    if b = k.bankB then s.setCore (ramCore f c) { k with patched := true } else s
  | _ => s

/-- The frond a device address lies in, if any. -/
def frondOf (a : Nat) : Option Nat :=
  match regionOf a with
  | .shared f => some f
  | .iram f _ _ => some f
  | .dmem f _ => some f
  | _ => none

/-- An access to a stopped frond waits for its wake (R507). -/
def State.wakeAt (s : State) (a : Nat) : State := match frondOf a with | some f => s.wakeFrond f | none => s

/-- Bulk data is written. `bad` names a block of DRAM that the write covers in part and whose read finds an uncorrectable error: that
block stays as it is, and the error is logged and posted (R405). -/
def State.bulkStore (s : State) (a : Nat) (bs : List Byte) (bad : Option (BitVec 48)) : State :=
  let s := (s.wakeAt a).markPatch a
  let part := partBlock a bs.length (bad.map (fun x => x.toNat))
  let s := s.devWrites (around a bs part)
  match part with
  | none => s
  | some b => (s.dramError b .uncorrectable false).postEvent 11 0x45 (wd b) (wd (b / 2 ^ 32))

/-! ### Streaming (R428 to R430) -/

/-- The address of a channel. -/
def State.chAddr (s : State) (c : Nat) : Nat :=
  (s.reg (Reg.BLK_CH_ADDR_LO c)).toNat + s.regF (Reg.BLK_CH_ADDR_HI c) 15 0 * 2 ^ 32

/-- Sets the address of a channel. -/
def State.setChAddr (s : State) (c a : Nat) : State :=
  (s.setReg (Reg.BLK_CH_ADDR_LO c) (wd a)).setReg (Reg.BLK_CH_ADDR_HI c) (wd (a / 2 ^ 32 % 2 ^ 16))

/-- Disarms a channel. -/
def State.bulkDisarm (s : State) (c : Nat) : State := s.setBulk c { s.bulk c with armed := false }

/-- CMDSTAT of a channel's last command write. -/
def State.cmdStat (s : State) (c n : Nat) : State := s.setRegF (Reg.BLK_CH_STAT c) 1 0 n

/-- A write of BLK_CH_ADDR_HI (R428, R431): arms channels 0–3, unless commands are queued or the channel is fenced. -/
def State.bulkArm (s : State) (c : Nat) (v : Word) : State :=
  let s := s.setReg (Reg.BLK_CH_ADDR_HI c) (v &&& 0xFFFF)
  if 4 ≤ c then s
  else if !(s.bulk c).queue.isEmpty ∨ (s.bulk c).fenced then s.cmdStat c 2
  else (s.setRegF (Reg.BLK_CH_STAT c) 30 24 0).setBulk c { s.bulk c with armed := true }

/-- A dropped TLP: ERR, its cause, disarmed (R428). -/
def State.bulkErr (s : State) (c cause : Nat) (first : Word) : State :=
  let s := s.violate cause (s.chAddr c) first
  (s.setRegF (Reg.BLK_CH_STAT c) 30 24 (64 + cause)).bulkDisarm c

/-- The bytes that a TLP's byte enables select, with those not selected at its ends removed. -/
def trimBe (l : List (Option Byte)) : List (Option Byte) :=
  ((l.dropWhile Option.isNone).reverse.dropWhile Option.isNone).reverse

/-- APERTURE_WRITE (R428, Table 18-9): a write TLP to the aperture of channel c; a byte whose enable is clear is none. -/
def execApertureWrite (c : Fin 8) (tlp : List (Option Byte)) (poisoned malformed : Bool) (bad : Option (BitVec 48)) (s : State) :
    Host.Outcome State Fault Refusal :=
  let x := trimBe tlp
  let bs := x.filterMap id
  let first : Word := wd (leNat (bs.take 4))
  let a := s.chAddr c.val
  let lim := (s.reg (Reg.BLK_CH_LIMIT c.val)).toNat
  done (if !s.host.link then s
    else if malformed ∨ s.host.mps < tlp.length then s.violate 8 a first
    else if poisoned then s.bulkErr c.val 6 first
    else if !(s.bulk c.val).armed then s.violate 3 a first
    else if x.any Option.isNone then s.bulkErr c.val 5 first
    else if bs.isEmpty then s
    else if lim < bs.length ∨ !((upTo bs.length).all (fun i => s.bulkWrites (a + i) 1)) ∨ s.dramWaits a then s.bulkErr c.val 4 first
    else
      let s := (s.bulkStore a bs bad).setChAddr c.val (a + bs.length)
      let s := s.setReg (Reg.BLK_CH_LIMIT c.val) (wd (lim - bs.length))
      if lim = bs.length then s.bulkDisarm c.val else s)

/-- APERTURE_READ (R430): n bytes at the channel's address plus `off`; `bad` tells that an uncorrectable DRAM error is met. -/
def execApertureRead (c : Fin 8) (off : BitVec 20) (n : Fin 4097) (bad : Bool) (s : State) : Host.Outcome State Fault Refusal :=
  let a := s.chAddr c.val + off.toNat
  let s := s.wakeAt a
  let ok (i : Nat) : Bool := s.bulkReads (a + i) 1
  let bs := (upTo n.val).map (fun i => if ok i then s.byte (a + i) else 0xFF)
  let unc := bad && decide (regionOf a = .dram)
  done (if !s.host.link ∨ s.dramWaits a then s
    else
      let s := match (upTo n.val).find? (fun i => !ok i) with
        | some i => s.violate 7 (a + i) 0
        | none => s
      let s := if unc then s.dramError a .uncorrectable false else s
      s.emit (.apertureData unc bs))

/-! ### Commands (R431 to R433) -/

/-- Writes the completion record of the command at the head of a channel (Table 18-4) and removes the command. -/
def State.bulkFinish (s : State) (c status : Nat) : State :=
  let x := s.bulk c
  match x.queue with
  | [] => s
  | k :: rest =>
    let orphans := match x.request with
      | some r => (r.1, k.addr + k.moved) :: s.host.orphans.filter (fun e => decide (e.1 ≠ r.1))
      | none => s.host.orphans
    let s := { s with host.orphans := orphans }
    let s := s.setBulk c { x with queue := rest, request := none, part := [] }
    s.ringPost (8 + c) (fun seq => [k.cookie, wd k.moved, wd (status + c * 256), seq].flatMap (fun w => leBytes 4 w.toNat))

/-- Writes bytes to host memory in TLPs of at most Max_Payload_Size that do not cross 4 KiB host boundaries (R432). -/
def State.pushTlps (s : State) (dev host : Nat) : Nat → Nat → State
  | 0, _ => s
  | _ + 1, 0 => s
  | fuel + 1, left =>
    let n := min left (min s.host.mps (4096 - host % 4096))
    (s.emit (.hostWrite (s.regB Reg.BLK_CFG 0) host (s.bytes dev n))).pushTlps (dev + n) (host + n) fuel (left - n)

/-- The bytes before the 256-byte chunk i of a transfer of `len` bytes from `a` on (R396). -/
def beforeChunk (a len i : Nat) : Nat := if i = 0 then 0 else min len (256 - a % 256 + 256 * (i - 1))

/-- Runs a PUSH; `bad` names the chunk whose read finds an uncorrectable error. -/
def State.pushRun (s : State) (c : Nat) (k : BulkCmd) (bad : Option Nat) : State :=
  if !s.bulkReads k.addr k.len then s.bulkFinish c 0x43
  else
    let s := s.wakeAt k.addr
    let n := match bad with
      | some i => if regionOf k.addr = .dram then beforeChunk k.addr k.len i else k.len
      | none => k.len
    let s := s.pushTlps k.addr k.host n n
    let x := s.bulk c
    let s := s.setBulk c { x with queue := { k with moved := n } :: x.queue.drop 1 }
    if n < k.len then (s.dramError (k.addr + n) .uncorrectable false).bulkFinish c 0x45 else s.bulkFinish c 0

/-- The running PULL of a channel sends its next read request (R431). -/
def State.pullRequest (s : State) (c : Nat) : State :=
  let x := s.bulk c
  match x.queue with
  | [] => s
  | k :: _ =>
    let done_ := k.moved + x.part.length
    let h := k.host + done_
    let n := min (k.len - done_) (min s.host.mrrs (4096 - h % 4096))
    let tag := s.host.nextTag
    let s := { s with host.nextTag := (tag + 1) % 1024, host.orphans := s.host.orphans.filter (fun e => decide (e.1 ≠ tag)) }
    (s.setBulk c { x with request := some (tag, n) }).emit (.hostRead tag h n)

/-- May the command at the head of a channel begin: the link carries requests, its completion ring has room (R433, Table 18-5), and
DRAM serves requests? -/
def State.bulkReady (s : State) (c : Nat) (k : BulkCmd) : Bool :=
  s.host.link && s.host.bme && s.ringRoom (8 + c) && !s.dramWaits k.addr && decide (s.mode ≠ .keep)

/-- A PULL of channel c that may not write n bytes at `a`: a write to an active I-RAM bank is logged (R115). -/
def State.pullRefused (s : State) (c a n : Nat) : State := if s.inActive a n then s.iramRefused a (wd (2 ^ 31 + c)) else s

/-- Starts the commands of a channel that can begin, in order. -/
def State.bulkPump (s : State) (c : Nat) (bad : Option Nat) : Nat → State
  | 0 => s
  | n + 1 =>
    match (s.bulk c).queue with
    | [] => s
    | k :: rest =>
      if k.started ∨ !s.bulkReady c k then s
      else if !k.pull then (s.pushRun c k bad).bulkPump c none n
      else if !s.bulkWrites k.addr k.len then ((s.pullRefused c k.addr k.len).bulkFinish c 0x43).bulkPump c none n
      else (s.setBulk c { s.bulk c with queue := { k with started := true } :: rest }).pullRequest c

/-- Has a channel a command that can begin? -/
def State.bulkCan (s : State) (c : Nat) : Bool :=
  match (s.bulk c).queue with
  | [] => false
  | k :: _ => !k.started && s.bulkReady c k

/-- Starts what can begin on every channel, at most n commands: the channels share the link in rotation (R432), a command each. -/
def State.bulkTurns (s : State) : Nat → State
  | 0 => s
  | n + 1 =>
    match rotate s.host.turn ((upTo 8).filter (fun c => s.bulkCan c)) with
    | none => s
    | some c => ({ s with host.turn := c }.bulkPump c none 1).bulkTurns n

/-- Starts what can begin on every channel. -/
def State.bulkPumpAll (s : State) : State := s.bulkTurns 129

/-- A write of BLK_CH_CMD with opcode `op`, 1 PULL or 2 PUSH (R431, R432). -/
def State.bulkCmd (s : State) (c op : Nat) (bad : Option Nat) : State :=
  let x := s.bulk c
  if x.fenced then s.cmdStat c 2
  else if (op = 1 ∧ 4 ≤ c) ∨ (op = 2 ∧ c < 4) then s.cmdStat c 3
  else if x.armed then s.cmdStat c 2
  else if 16 ≤ x.queue.length then s.cmdStat c 1
  else
    let k : BulkCmd := ⟨decide (op = 1), s.chAddr c, s.reg64 (Reg.BLK_CH_HOST_LO c) (Reg.BLK_CH_HOST_HI c),
      (s.reg (Reg.BLK_CH_LEN c)).toNat, s.reg (Reg.BLK_CH_COOKIE c), 0, false⟩
    ((s.cmdStat c 0).setBulk c { x with queue := x.queue ++ [k] }).bulkPump c (if x.queue.isEmpty then bad else none) 17

/-- PULL (R431): a command write of channel c with opcode PULL. -/
def execPull (c : Fin 8) (s : State) : Host.Outcome State Fault Refusal := done (s.bulkCmd c.val 1 none)

/-- PUSH (R432): a command write of channel c with opcode PUSH; `bad` names the 256-byte chunk whose read finds an uncorrectable
error. -/
def execPush (c : Fin 8) (bad : Option Nat) (s : State) : Host.Outcome State Fault Refusal := done (s.bulkCmd c.val 2 bad)

/-- Writes the complete 256-byte chunks that a PULL has received, and at its end the last part. A chunk that has come to lie in an active
I-RAM bank since the command began is refused as at its start (R115). -/
def State.pullStore (s : State) (c : Nat) (bad : Option (BitVec 48)) : Nat → State
  | 0 => s
  | fuel + 1 =>
    let x := s.bulk c
    match x.queue with
    | [] => s
    | k :: rest =>
      let a := k.addr + k.moved
      let n := chunkLen a (k.len - k.moved)
      if n = 0 ∨ x.part.length < n then s
      else if !s.bulkWrites a n then (s.pullRefused c a n).bulkFinish c 0x43
      else
        let s := s.bulkStore a (x.part.take n) bad
        (s.setBulk c { s.bulk c with queue := { k with moved := k.moved + n } :: rest, part := x.part.drop n }).pullStore c bad fuel

/-- The channel whose running PULL has a read request outstanding under a tag. -/
def State.pullOf (s : State) (tag : Nat) : Option Nat :=
  (upTo 4).find? (fun c => match (s.bulk c).request with | some r => decide (r.1 = tag) | none => false)

/-- READ_COMPLETION (R431, Table 18-9 cause 10): a completion arrives with data for a read request. -/
def execReadCompletion (tag : Fin 1024) (bytes : List Byte) (bad : Option (BitVec 48)) (s : State) :
    Host.Outcome State Fault Refusal :=
  done (match s.pullOf tag.val with
    | some c =>
      let x := s.bulk c
      let want := match x.request with | some r => r.2 | none => 0
      let got := bytes.take want
      let s := s.setBulk c { x with
        part := x.part ++ got
        request := if got.length = want then none else some (tag.val, want - got.length) }
      let s := s.pullStore c bad (bytes.length + 1)
      let x := s.bulk c
      match x.queue with
      | k :: _ =>
        if !k.started then s.bulkPump c none 17
        else if k.moved = k.len then (s.bulkFinish c 0).bulkPump c none 17
        else if x.request.isNone then s.pullRequest c else s
      | [] => s
    | none =>
      match s.host.orphans.find? (fun e => decide (e.1 = tag.val)) with
      | some e => s.violate 10 e.2 (wd tag.val)
      | none => s)

/-- PULL_TIMEOUT (R431): the read request of channel c's running PULL times out. -/
def execPullTimeout (c : Fin 4) (s : State) : Host.Outcome State Fault Refusal :=
  done (if (s.bulk c.val).request.isSome then (s.bulkFinish c.val 0x46).bulkPump c.val none 17 else s)

/-- Every command of a channel ends FLUSHED (R440, Table 21-1). -/
def State.bulkFlush (s : State) (c : Nat) : Nat → State
  | 0 => s
  | n + 1 => if (s.bulk c).queue.isEmpty then s else (s.bulkFinish c 0x47).bulkFlush c n

/-- A channel is disarmed and its commands end FLUSHED. -/
def State.bulkStop (s : State) (c : Nat) : State := (s.bulkFlush c 17).bulkDisarm c

/-- BLK_CH_STAT as read. -/
def State.bulkStat (s : State) (c : Nat) : Word :=
  let x := s.bulk c
  s.reg (Reg.BLK_CH_STAT c) ||| wd ((if x.armed then 2 ^ 31 else 0) + min 16 x.queue.length * 2 ^ 16)

/-! ### Rings (R434 to R437) -/

/-- A write of BLK_RNG_RD: the doorbell (R434). -/
def State.ringDoor (s : State) (r : Nat) (v : Word) : State :=
  ((s.setReg (Reg.BLK_RNG_RD r) (v &&& 0xFFFF)).ringDrainHeld r 256).bulkPumpAll

/-- A write of BLK_RNG_CFG (R435): FLUSH discards held entries, and an available ring is written the rest. -/
def State.ringCfg (s : State) (r : Nat) (v : Word) : State :=
  let badSize := decide (fld v 4 0 < 4 ∨ 16 < fld v 4 0)
  let size := if badSize then s.regF (Reg.BLK_RNG_CFG r) 4 0 else fld v 4 0
  let s := s.setReg (Reg.BLK_RNG_CFG r) (setFld (v &&& 0xBFE0FF1F) 4 0 size)
  let s := if badSize then s.refuse (Reg.BLK_RNG_CFG r) v else s
  let s :=
    if bit v 30 then (s.bump (Reg.BLK_RNG_LOST r) (s.ring r).held.length).setRing r { s.ring r with held := [] }
    else s
  (s.ringDrainHeld r 256).bulkPumpAll

/-- RING_SIGNAL (R434): the device writes WR back and signals the ring's vector, at most once per HOLDOFF µs. -/
def execRingSignal (r : Fin 16) (at_ : DWord) (s : State) : Host.Outcome State Fault Refusal :=
  let s := s.advanceTo at_
  let r := r.val
  done (if !s.ringUp r then s
    else
      let x := s.ring r
      let s := if x.due then
          s.emit (.hostWrite false (s.reg64 (Reg.BLK_RNG_WB_LO r) (Reg.BLK_RNG_WB_HI r)) (leBytes 4 (s.reg (Reg.BLK_RNG_WR r)).toNat))
        else s
      let sig := x.due || x.sig
      let may : Bool := match x.signalled with
        | some t => decide (t.toNat + s.regF (Reg.BLK_RNG_CFG r) 15 8 * 1000 ≤ s.now)
        | none => true
      let s := s.setRing r { x with
        due := false
        sig := sig && !may
        signalled := if sig && may then some s.tb.now else x.signalled }
      if sig && may then s.msix (s.regF (Reg.BLK_RNG_CFG r) 29 21) else s)

/-! ### Link, mailbox, heartbeat (R422, R438 to R440) -/

/-- BLK_STATUS as read. -/
def State.blkStatus (s : State) : Word :=
  let h := s.host
  (s.reg Reg.BLK_STATUS &&& 0xFF0000) ||| wd (h.width * 64 + h.speed * 8 + (if h.flit then 4 else 0)
    + (if h.bme then 2 else 0) + (if h.link then 1 else 0))

/-- Returns the registers of the classes that `p` picks to their reset values. -/
def State.resetRegs (s : State) (p : RegClass → Bool) : State :=
  { s with
    regs := Sparse.keep (fun off => match regRow off with | some r => !p r.cls | none => true) s.regs
    latch := Sparse.keep (fun off => match regRow (off / 2) with | some r => !p r.cls | none => true) s.latch }

/-- A host-link reset (R440, R494): configuration space and MSI-X, the ring registers, so that every ring is unavailable and holds what
ends now, then the channels, the debug lock. -/
def State.hostLinkReset (s : State) : State :=
  let s := { s with host := { s.host with bme := false, mps := 128, mrrs := 512, timeout := 0, d3 := false, msi := Msix.reset } }
  let s := s.resetRegs (fun k => decide (k = .h))
  let s := (upTo 8).foldl (fun s c => s.bulkStop c) s
  let s := (upTo 16).foldl (fun s r => s.setRing r { s.ring r with due := false, sig := false, signalled := none }) s
  let s : State := s.bumpF Reg.BLK_STATUS 23 16
  let s : State := if s.regF Reg.DBG_LOCK 9 8 = 1 then s.setReg Reg.DBG_LOCK 0 else s
  s.threads.foldl (fun s e => if e.2.halted ∧ e.2.haltHost then s.unhalt (BitVec.ofNat 11 e.1) else s) s

/-! ### Configuration space and MSI-X (R422 to R424, R437) -/

/-- The capability and extended capability identifiers of Table 18-1, in its order. PRESUMED: the numbers are those of the PCI Express base
specification, which Table 18-1 leaves them to (log entry 50). -/
def capIds : List Nat := [0x01, 0x10, 0x11]
/-- Those of the extended capabilities: AER, Device Serial Number, Data Link Feature, Physical Layer 16.0, 32.0 and 64.0 GT/s, Lane
Margining at the Receiver, Device 3. -/
def extCapIds : List Nat := [0x0001, 0x0003, 0x0025, 0x0026, 0x002A, 0x0031, 0x0027, 0x002F]

/-- A size of the device control register by its code: 128 doubled. -/
def sizeCode (n : Nat) : Nat := ((upTo 6).find? (fun i => decide (128 * 2 ^ i = n))).getD 0

/-- An item of the configuration space as read (Table 18-1). -/
def State.configRead (s : State) (i : CfgItem) : Word :=
  let b (x : Bool) : Word := if x then 1 else 0
  match i with
  | .vendor => 0x1E5C
  | .device => 0x7264
  | .revision => 0xA1
  | .classCode => 0x028000
  | .subVendor => match s.fuses.subsys with | some w => w &&& 0xFFFF | none => 0x1E5C
  | .subsystem => match s.fuses.subsys with | some w => w >>> 16 | none => 0x7264
  | .headerType => 0
  | .interruptPin => 0
  | .capability k => wd (nth 0 capIds k.val)
  | .extCapability k => wd (nth 0 extCapIds k.val)
  | .serialLo => lo32 s.fuses.serial
  | .serialHi => hi32 s.fuses.serial
  | .busMaster => b s.host.bme
  | .maxPayload => wd (sizeCode s.host.mps)
  | .maxReadRequest => wd (sizeCode s.host.mrrs)
  | .timeoutRange => wd s.host.timeout
  | .powerState => if s.host.d3 then 3 else 0
  | .functionReset => 0
  | .msixEnable => b s.host.msi.on
  | .msixMask => b s.host.msi.mask
  | .msixSize => 511

/-- Rings and channels go on after a change of what the link carries. -/
def State.hostResumes (s : State) : State := ((upTo 16).foldl (fun s r => s.ringDrainHeld r 256) s).bulkPumpAll

/-- A write of an item of the configuration space: the identity is read-only; a function level reset and entry to D3hot reset the host link
(R440). -/
def State.configWrite (s : State) (i : CfgItem) (v : Word) : State :=
  match i with
  | .busMaster => { s with host.bme := bit v 0 }.hostResumes
  | .maxPayload => if v.toNat ≤ 2 then { s with host.mps := 128 * 2 ^ v.toNat } else s
  | .maxReadRequest => if v.toNat ≤ 5 then { s with host.mrrs := 128 * 2 ^ v.toNat } else s
  | .timeoutRange => { s with host.timeout := fld v 3 0 }
  | .powerState =>
    if fld v 1 0 = 3 ∧ !s.host.d3 then let s := s.hostLinkReset; { s with host.d3 := true }
    else if fld v 1 0 = 0 then { s with host.d3 := false } else s
  | .functionReset => if bit v 0 then s.hostLinkReset else s
  | .msixEnable => { s with host.msi := { s.host.msi with on := bit v 0 } }.msixFlush
  | .msixMask => { s with host.msi := { s.host.msi with mask := bit v 0 } }.msixFlush
  | _ => s

/-- A doubleword of BAR4 as read: the MSI-X table of 512 entries of 16 bytes at 0, the pending bits at 0x8000 (Table 18-2). -/
def State.bar4Read (s : State) (dw : Nat) : Word :=
  let x := s.msixVec (dw / 4)
  if dw < 2048 then
    (match dw % 4 with
      | 0 => lo32 x.addr
      | 1 => hi32 x.addr
      | 2 => x.data
      | _ => if x.masked then 1 else 0)
  else if 8192 ≤ dw ∧ dw < 8208 then
    wd ((upTo 32).map (fun i => if s.host.msi.pending.contains ((dw - 8192) * 32 + i) then 2 ^ i else 0)).sum
  else 0

/-- A write of a doubleword of BAR4: the MSI-X table; the pending bits are read-only. -/
def State.bar4Write (s : State) (dw : Nat) (v : Word) : State :=
  if dw < 2048 then
    let x := s.msixVec (dw / 4)
    let y : MsixVec := match dw % 4 with
      | 0 => { x with addr := pair (v &&& 0xFFFFFFFC) (hi32 x.addr) }
      | 1 => { x with addr := pair (lo32 x.addr) v }
      | 2 => { x with data := v }
      | _ => { x with masked := bit v 0 }
    { s with host.msi := { s.host.msi with vectors := Sparse.set (fun _ => MsixVec.reset) s.host.msi.vectors (dw / 4) y } }.msixFlush
  else s

/-- HOST_LINK_RESET (R440): a hot reset, link-down, FLR or entry to D3hot; `down` tells that the link goes down. -/
def execHostLinkReset (down : Bool) (s : State) : Host.Outcome State Fault Refusal :=
  let s := s.hostLinkReset
  done (if down then { s with host := { s.host with link := false, speed := 0, width := 0, flit := false } } else s)

/-- The width a link of `w` steps has: 1, 2, 4, 8 or 16 lanes. -/
def linkWidth (w : Fin 5) : Nat := 2 ^ w.val

/-- PCIE_LINK_UP (R422, R435, R466): the link trains at a rate and width, and the host configures it; the rings that are enabled
become available. -/
def execPcieLinkUp (speed : Fin 6) (width : Fin 5) (bme : Bool) (mps : Fin 3) (mrrs : Fin 6) (s : State) :
    Host.Outcome State Fault Refusal :=
  done (if s.host.link ∨ s.mode = .keep then s
    else
      let s := { s with host := { s.host with
        link := true
        speed := speed.val + 1
        width := linkWidth width
        flit := decide (speed.val = 5)
        bme := bme
        mps := 128 * 2 ^ mps.val
        mrrs := 128 * 2 ^ mrrs.val } }
      let s := s.emit (.pin "PE_WAKE_N" true)
      s.hostResumes)

/-- A write of BLK_MBX_DB (R438). -/
def State.doorbell (s : State) (v : Word) : State := s.pend (v.truncate 11) 14

/-- A pulse merged in its crossing sets its sticky bit and is counted (R477). -/
def State.cdcMerged (s : State) (i : Nat) (merged : Bool) : State :=
  if merged then (s.setReg Reg.CLK_CDC_OVR (setBit (s.reg Reg.CLK_CDC_OVR) i true)).bump Reg.CLK_CDC_OVRCNT else s

/-- A write of MGT_HEARTBEAT (R439). -/
def State.heartbeat (s : State) (v : Word) : State :=
  { s with host := { s.host with hbTicks := 0, lastHbValue := v }, md.hbWritten := true }

/-- MGT_HB_STAT as read. -/
def State.hbStat (s : State) : Word := wd (min 65535 s.host.hbTicks + fld s.host.lastHbValue 15 0 * 65536)

/-- BLK_VIOL0, BLK_VIOL1, BLK_VIOL2 as read. -/
def State.violWord (s : State) (i : Nat) : Word :=
  match s.host.viol with
  | [] => 0
  | v :: _ => if i = 0 then wd (2 ^ 31 + v.cause) else if i = 1 then v.addr else v.value

end Sys2Proof.Machine
end

