-- ==== Sys2Proof/Machine/Access.lean ====
section
/-! DEFINITION. Thread memory access: the special window (R58, R184, R202, R438), the store buffer (R123 to R126), and what a
waiting instruction does once it may proceed. -/

namespace Sys2Proof.Machine

/-! ### The special window -/

/-- A channel's status word at an offset of its block (Table 07-3); `watch` is the reader's WATCH bit. -/
def State.chanWord (s : State) (k o : Nat) (watch : Bool) : Word :=
  let c := s.chan k
  match o with
  | 0 => wd (c.hwm * 65536 + c.msgs.length)
  | 4 => flag watch
  | 8 => c.sent
  | 12 => c.recv
  | 16 => c.full
  | 20 => wd c.readers.length
  | _ => 0

/-- The lock-unit view of entry e of frond f (Table 07-6): word 0 the address, word 1 the state. -/
def State.lockView (s : State) (f e : Nat) (second : Bool) : Word :=
  match (s.frond f).locks.find? (fun x => decide (x.slot = e)) with
  | none => 0
  | some x =>
    if second then
      wd (2 ^ 31 + (if (s.thr x.holder).halted then 2 ^ 30 else 0) + (if x.abandoned then 2 ^ 29 else 0) + x.prio * 65536
        + x.holder.toNat)
    else x.addr

/-- The halt view of a thread (Table 07-6), by word. -/
def State.haltView (s : State) (t : Tid) (w : Nat) : Word :=
  let th := s.thr t
  match w with
  | 0 =>
    let k : Option Nat := match th.run with
      | .waiting (.lock _) => some 0
      | .waiting (.chr _ _) => some 1
      | .waiting _ => some 2
      | _ => none
    wd ((if th.halted then 2 ^ 31 else 0) + (match k with | some n => 2 ^ 30 + n * 2 ^ 28 | none => 0))
  | 1 => match th.run with
    | .waiting (.lock a) => a
    | .waiting (.chr k _) => wd (if k < 1024 then k % 64 else k - 1024 + 64)
    | _ => 0
  | 2 => th.staged.setWidth 32
  | _ => wd (s.locksHeld t)

/-- The channel of a special-window offset below 0x5000. -/
def windowChan (t : Tid) (o : Nat) : Nat := if o < 0x1000 then tidF t * 64 + o / 64 else 1024 + (o - 0x1000) / 64

/-- An aligned word of the special window (Table 03-5); a word the table does not assign reads 0. -/
def State.specialRead (s : State) (t : Tid) (o : Nat) : Word :=
  if o < 0x5000 then s.chanWord (windowChan t o) (o % 64) ((s.thr t).watches.contains (windowChan t o))
  else if 0x8000 ≤ o ∧ o < 0x8800 then s.lockView (tidF t) ((o - 0x8000) / 8) (decide (o % 8 = 4))
  else if 0x8800 ≤ o ∧ o < 0x9000 then s.haltView (BitVec.ofNat 11 (tidF t * 128 + (o - 0x8800) / 16)) (o % 16 / 4)
  else if 0xC000 ≤ o ∧ o < 0xC080 then s.reg (Reg.BLK_MBX_H2D ((o - 0xC000) / 4))
  else if 0xC080 ≤ o ∧ o < 0xC0F8 then s.reg (Reg.BLK_MBX_D2H ((o - 0xC080) / 4))
  else 0

/-- A write of CH_STATUS (Table 07-3): 1 in bit 31 resets the high-water mark. -/
def State.chanStatus (s : State) (k : Nat) (v : Word) : State :=
  if bit v 31 then s.setChan k { s.chan k with hwm := (s.chan k).msgs.length } else s

/-- A store of an aligned word to the special window. -/
def State.specialWrite (s : State) (t : Tid) (o : Nat) (v : Word) : State :=
  if o < 0x5000 then
    let k := windowChan t o
    if o % 64 = 0 then s.chanStatus k v
    else if o % 64 = 4 then
      s.modThr t (fun th => { th with
        watches := if bit v 0 then insNat th.watches k else th.watches.filter (fun j => decide (j ≠ k)) })
    else s
  else if 0xC080 ≤ o ∧ o < 0xC0F8 then s.setReg (Reg.BLK_MBX_D2H ((o - 0xC080) / 4)) v
  else if o = 0xC0F8 then
    if 64 ≤ v.toNat ∧ v.toNat ≤ 511 then s.msix v.toNat else s.bumpF Reg.BLK_MBX_STAT 15 0
  else if o = 0xC0FC then
    ((s.setReg Reg.BLK_MBX_D2HDB v).setRegF Reg.BLK_MBX_STAT 31 31 1).msix 16
  else s

/-! ### Loads and stores -/

/-- Bytes of a load (Table 04-6). -/
def LoadKind.size : LoadKind → Nat
  | .b => 1 | .bs => 1 | .h => 2 | .hs => 2 | .w => 4 | .d => 8

/-- The stack entries a load pushes, top first. -/
def LoadKind.push (k : LoadKind) (bs : List Byte) : List Word :=
  let v := leNat bs
  match k with
  | .b => [wd v]
  | .bs => [(BitVec.ofNat 8 v).signExtend 32]
  | .h => [wd v]
  | .hs => [(BitVec.ofNat 16 v).signExtend 32]
  | .w => [wd v]
  | .d => [wd (v / 2 ^ 32), wd v]

/-- The bytes a thread reads at a checked address, past its store buffer. -/
def State.viewRead (s : State) (t : Tid) (ea : Word) (n : Nat) : List Byte :=
  if viewRange ea.toNat = some .special then leBytes 4 (s.specialRead t (ea.toNat - 0xF000000)).toNat
  else s.bytes (viewDev t ea.toNat) n

/-- Does an entry overlap n bytes at a device address? -/
def StoreEntry.meets (e : StoreEntry) (dev n : Nat) : Bool :=
  decide (e.dev < dev + n) && decide (dev < e.dev + e.bytes.length)

/-- Do the entry's bytes cover n bytes at a device address? -/
def StoreEntry.covers (e : StoreEntry) (dev n : Nat) : Bool :=
  decide (e.dev ≤ dev) && decide (dev + n ≤ e.dev + e.bytes.length)

/-- The youngest entry that overlaps. -/
def youngest (l : List StoreEntry) (dev n : Nat) : Option StoreEntry := l.reverse.find? (fun e => e.meets dev n)

/-- What a load finds in the store buffer (R125): its bytes, or none while it must wait. -/
def State.loadBytes (s : State) (t : Tid) (ea : Word) (n : Nat) : Option (List Byte) :=
  let dev := viewDev t ea.toNat
  match youngest (s.thr t).storeBuf dev n with
  | none => some (s.viewRead t ea n)
  | some e => if e.covers dev n then some (slice e.bytes (dev - e.dev) n) else none

/-- Is a thread-view address in D-RAM or the special window, whose stores pass through the buffer (R123)? -/
def passesBuffer (ea : Word) : Bool :=
  match viewRange ea.toNat with
  | some .dmem => true
  | some .special => true
  | _ => false

/-- Performs a store that may be performed: at once, or as a new store-buffer entry (R123). -/
def State.viewStore (s : State) (t : Tid) (ea : Word) (bs : List Byte) : State :=
  let s :=
    if viewRange ea.toNat = some .special then s.specialWrite t (ea.toNat - 0xF000000) (wd (leNat bs))
    else if viewRange ea.toNat = some .dmem then s.setBytes (viewDev t ea.toNat) bs
    else s.modThr t (fun th => { th with
      storeBuf := th.storeBuf ++ [⟨viewDev t ea.toNat, bs, decide (viewRange ea.toNat = some .common)⟩] })
  s.watch t ea.toNat bs.length true

/-- The cost of a load in slots (Table 04-1): for common memory 3 to 12, a free value in that range. -/
def State.loadCost (s : State) (ea : Word) : Nat × State :=
  match viewRange ea.toNat with
  | some .dmem => (1, s)
  | some .common => let d := s.draw; (3 + d.1.toNat % 10, d.2)
  | _ => (2, s)

/-! ### Emission -/

/-- The emission of n bytes from a by a thread, its checks passed (R99). -/
def State.emitFrom (s : State) (t : Tid) (a n q : Word) (ts : Bool) : State :=
  s.injectFrame (s.bytes (viewDev t a.toNat) n.toNat) q.toNat ts

/-! ### What a waiting instruction does at last -/

/-- The effect of an instruction that waited for its store buffer: the state and what it pushes, top first. -/
def State.performOp (s : State) (t : Tid) (op : PendOp) : State × List Word :=
  match op with
  | .load k ea =>
    let bs := match s.loadBytes t ea k.size with | some b => b | none => s.viewRead t ea k.size
    ((s.watch t ea.toNat k.size false).noteLate t ea.toNat k.size, k.push bs)
  | .store ea bs => (s.viewStore t ea bs, [])
  | .xadd ea x =>
    let dev := viewDev t ea.toNat
    let old := s.word dev
    (((s.setWord dev (old + x)).watch t ea.toNat 4 false).watch t ea.toNat 4 true, [old])
  | .cas ea e n =>
    let dev := viewDev t ea.toNat
    let old := s.word dev
    let s := s.watch t ea.toNat 4 false
    (if old = e then (s.setWord dev n).watch t ea.toNat 4 true else s, [old])
  | .fence => (s, [])
  | .release d ts => let r := s.release t d ts; (r.1, [r.2])
  | .cqs p k => let r := s.submit t k.toNat p.toNat; (r.1, [r.2])
  | .unlock a => let r := s.unlock t a; (r.1, [r.2])
  | .emit a n q ts => (s.emitFrom t a n q ts, [0])

/-- The most slots that a store-buffer wait takes (R124 to R126): a drain of n entries n + 12 with one bound for common memory and else
n + 2, the leaving of overlapped entries 4, a free entry 1. -/
def MemCond.most (c : MemCond) (l : List StoreEntry) : Nat :=
  match c with
  | .drain => if l.isEmpty then 0 else l.length + (if l.any (fun e => e.common) then 12 else 2)
  | .clear _ _ => 4
  | .room => 1

/-- A draining instruction of `len` halfwords that has popped its operands: it performs at once on an empty store buffer, and
otherwise waits for the drain (R126). -/
def State.drainOp (s : State) (t : Tid) (len need cost : Nat) (op : PendOp) : Res :=
  if (s.thr t).storeBuf.isEmpty then
    let r := s.performOp t op
    .next (r.1.modThr t (fun th => { th with stack := r.2 ++ th.stack.drop need })) cost
  else
    .own ((s.modThr t (fun th => { th with
      run := .waiting (.mem .drain op), popped := th.stack.take need, stack := th.stack.drop need, waitLen := len
      waitMost := MemCond.drain.most th.storeBuf })).charge t cost)

/-- Like `drainOp` for a wait with condition c. -/
def State.memWait (s : State) (t : Tid) (len need cost : Nat) (c : MemCond) (op : PendOp) : Res :=
  .own ((s.modThr t (fun th => { th with
    run := .waiting (.mem c op), popped := th.stack.take need, stack := th.stack.drop need, waitLen := len
    waitMost := c.most th.storeBuf })).charge t cost)

/-- The object of a LOCK or CHR wait for the deadlock detector: twice a lock word's device address, or twice a channel's key plus 1. -/
def waitObject (t : Tid) (w : Wait) : Option Nat :=
  match w with
  | .lock a => some (2 * viewDev (mkTid (tidF t) 0 0) a.toNat)
  | .chr k _ => some (2 * k + 1)
  | _ => none

/-- Notes for the deadlock detector what a thread of its frond waits on in the tick in progress (R199). -/
def State.noteWait (s : State) (t : Tid) (w : Wait) : State :=
  match waitObject t w with
  | some o => s.modFrond (tidF t) (fun fr => { fr with waited := (t, o) :: fr.waited })
  | none => s

/-- A thread begins a wait of the given kind with `need` operands popped (R133). -/
def State.beginWait (s : State) (t : Tid) (len need cost : Nat) (w : Wait) : Res :=
  .own (((s.noteWait t w).modThr t (fun th => { th with
    run := .waiting w, popped := th.stack.take need, stack := th.stack.drop need, waitLen := len
    waitMost := 0xFFFFFFFF })).charge t cost)

/-- Is the condition of a store-buffer wait met? -/
def MemCond.met (c : MemCond) (l : List StoreEntry) : Bool :=
  match c with
  | .drain => l.isEmpty
  | .room => decide (l.length < 4)
  | .clear dev n => match youngest l dev n with
    | none => true
    | some e => e.covers dev n

/-- A store-buffer wait whose condition is met ends: the instruction performs and the thread goes on. -/
def State.endMemWait (s : State) (t : Tid) : State :=
  let th := s.thr t
  match th.run with
  | .waiting (.mem c op) =>
    if c.met th.storeBuf then
      let r := s.performOp t op
      r.1.finishWait t r.2
    else s
  | _ => s

end Sys2Proof.Machine
end

