-- ==== Sys2Proof/Machine/SyncOps.lean ====
section
/-! DEFINITION. Locks, channels and tasks (R105 to R107, R175, R176, R181, R189 to R193, Table 04-10). -/

namespace Sys2Proof.Machine

/-- A lock instruction ( a -- s ): encoding, stack and lock-word checks (R105). -/
def State.lockOp (s : State) (t : Tid) (a : Byte) (f : Word → Res) : Res :=
  if a ≠ 0 then .fault .illegal
  else s.stackOp t 1 1 (fun l => if lockAddrOk (nth 0 l 0) then f (nth 0 l 0) else .fault .access (nth 0 l 0))

/-- LOCK ( a -- s ): granted, refused, or a wait with inheritance (R175, R178). -/
def execLock (t : Tid) (a : Byte) (s : State) : Host.Outcome State Fault Refusal :=
  done (s.issue t 1 (fun s => s.lockOp t a (fun w =>
    let r := s.requestLock t w false
    match r.2 with
    | .status st => .next (r.1.setTop t 1 [st]) 2
    | .wait => (r.1.waitLock t w).beginWait t 1 1 2 (.lock w))))

/-- TRYLOCK ( a -- s ): as LOCK, with BUSY in place of waiting. -/
def execTrylock (t : Tid) (a : Byte) (s : State) : Host.Outcome State Fault Refusal :=
  done (s.issue t 1 (fun s => s.lockOp t a (fun w =>
    let r := s.requestLock t w true
    match r.2 with
    | .status st => .next (r.1.setTop t 1 [st]) 2
    | .wait => .next (r.1.setTop t 1 [6]) 2)))

/-- UNLOCK ( a -- s ): drains, then releases or passes the lock (R176). -/
def execUnlock (t : Tid) (a : Byte) (s : State) : Host.Outcome State Fault Refusal :=
  done (s.issue t 1 (fun s => s.lockOp t a (fun w => s.drainOp t 1 1 2 (.unlock w))))

/-- CHW w ( x -- ): writes staging word w. -/
def execChw (t : Tid) (a : Byte) (s : State) : Host.Outcome State Fault Refusal :=
  done (s.issue t 1 (fun s =>
    if 16 ≤ a.toNat then .fault .illegal
    else s.stackOp t 1 0 (fun l =>
      .next ((s.setTop t 1 []).modThr t (fun th => { th with
        staging := if h : a.toNat < 16 then th.staging.set a.toNat (nth 0 l 0) else th.staging
        staged := th.staged ||| (1#16 <<< a.toNat) })))))

/-- The message a thread has staged: words 0 to the highest one written; none when nothing is staged (R106). -/
def Thread.stagedMsg (th : Thread) : Option (List Word) :=
  match (upTo 16).reverse.find? (fun i => th.staged.getLsbD i) with
  | some m => some (th.staging.toList.take (m + 1))
  | none => none

/-- The staging buffer emptied (R182). -/
def Thread.clearStaging (th : Thread) : Thread := { th with staging := Vector.replicate 16 0, staged := 0 }

/-- CHS ( c -- s ): commits the staged message: OK, FULL or RANGE. -/
def execChs (t : Tid) (a : Byte) (s : State) : Host.Outcome State Fault Refusal :=
  done (s.issue t 1 (fun s =>
    if a ≠ 0 then .fault .illegal
    else s.stackOp t 1 1 (fun l =>
      match chanKey (tidF t) (nth 0 l 0), (s.thr t).stagedMsg with
      | some k, some m =>
        let r := s.commitMsg k m
        if r.2 then .next ((r.1.modThr t Thread.clearStaging).setTop t 1 [0]) 2
        else .next ((r.1.countFull k).setTop t 1 [2]) 2
      | _, _ => .next (s.setTop t 1 [10]) 2)))

/-- The cost of a CHR (Table 04-10). -/
def chrCost (ea : Word) : Nat := if viewRange ea.toNat = some .common then 16 else 4

/-- CHR ( c a -- n s ): receives the oldest message of a channel at a + disp, or waits (R106, R182). DESIGN CHOICE (log entry 40): n is 0
beside RANGE. -/
def execChr (t : Tid) (f : Form) (s : State) : Host.Outcome State Fault Refusal :=
  done (s.issue t (formLen f) (fun s =>
    if !formLegal f then .fault .illegal
    else s.stackOp t 2 2 (fun l =>
      let ea := nth 0 l 0 + formDisp f 4
      match chanKey (tidF t) (nth 0 l 1) with
      | none => .next (s.setTop t 2 [10, 0]) 4
      | some k =>
        let ch := s.chan k
        match ch.msgs with
        | m :: rest =>
          if destOk t ea (4 * m.length) then
            let s := s.setChan k { ch with msgs := rest, recv := ch.recv + 1 }
            .next ((s.copyMsg t ea m).setTop t 2 [0, wd (4 * m.length)]) (chrCost ea)
          else .fault .access ea
        | [] => (s.setChan k { ch with readers := ch.readers ++ [t] }).beginWait t (formLen f) 2 (chrCost ea) (.chr k ea))))

/-- TREADY ( id -- s ): activates a task of the thread's frond (R189). -/
def execTready (t : Tid) (a : Byte) (s : State) : Host.Outcome State Fault Refusal :=
  done (s.issue t 1 (fun s =>
    if a ≠ 0 then .fault .illegal
    else s.stackOp t 1 1 (fun l =>
      let id := (nth 0 l 0).toNat
      if 1023 < id then .next (s.setTop t 1 [10]) 2
      else let r := s.tready (tidF t) id; .next (r.1.setTop t 1 [r.2]) 2)))

/-- Is the thread allowed to switch tasks here (R107, R193): role TASK, call depth 0, and no handler but, for TYIELD, that of
event 13? -/
def Thread.mayswitch (th : Thread) (yield : Bool) : Bool :=
  decide (th.role = .task) && th.task.isSome && th.faultFrame.isNone && decide (th.callDepth = 0)
    && (match th.handler with
        | none => true
        | some n => yield && decide (n = 13))

/-- The thread lets its task go: no task, no handler. -/
def Thread.letGo (th : Thread) : Thread :=
  { th with task := none, run := .free, handler := none, frame := none, repc := 0, repact := false, loops := [], callDepth := 0 }

/-- Is an eligible task at least as urgent as p READY for the thread (R192)? -/
def State.yieldsTo (s : State) (t : Tid) (p : Nat) : Bool :=
  (s.readyFor t).any (fun e => decide (p ≤ (s.task (tidF t) e.2).eff))

/-- TYIELD of task `id`, which goes on at `pc` with the given loop and repeat state: it changes places with a ready task, or
goes on (R192). -/
def State.yieldTask (s : State) (t : Tid) (id : Nat) (pc : Pc) (loops : List Loop) (repc : Nat) (repact : Bool) (cost : Nat := 0) :
    Option State :=
  let f := tidF t
  let k := s.task f id
  if !s.yieldsTo t k.eff then none
  else if !s.levelRoom f (prioLevel k.eff) then none
  else
    let k' := s.saveTask t id pc loops repc repact
    let s := s.enqueue f id k'
    let s := s.modThr t Thread.letGo
    some (((s.charge t (40 + cost)).dispatchTask t).preempt f k'.eff)

/-- A TYIELD refused for want of room in its own level counts in FRD_TSK_REFUSED. -/
def State.yieldRefused (s : State) (t : Tid) (id : Nat) : State :=
  let f := tidF t
  let k := s.task f id
  if s.yieldsTo t k.eff then s.bump (Reg.FRD_TSK_REFUSED f (prioLevel k.eff)) else s

/-- TYIELD ( -- ) (R192, R193). -/
def execTyield (t : Tid) (a : Byte) (s : State) : Host.Outcome State Fault Refusal :=
  done (s.issue t 1 (fun s =>
    let th := s.thr t
    if a ≠ 0 ∨ !th.mayswitch true then .fault .illegal
    else match th.task with
      | none => .fault .illegal
      | some id =>
        match th.frame with
        | some fr =>
          if th.stack.length ≠ fr.depth then .fault .evretDepth
          else match s.yieldTask t id fr.pc fr.loops fr.repc fr.repact with
            | some s => .own (s.boundary t)
            | none => .next (s.yieldRefused t id)
        | none =>
          let n := th.goSeq (th.pc.toNat + 1)
          match s.yieldTask t id n.pc n.loops 0 false (th.seqCost (th.pc.toNat + 1)) with
          | some s => .own (s.boundary t)
          | none => .next (s.yieldRefused t id)))

/-- TSLEEP ( -- s ): sleeps until a TREADY or a boundary, or pushes OK when WAKE is set (R192). -/
def execTsleep (t : Tid) (a : Byte) (s : State) : Host.Outcome State Fault Refusal :=
  done (s.issue t 1 (fun s =>
    let th := s.thr t
    if a ≠ 0 ∨ !th.mayswitch false then .fault .illegal
    else match th.task with
      | none => .fault .illegal
      | some id => s.stackOp t 0 1 (fun _ =>
        let f := tidF t
        let k := s.task f id
        if k.wake then .next ((s.setTask f id { k with wake := false }).setTop t 0 [0]) 40
        else
          let n := th.goSeq (th.pc.toNat + 1)
          let k' := s.saveTask t id n.pc n.loops 0 false
          let s := s.setTask f id { k' with state := .sleeping, wakeStatus := none, tout := false }
          .own ((((s.modThr t Thread.letGo).charge t (40 + th.seqCost (th.pc.toNat + 1))).dispatchTask t).boundary t))))

/-- TASK_DISPATCH: a free TASK thread takes the best eligible ready task (R190). -/
def execTaskDispatch (t : Tid) (s : State) : Host.Outcome State Fault Refusal :=
  let th := s.thr t
  if th.run = .free ∧ th.role = .task ∧ !th.halted ∧ s.mode.threadsRun ∧ !(s.frond (tidF t)).fenced ∧ !(s.core (coreKey t)).fenced
  then done (s.dispatchTask t) else done s

end Sys2Proof.Machine
end

