-- ==== Sys2Proof/Machine/SystemOps.lean ====
section
/-! DEFINITION. System instructions and special registers (R61, R108, R109), and the events of a thread (R37, R38, R132, R135,
R164). -/

namespace Sys2Proof.Machine

/-- The 32-bit value of STATUS (Table 03-6). -/
def State.status (s : State) (t : Tid) : Nat :=
  let th := s.thr t
  let late := match th.curSpore.bind (fun i => s.spore i) with
    | some x => decide (x.deadline ≠ 0) && decide (x.deadline ≤ s.tb.now)
    | none => false
  let num := if th.faultFrame.isSome then 0 else th.handler.getD 0
  (if (s.core (coreKey t)).elastic then 2 ^ 18 else 0) + (if late then 2 ^ 17 else 0) + num * 2 ^ 13
    + (if th.inHandler then 2 ^ 12 else 0) + (if th.repact then 2 ^ 11 else 0) + th.loops.length * 2 ^ 9
    + th.callDepth * 2 ^ 5 + th.stack.length

/-- The iterations left of loop level k, 0 the outer. -/
def Thread.loopLeft (th : Thread) (k : Nat) : Nat :=
  match th.loops.reverse[k]? with
  | some l => l.left
  | none => 0

/-- The value of SPOREP. -/
def State.sporep (s : State) (t : Tid) : Nat :=
  let th := s.thr t
  let next := match th.cur with
    | some b => (th.slotSpore (!b)).isSome
    | none => th.spore0.isSome || th.spore1.isSome
  (if next then 2 ^ 17 else 0) + (match th.cur with | some b => 2 ^ 16 + slotOff t b | none => 0)

/-- The value of CQFREE. -/
def State.cqfree (s : State) (t : Tid) : Nat :=
  s.nfree t * 2 ^ 16 + (((upTo 16).filter (fun i => decide ((s.thr t).tag i = .free))).map (fun i => 2 ^ i)).foldl (· + ·) 0

/-- The deadline of the current spore; 0 when none is held. -/
def State.curDeadline (s : State) (t : Tid) : DWord :=
  match (s.thr t).curSpore.bind (fun i => s.spore i) with
  | some x => x.deadline
  | none => 0

/-- The code of a role. -/
def Role.code : Role → Nat
  | .idle => 0
  | .packet => 1
  | .task => 2

/-- The words RDSR pushes for a special register, top first; none for a number Table 03-6 does not name. -/
def State.srRead (s : State) (t : Tid) (sr : Nat) : Option (List Word) :=
  let th := s.thr t
  match sr with
  | 0x00 => some [wd (t.toNat + (s.cn.addr.getD 0).toNat * 2 ^ 11)]
  | 0x01 => some [wd ((if th.cur.isSome then th.curEp * 2 ^ 8 else 0) + (if th.pinned then 8 else 0)
      + (if t.toNat % 128 = 0 ∧ th.role = .task then 4 else 0) + th.role.code)]
  | 0x02 => some [th.evbase]
  | 0x03 => some [th.evmask.setWidth 32]
  | 0x04 => some [th.evpend.setWidth 32]
  | 0x05 => some [wd (s.status t)]
  | 0x06 => some [wd (th.loopLeft 0)]
  | 0x07 => some [wd (th.loopLeft 1)]
  | 0x08 => some [wd th.repc]
  | 0x09 => some [wd (satAdd 0xFFFFFFFF th.slots 1)]
  | 0x0A => some [th.budget]
  | 0x0B => some [wd (s.sporep t)]
  | 0x0C => some [wd (s.cqfree t)]
  | 0x0D => some [hi32 (s.curDeadline t), lo32 (s.curDeadline t)]
  | 0x0E => some [hi32 th.timer, lo32 th.timer]
  | _ => none

/-- RDSR sr: pushes a special register (R61). -/
def execRdsr (t : Tid) (a : Byte) (s : State) : Host.Outcome State Fault Refusal :=
  done (s.issue t 1 (fun s =>
    match s.srRead t a.toNat with
    | none => .fault .illegal
    | some ws => s.stackOp t 0 ws.length (fun _ => .next (s.setTop t 0 ws))))

/-- A TIMER already reached raises event 3 and clears (R61, R109). -/
def State.timerCheck (s : State) (t : Tid) : State :=
  let th := s.thr t
  if th.timer ≠ 0 ∧ th.timer ≤ s.tb.now then (s.modThr t (fun th => { th with timer := 0 })).pend t 3 else s

/-- Writes a 32-bit special register that the thread's role may write (R61); none where Table 03-6 refuses it. -/
def Thread.srWrite (th : Thread) (sr : Nat) (v : Word) : Option Thread :=
  match sr with
  | 0x02 => some { th with evbase := v &&& 0x3FE0 }
  | 0x03 => some { th with evmask := v.truncate 16 ||| 1 }
  | 0x04 => some { th with evpend := th.evpend &&& ~~~(v.truncate 16 : Half) }
  | 0x0A => if th.role = .task then some { th with budget := v } else none
  | _ => none

/-- WRSR sr: writes a special register (R61). -/
def execWrsr (t : Tid) (a : Byte) (s : State) : Host.Outcome State Fault Refusal :=
  done (s.issue t 1 (fun s =>
    if a.toNat = 0x0E then s.stackOp t 2 0 (fun l =>
      .next (((s.setTop t 2 []).modThr t (fun th => { th with timer := pair (nth 0 l 1) (nth 0 l 0) })).timerCheck t))
    else match (s.thr t).srWrite a.toNat 0 with
      | none => .fault .illegal
      | some _ => s.stackOp t 1 0 (fun l =>
        .next ((s.setTop t 1 []).modThr t (fun th => (th.srWrite a.toNat (nth 0 l 0)).getD th)))))

/-- TIME64 ( -- lo hi ): the time base. -/
def execTime64 (t : Tid) (a : Byte) (s : State) : Host.Outcome State Fault Refusal :=
  done (s.issue t 1 (fun s => s.compute t (decide (a = 0)) 0 2 (fun _ => [hi32 s.tb.now, lo32 s.tb.now])))

/-- TICKNO ( -- lo hi ): the 48-bit tick number. -/
def execTickno (t : Tid) (a : Byte) (s : State) : Host.Outcome State Fault Refusal :=
  done (s.issue t 1 (fun s => s.compute t (decide (a = 0)) 0 2 (fun _ =>
    [wd (s.tick / 2 ^ 32), s.tick32])))

/-! ### Events -/

/-- May the thread take an event at its boundary now: it runs, or is idle after a PACKET run (R93, R132)? -/
def State.mayTakeEvent (s : State) (t : Tid) : Bool :=
  let th := s.thr t
  s.mode.threadsRun && !th.halted && !th.haltReq && !th.inHandler && !(s.core (coreKey t)).fenced && !(s.frond (tidF t)).fenced
    && (decide (th.run = .running) && decide (th.role ≠ .idle) || decide (th.run = .idle) && decide (th.role = .packet))

/-- Does a breakpoint halt a running thread at its boundary, before any event there (R498)? -/
def State.breaksFirst (s : State) (t : Tid) : Bool := decide ((s.thr t).run = .running) && s.breakHere t

/-- EVENT_ENTRY: the thread enters the handler of the lowest pending enabled event (R132, R135); a breakpoint's halt at the same boundary
is taken first (R498). -/
def execEventEntry (t : Tid) (s : State) : Host.Outcome State Fault Refusal :=
  match (s.thr t).pendingEvent with
  | some n =>
    if !s.mayTakeEvent t then done s
    else if s.breaksFirst t then done (s.halt t 2)
    else done ((s.enterEvent t n).boundary t)
  | none => done s

/-- Do the budget checks apply to the thread now: a spore or a task runs on it, it is not halted, and BUDGET is not 0 (R164,
R165, R495)? -/
def State.budgetOn (s : State) (t : Tid) : Bool :=
  let th := s.thr t
  decide (th.budget ≠ 0) && !th.halted && s.mode.threadsRun && decide (th.role ≠ .idle)
    && decide (th.run ≠ .idle) && decide (th.run ≠ .free)

/-- The entry point a budget record names: that of the spore the thread last began, 0 for a TASK thread. -/
def Thread.budgetEp (th : Thread) : Nat := if th.role = .packet then th.curEp else 0

/-- SLOTS first exceeds BUDGET: event 1 pends and a RAS event is logged, once (R164). -/
def State.budgetOver (s : State) (t : Tid) : State :=
  let th := s.thr t
  if th.budgetHit then s
  else
    let s := s.modThr t (fun th => { th with slots := max th.slots (th.budget.toNat + 1), budgetHit := true })
    (s.pend t 1).rasEvent 2 (t.setWidth 32) (wd th.budgetEp) 1

/-- BUDGET: SLOTS first exceeds BUDGET (R164). -/
def execBudget (t : Tid) (s : State) : Host.Outcome State Fault Refusal :=
  if s.budgetOn t then done (s.budgetOver t) else done s

/-- BUDGET_HARD: SLOTS reaches twice BUDGET and the thread takes FAULT at its boundary (R164). -/
def execBudgetHard (t : Tid) (s : State) : Host.Outcome State Fault Refusal :=
  let th := s.thr t
  if s.budgetOn t ∧ !th.hardHit ∧ th.run = .running then
    let s := s.budgetOver t
    let s := s.modThr t (fun th => { th with slots := max th.slots (2 * th.budget.toNat), hardHit := true })
    done ((s.rasEvent 2 (t.setWidth 32) (wd (th.budgetEp + 256)) 1).takeFault t .budgetHard 0)
  else done s

/-- TIMER: the time base reaches TIMER; event 3 is raised once and TIMER clears (R61). -/
def execTimer (t : Tid) (s : State) : Host.Outcome State Fault Refusal :=
  let th := s.thr t
  if th.timer = 0 then done s else done ((s.advanceTo th.timer).timerCheck t)

/-- The instant at which 75 % of a spore's period has elapsed since its arrival (R37). -/
def Spore.warnAt (x : Spore) : DWord :=
  let arrival := pair (x.w 4) (x.w 5)
  BitVec.ofNat 64 (arrival.toNat + (x.deadline.toNat - arrival.toNat) * 3 / 4)

/-- DEADLINE: 75 % of the current spore's period has elapsed and event 10 is raised (R37). -/
def execDeadline (t : Tid) (s : State) : Host.Outcome State Fault Refusal :=
  let th := s.thr t
  match th.curSpore.bind (fun i => s.spore i) with
  | some x =>
    if x.deadline = 0 ∨ th.deadlineHit then done s
    else done (((s.advanceTo x.warnAt).modThr t (fun th => { th with deadlineHit := true })).pend t 10)
  | none => done s

/-- LATE: a CONTROL spore unreleased at its deadline is discarded and counted; its domain goes on (R38). -/
def execLate (i : Nat) (s : State) : Host.Outcome State Fault Refusal :=
  match s.spore i with
  | some x =>
    let open_ : Bool := match x.stands with | .released _ _ _ _ => false | .slow => false | _ => true
    if x.family = 0 ∧ !x.dead ∧ x.deadline ≠ 0 ∧ open_ then done (((s.advanceTo x.deadline).dueDiscard i).retryHeld) else done s
  | none => done s

end Sys2Proof.Machine
end

