-- ==== Sys2Proof/Machine/Debug.lean ====
section
/-! DEFINITION. Debug access and telemetry control (R493 to R503), and the end of a wait before its cause (R197, R198, R201). -/

namespace Sys2Proof.Machine

/-! ### Ownership (R493, R494) -/

/-- The code of a party in DBG_LOCK. -/
def partyCode (p : Party) : Nat := match p with | .host => 1 | .jtag => 2 | .service => 3

/-- Does a party own the debug lock? -/
def State.ownsDebug (s : State) (p : Party) : Bool := decide (s.regF Reg.DBG_LOCK 9 8 = partyCode p)

/-- Is the party a JTAG port whose DBGOFF fuse is blown (R494)? -/
def State.jtagShut (s : State) (p : Party) : Bool := decide (p = .jtag) && s.fuses.jtagOff

/-- A write that needs the debug lock: ignored and logged for a party that does not own it (R493). -/
def State.withDebug (s : State) (p : Party) (off : Nat) (v : Word) (f : State → State) : State :=
  if s.ownsDebug p then f s else if s.jtagShut p then s else s.violate 9 off v

/-- A write of DBG_LOCK (R493): the writer's own code takes a free lock, 0 frees its own. -/
def State.dbgLock (s : State) (p : Party) (v : Word) : State :=
  let owner := s.regF Reg.DBG_LOCK 9 8
  let req := fld v 1 0
  if req = partyCode p ∧ owner = 0 then s.setReg Reg.DBG_LOCK (wd (req * 257))
  else if req = 0 ∧ owner = partyCode p then s.setReg Reg.DBG_LOCK 0
  else s

/-- DBG_LOCK: takes or frees the debug lock. -/
def execDbgLock (p : Party) (v : Word) (s : State) : Host.Outcome State Fault Refusal :=
  done (if s.jtagShut p then s else s.dbgLock p v)

/-- JTAG_TRST_N (R494): a TCK-domain reset frees a lock held by JTAG. -/
def execJtagTrstN (s : State) : Host.Outcome State Fault Refusal :=
  done (if s.ownsDebug .jtag then s.setReg Reg.DBG_LOCK 0 else s)

/-! ### The end of a wait before its cause -/

/-- Ends a waiting thread's wait with TIMEOUT; a WAIT pushes EVPEND AND mask, with bit 2 when its mask names event 2 and `tick`
tells that a boundary ends it (R92, R197, R198). -/
def State.endWait (s : State) (t : Tid) (tick : Bool) : State :=
  let th := s.thr t
  match th.run with
  | .waiting (.event m) =>
    let x := (th.evpend &&& m).setWidth 32
    s.finishWait t [if tick ∧ m.getLsbD 2 then x ||| 4 else x]
  | .waiting (.cq _) => s.finishWait t [1]
  | .waiting (.lock _) => (s.withdrawLock t).finishWait t [1]
  | .waiting (.chr _ _) => (s.dropReader t).finishWait t [1, 0]
  | _ => s

/-! ### Halting and stepping (R495 to R498) -/

/-- HALT of a thread: a waiting instruction ends first; an access or a drain in progress completes first. -/
def State.haltThread (s : State) (t : Tid) : State :=
  let th := s.thr t
  if th.halted then s
  else match th.run with
    | .waiting (.mem _ _) => s.modThr t (fun th => { th with haltReq := true, haltReason := 1 })
    | .waiting _ => (s.modThr t (fun th => { th with haltReq := true, haltReason := 1 })).endWait t false
    | _ => s.halt t 1

/-- STEP of a halted thread. -/
def State.stepThread (s : State) (t : Tid) : State :=
  if (s.thr t).halted then (s.unhalt t).modThr t (fun th => { th with stepping := true, skipBp := true }) else s

/-- RESUME of a halted thread. -/
def State.resumeHalted (s : State) (t : Tid) : State := if (s.thr t).halted then s.unhalt t else s

/-- DISCARD: empties the staging buffer of a halted thread; otherwise ignored and logged. -/
def State.discardStaging (s : State) (t : Tid) : State :=
  if (s.thr t).halted then s.modThr t Thread.clearStaging else s.refuse Reg.DBG_TCMD 5

/-- The thread that DBG_TSEL selects. -/
def State.dbgThread (s : State) : Tid := (s.reg Reg.DBG_TSEL).truncate 11

/-- A write of DBG_TCMD. -/
def State.dbgCmd (s : State) (p : Party) (v : Word) : State :=
  let c := fld v 2 0
  s.withDebug p Reg.DBG_TCMD v (fun s =>
    let t := s.dbgThread
    let s := s.wakeFrond (tidF t)
    if c = 1 then s.haltThread t
    else if c = 2 then s.resumeHalted t
    else if c = 3 then s.stepThread t
    else if c = 4 then s.pend t 9
    else if c = 5 then s.discardStaging t
    else s)

/-- HALT (R495): DBG_TCMD with command 1. -/
def execHalt (p : Party) (merged : Bool) (s : State) : Host.Outcome State Fault Refusal :=
  done ((s.dbgCmd p 1).cdcMerged 2 merged)
/-- RESUME_THREAD (R496): DBG_TCMD with command 2. -/
def execResumeThread (p : Party) (merged : Bool) (s : State) : Host.Outcome State Fault Refusal :=
  done ((s.dbgCmd p 2).cdcMerged 2 merged)
/-- STEP (R496): DBG_TCMD with command 3. -/
def execStep (p : Party) (merged : Bool) (s : State) : Host.Outcome State Fault Refusal :=
  done ((s.dbgCmd p 3).cdcMerged 2 merged)
/-- POST (R496): DBG_TCMD with command 4. -/
def execPost (p : Party) (merged : Bool) (s : State) : Host.Outcome State Fault Refusal :=
  done ((s.dbgCmd p 4).cdcMerged 2 merged)
/-- DISCARD (R496): DBG_TCMD with command 5. -/
def execDiscard (p : Party) (merged : Bool) (s : State) : Host.Outcome State Fault Refusal :=
  done ((s.dbgCmd p 5).cdcMerged 2 merged)

/-- DBG_TSTAT as read. -/
def State.dbgTstat (s : State) : Word :=
  let th := s.thr s.dbgThread
  wd ((if th.halted then 2 ^ 31 else 0) + (if th.dbgChanged then 2 ^ 30 else 0) + (if th.halted then th.haltReason * 2 ^ 27 else 0)
    + th.trapCode.toNat * 2 ^ 16 + (if th.bank then 2 ^ 13 else 0) + th.pc.toNat)

/-- DBG_STATUS as read. -/
def State.dbgStatus (s : State) : Word :=
  wd ((if s.fuses.jtagOff then 2 ^ 31 else 0) + (s.threads.filter (fun e => e.2.halted)).length)

/-! ### Thread state (R499, Table 22-1) -/

/-- The state of a halted thread at an index. -/
def State.tregRead (s : State) (t : Tid) (i : Nat) : Word :=
  let th := s.thr t
  if !th.halted then 0
  else if i < 16 then nth 0 th.stack.reverse i
  else if i < 32 then th.locals.toList.getD (i - 16) 0
  else if i = 0x20 then wd (th.pc.toNat + (if th.bank then 2 ^ 13 else 0))
  else if 0x40 ≤ i ∧ i < 0x50 then
    match s.srRead t (i - 0x40) with
    | some [x] => x
    | some [_, lo] => lo
    | _ => 0
  else if 0x50 ≤ i ∧ i < 0x60 then
    match s.srRead t (i - 0x50) with
    | some [hi, _] => hi
    | _ => 0
  else 0

/-- The thread after a debugger's write at an index; none where the access column allows no write. -/
def Thread.tregWrite (th : Thread) (i : Nat) (v : Word) : Option Thread :=
  let n := th.stack.length
  if i < 16 then (if i < n then some { th with stack := th.stack.set (n - 1 - i) v } else none)
  else if h : 16 ≤ i ∧ i < 32 then some { th with locals := th.locals.set (i - 16) v (by omega) }
  else if i = 0x20 then some { th with pc := v.truncate 13, skipBp := false }
  else if i = 0x4E then some { th with timer := pair v (hi32 th.timer) }
  else if i = 0x5E then some { th with timer := pair (lo32 th.timer) v }
  else if 0x40 ≤ i ∧ i < 0x50 then th.srWrite (i - 0x40) v
  else none

/-- A write of DBG_TREG_DATA (R499). -/
def State.tregData (s : State) (p : Party) (v : Word) : State :=
  s.withDebug p Reg.DBG_TREG_DATA v (fun s =>
    let t := s.dbgThread
    let th := s.thr t
    if !th.halted then s.refuse Reg.DBG_TREG_DATA v
    else match th.tregWrite (s.regF Reg.DBG_TREG_IDX 7 0) v with
      | some th => (s.setThr t { th with dbgChanged := true }).timerCheck t
      | none => s)

/-- DBG_TREG_DATA: writes a halted thread's state. -/
def execDbgTregData (p : Party) (v : Word) (s : State) : Host.Outcome State Fault Refusal := done (s.tregData p v)

/-! ### Breakpoints and watchpoints (R497) -/

/-- The core that DBG_CSEL selects. -/
def State.dbgCore (s : State) : Nat := s.regF Reg.DBG_CSEL 7 0

/-- A write of a breakpoint or watchpoint word of the selected core; `mask` holds its writable bits. -/
def State.dbgPoint (s : State) (p : Party) (off w : Nat) (mask v : Word) : State :=
  s.withDebug p off v (fun s => s.setRec .dbg s.dbgCore w (v &&& mask))

/-- A write of DBG_TCTL. -/
def State.dbgTctl (s : State) (p : Party) (v : Word) : State :=
  s.withDebug p Reg.DBG_TCTL v (fun s => s.modThr s.dbgThread (fun th => { th with tctl := fld v 2 0 }))

/-! ### Forced release, counters, telemetry (R501 to R503) -/

/-- A write of DBG_LKREL_CTL: with GO the release of R501. -/
def State.lkrelCtl (s : State) (p : Party) (v : Word) : State :=
  if !bit v 31 then s.setReg Reg.DBG_LKREL_CTL (setFld (s.reg Reg.DBG_LKREL_CTL) 3 0 (fld v 3 0))
  else s.withDebug p Reg.DBG_LKREL_CTL v (fun s =>
    let f := fld v 3 0
    let a := s.reg Reg.DBG_LKREL
    let st (s : State) (n : Nat) : State := s.setReg Reg.DBG_LKREL_CTL (wd (n * 2 ^ 28 + f))
    match s.lockEntry f a with
    | none => st s 1
    | some e => if (s.thr e.holder).halted then st (s.abandonLock f a) 0 else st s 2)

/-- DBG_LKREL (R501): the debugger writes the lock word's address, and then DBG_LKREL_CTL. -/
def execDbgLkrel (p : Party) (addr ctl : Word) (s : State) : Host.Outcome State Fault Refusal :=
  done ((s.setReg Reg.DBG_LKREL addr).lkrelCtl p ctl)

/-- The fields that the register descriptions call saturating counters: register, mask. -/
def satFields : List (String × Nat) :=
  let w : Nat := 0xFFFFFFFF
  [("TICK_OVR_COUNT", w), ("TICK_STRAY", w), ("TICK_LATE_COUNT", w), ("PTP_TXTS_LOST", w), ("CORE_FAULT_CNT", w),
    ("CORE_DFAULT_CNT", w), ("FRD_LCK_FULLCNT", w), ("FRD_LCK_ABNDCNT", w), ("FRD_LCK_INHCNT", w), ("MGT_DLCK_FULLCNT", w),
    ("MGT_DLCK_ABNDCNT", w), ("FRD_TSK_REFUSED", w), ("FRD_TSK_EVENTS", w), ("FRD_DL_COUNT", w), ("FRD_CQ_FULL", w),
    ("FRD_CQ_ORPHAN", 0xFFFFFE00), ("FRD_CQ_LATE", w), ("FRD_CQ_EXPIRED", w), ("PRS_RSN_CNT", w), ("CLS_NOMATCH", w)] ++
  [("DSP_REDIRECT", w), ("DSP_TRUNC", w), ("DSP_ABORTDROP", w), ("DSP_WINHOLD", w), ("SWC_PUSHOUT", w), ("SWC_MC_EXPIRED", w),
    ("SWC_MC_RESHOLD", w), ("SWC_MIR_DROP_FULL", w), ("SWC_MIR_DROP_RATE", w), ("SWC_RXF_OVR", w), ("BPM_EMPTY", w),
    ("BPM_FAILCNT", w), ("PORT_RXERR", w), ("PORT_TXERR", w), ("PORT_PAUSECNT", w), ("TBL_NRH_CNT", w), ("TBL_LRN_DROP", w),
    ("CTL_UNADMITTED", w), ("CTL_FPT_DROP", w), ("CTL_LOG_LOST", w)] ++
  [("SIG_HV_CNT", w), ("SIG_VOTE_DISC", w), ("SIG_VOTE_CHFULL", w), ("SIG_PUB_SKIPPED", w), ("SIG_PUB_STALE", w),
    ("SIG_SVC_CNT", w), ("PEAT_DROP", w), ("PEAT_SKIP", w), ("PEAT_TRP_CNT", w), ("DRC_SCRUB", 0xFFFF0000), ("DRC_CNT_PANIC", w),
    ("DRC_CNT_POSTPONE", w), ("DRC_CNT_INSERT", w), ("DRC_CNT_RETIREDACC", w), ("DRC_CH_STATUS", 0xFF0000), ("DRC_CH_CE", w),
    ("DRC_CH_UE", w), ("DRC_CH_RECOVERED", w), ("CHK_CH_MISCNT", w), ("CHK_MLOG_LOST", w)] ++
  [("BLK_STATUS", 0xFF0000), ("BLK_VIOL_CNT", w), ("BLK_RNG_LOST", w), ("BLK_MBX_STAT", 0xFFFF), ("CHN_CNT_RECOVERED", w),
    ("CHN_CNT_EXHAUSTED", w), ("CHN_CNT_TIMEOUT", w), ("CHN_CNT_LATECOMP", w), ("CHN_CNT_BADADDR", w), ("CHN_CNT_TICKBAD", w),
    ("CHN_CNT_BREAKS", w), ("MGT_KEEP_STAT", 0xF000), ("MGT_RST_CAUSE", 0xFFFF0000), ("MGT_DRAIN_DROP", w), ("MGT_DPR_DROP", w),
    ("CLK_CDC_OVRCNT", w), ("CLK_WAKECNT", w), ("RAS_LOGLOST", w), ("RAS_ABORT_DROP", w)]

/-- The mask of saturating counters in the register at an offset. -/
def satMask (off : Nat) : Nat :=
  match (regRow off).bind (fun r => satFields.find? (fun e => decide (e.1 = r.name))) with
  | some e => e.2
  | none => 0

/-- Does an offset lie in the block that a value of DBG_CNTCLR names (R508)? -/
def inBlock (v off : Nat) : Bool :=
  if 0x100 ≤ v ∧ v < 0x200 then decide (off / 2 ^ 20 = v / 16) else decide (off / 2 ^ 16 = v)

/-- A write of DBG_CNTCLR (R502, R508). -/
def State.cntClr (s : State) (v : Word) : State :=
  let b := fld v 11 0
  let s := (s.regs.map (fun e => e.1)).foldl (fun s off =>
    if inBlock b off then s.setReg off (s.reg off &&& ~~~(wd (satMask off))) else s) s
  if b = 0 then { s with host := { s.host with hbTicks := 0 } }
  else if b = 0x13 then
    { s with sw.queues := (s.sw.queues.map (fun e => e.1)).foldl (fun m q =>
        Sparse.set (fun _ => OutQ.reset) m q { Sparse.get (fun _ => OutQ.reset) m q with pushouts := 0 }) s.sw.queues }
  else if b = 0x17 then
    { s with ct := { s.ct with
      fcnt := []
      frer := (s.ct.frer.map (fun e => e.1)).foldl (fun m i =>
        Sparse.set (fun _ => Frer.reset) m i { Sparse.get (fun _ => Frer.reset) m i with counts := List.replicate 8 0 }) s.ct.frer } }
  else if b = 0x18 then
    { s with sg := { s.sg with votes := (s.sg.votes.map (fun e => e.1)).foldl (fun m i =>
        Sparse.set (fun _ => VoteState.reset) m i { Sparse.get (fun _ => VoteState.reset) m i with drun := 0 }) s.sg.votes } }
  else s

/-- DBG_CNTCLR (R502): clears a block's saturating counters. -/
def execDbgCntclr (p : Party) (v : Word) (s : State) : Host.Outcome State Fault Refusal :=
  done (if s.jtagShut p then s else s.cntClr v)

/-- A write of DBG_TEL_CTL (R503). -/
def State.telCtl (s : State) (v : Word) : State := s.setReg Reg.DBG_TEL_CTL (v &&& 1)

/-- DBG_TEL_CTL (R503): freezes or unfreezes telemetry latching. -/
def execDbgTelCtl (p : Party) (v : Word) (s : State) : Host.Outcome State Fault Refusal :=
  done (if s.jtagShut p then s else s.telCtl v)

end Sys2Proof.Machine
end

