-- ==== Sys2Proof/Machine/Bound.lean ====
section
/-! DEFINITION. The static check of an image's code and its bounds (R64, R65, R69, R72, R73, R131, R157 to R160, Table 06-7 codes 10
to 24): an abstract walk of the code in address order. -/

namespace Sys2Proof.Machine

/-! ### Instructions as the check sees them -/

/-- An opcode of Tables 03-9 and 03-10: the bits of field A it may set, the entries it pops and pushes, its cost in slots without
penalties, and whether it is repeatable (Table 03-7). -/
structure OpRow where
  op : Nat
  mask : Nat
  pops : Nat
  pushes : Nat
  cost : Nat
  rep : Bool
  deriving DecidableEq, Repr

/-- Rows for consecutive opcodes that agree in everything else. -/
def opSpan (first last mask pops pushes cost : Nat) (rep : Bool) : List OpRow :=
  (upTo (last + 1 - first)).map (fun i => ⟨first + i, mask, pops, pushes, cost, rep⟩)

/-- The 16-bit opcodes below 0x40. -/
def opRows0 : List OpRow :=
  opSpan 0x01 0x01 0 1 2 1 true ++ opSpan 0x02 0x02 0 1 0 1 true ++ opSpan 0x03 0x03 0 2 2 1 true ++ opSpan 0x04 0x04 0 2 3 1 true
    ++ opSpan 0x05 0x05 0 3 3 1 true ++ opSpan 0x06 0x06 0 2 1 1 true ++ opSpan 0x07 0x07 15 1 2 1 true ++ opSpan 0x08 0x08 255 0 1 1 true
    ++ opSpan 0x09 0x09 15 0 1 1 true ++ opSpan 0x0A 0x0A 15 1 0 1 true ++ opSpan 0x0B 0x0B 255 0 0 1 true
    ++ opSpan 0x10 0x12 0 2 1 1 true ++ opSpan 0x13 0x14 0 2 1 1 false ++ opSpan 0x15 0x15 0 1 1 1 true ++ opSpan 0x16 0x16 0 1 1 1 false
    ++ opSpan 0x17 0x1A 0 2 1 1 true ++ opSpan 0x20 0x22 0 2 1 1 true ++ opSpan 0x23 0x23 0 1 1 1 true ++ opSpan 0x24 0x27 0 2 1 1 true
    ++ opSpan 0x28 0x2A 0 1 1 1 false ++ opSpan 0x30 0x35 0 2 1 1 false ++ opSpan 0x36 0x36 0 3 1 1 false
    ++ opSpan 0x38 0x39 0 4 2 1 true ++ opSpan 0x3A 0x3B 0 4 1 1 false ++ opSpan 0x3C 0x3D 0 3 2 1 true

/-- The memory opcodes from `b` on, with their allowed field A. -/
def opRowsMem (b mask : Nat) : List OpRow :=
  opSpan b (b + 4) mask 1 1 0 false ++ opSpan (b + 5) (b + 5) mask 1 2 0 false ++ opSpan (b + 6) (b + 8) mask 2 0 0 false
    ++ opSpan (b + 9) (b + 9) mask 3 0 0 false ++ opSpan (b + 10) (b + 10) mask 2 1 0 false ++ opSpan (b + 11) (b + 11) mask 3 1 0 false

/-- The 16-bit opcodes from 0x50 on. -/
def opRows1 : List OpRow :=
  opSpan 0x50 0x50 255 0 0 1 false ++ opSpan 0x51 0x52 255 1 0 1 false ++ opSpan 0x53 0x53 0 0 0 0 false ++ opSpan 0x54 0x54 255 0 0 1 false
    ++ opSpan 0x55 0x55 15 0 0 1 false ++ opSpan 0x56 0x56 0 0 0 0 false ++ opSpan 0x57 0x57 255 0 0 1 false ++ opSpan 0x58 0x58 0 0 0 2 false
    ++ opSpan 0x60 0x61 1 1 1 2 false ++ opSpan 0x62 0x62 0 0 1 2 false ++ opSpan 0x63 0x63 0 1 1 2 false ++ opSpan 0x64 0x64 1 1 1 1 false
    ++ opSpan 0x65 0x65 1 3 1 2 false ++ opSpan 0x68 0x68 0 2 1 2 false ++ opSpan 0x69 0x6A 0 1 1 1 false ++ opSpan 0x6C 0x6C 63 0 2 2 false
    ++ opSpan 0x6D 0x6D 63 1 0 2 false ++ opSpan 0x70 0x72 0 1 1 2 false ++ opSpan 0x73 0x73 15 1 0 1 false ++ opSpan 0x74 0x74 0 1 1 2 false
    ++ opSpan 0x75 0x75 255 2 2 4 false ++ opSpan 0x78 0x78 0 1 1 2 false ++ opSpan 0x79 0x79 0 0 0 40 false ++ opSpan 0x7A 0x7A 0 0 1 40 false
    ++ opSpan 0x80 0x80 255 0 1 1 false ++ opSpan 0x81 0x81 255 1 0 1 false ++ opSpan 0x82 0x82 0 0 0 1 false ++ opSpan 0x83 0x84 0 0 2 1 false

/-- The 32-bit opcodes. -/
def opRows2 : List OpRow :=
  opSpan 0xC0 0xC0 0 0 1 1 false ++ opSpan 0xC1 0xC1 0 1 1 1 false ++ opSpan 0xC2 0xC2 15 0 0 1 true ++ opSpan 0xC3 0xC3 31 1 1 1 false
    ++ opSpan 0xC4 0xC4 31 2 1 1 false ++ opRowsMem 0xC8 0 ++ opSpan 0xD8 0xD8 0 0 0 1 false ++ opSpan 0xD9 0xDA 0 1 0 1 false
    ++ opSpan 0xDB 0xDD 255 0 0 1 false ++ opSpan 0xE0 0xE0 0 0 1 1 false ++ opSpan 0xE4 0xE4 0 2 2 4 false

/-- Every opcode. -/
def opRows : List OpRow := opRows0 ++ opRowsMem 0x40 255 ++ opRows1 ++ opRows2

/-- An instruction: opcode, field A, extension (0 for 16-bit ones), length in halfwords. -/
structure Ins where
  op : Nat
  a : Nat
  x : Nat
  len : Nat
  deriving DecidableEq, Repr

/-- The instruction at a halfword address of a code segment (R71). -/
def insAt (code : List Nat) (i : Nat) : Ins :=
  let h := nth 0 code i
  let op := h / 256
  if op < 0xC0 then ⟨op, h % 256, 0, 1⟩ else ⟨op, h % 256, nth 0 code (i + 1), 2⟩

/-- The row of an instruction that is legal (R72, R83); none for an illegal encoding. -/
def Ins.row (n : Ins) : Option OpRow :=
  match opRows.find? (fun r => decide (r.op = n.op)) with
  | none => none
  | some r =>
    let w := n.x % 64
    let extra :=
      if n.op = 0xC3 ∨ n.op = 0xC4 then decide (n.x < 64) && decide (1 ≤ w ∧ n.a + w ≤ 32)
      else if n.op = 0xDC then decide (n.x < 4096)
      else true
    if Nat.land n.a r.mask = n.a ∧ extra then
      some (if n.op = 7 then { r with pops := n.a + 1, pushes := n.a + 2 }
        else if n.op = 0x80 ∧ (n.a = 0xD ∨ n.a = 0xE) then { r with pushes := 2 }
        else if n.op = 0x81 ∧ (n.a = 0xD ∨ n.a = 0xE) then { r with pops := 2 }
        else r)
    else none

/-- The short form of a memory opcode, 0x40 to 0x4B, if the instruction is one. -/
def Ins.mem (n : Ins) : Option Nat :=
  if 0x40 ≤ n.op ∧ n.op ≤ 0x4B then some n.op else if 0xC8 ≤ n.op ∧ n.op ≤ 0xD3 then some (n.op - 0x88) else none

/-- The access size of a memory opcode. -/
def memSize (op : Nat) : Nat := nth 4 [1, 1, 2, 2, 4, 8, 1, 2, 4, 8, 4, 4] (op - 0x40)

/-- The displacement of a memory instruction or CHR (R59). -/
def Ins.disp (n : Ins) (size : Nat) : Int := if n.len = 1 then (n.a * size : Nat) else sInt 16 n.x

/-! ### Abstract values (R157) -/

/-- A tracked value: a constant, L0 + c, a tag from a CQS of one of the kinds of a mask, or unknown. -/
inductive AVal where
  | const (c : Word)
  | base (c : Word)
  | tag (kinds : Nat)
  | unknown
  deriving DecidableEq, Repr

/-- The value at a point where two paths join. -/
def AVal.join : AVal → AVal → AVal
  | .tag a, .tag b => .tag (Nat.lor a b)
  | x, y => if x = y then x else .unknown

/-- ADD and SUB of a tracked value with a constant. -/
def AVal.add : AVal → AVal → AVal
  | .const x, .const y => .const (x + y)
  | .base x, .const y => .base (x + y)
  | .const x, .base y => .base (x + y)
  | _, _ => .unknown

/-- x − y. -/
def AVal.sub : AVal → AVal → AVal
  | .const x, .const y => .const (x - y)
  | .base x, .const y => .base (x - y)
  | _, _ => .unknown

/-- A constant's value. -/
def AVal.const? : AVal → Option Word
  | .const c => some c
  | _ => none

/-- The region an access is charged to (Table 04-1): 0 own D-RAM, 1 frond shared memory, 2 common memory, 3 special window. A value that
is not tracked, or that may leave its region, is charged as common memory. -/
def AVal.region (v : AVal) (disp : Int) (len : Nat) : Nat :=
  let at_ (c : Word) : Nat := (c + BitVec.ofInt 32 disp).toNat
  let l : List Nat := match v with
    | .const c => [at_ c]
    | .base c => (upTo 16).map (fun k => at_ (c + wd (0xC000 + k * 0x140)))
    | _ => []
  let inside (a b : Nat) : Bool := l.all (fun x => decide (a ≤ x) && decide (x + len ≤ b))
  if l.isEmpty then 2
  else if inside 0 0x10000 then 0
  else if inside 0x100000 0x200000 then 1
  else if inside 0xF000000 0xF010000 then 3
  else 2

/-! ### Abstract states -/

/-- The state at a point of a walk: stack (top first) and locals; stores pending, capped at 4, whether any is bound for common memory,
whether the path has drained, instructions since the last such store; events that may be enabled; fewest and most releases on a path; loop levels; call depth; whether
a handler runs. -/
structure ASt where
  stack : List AVal
  locals : List AVal
  sb : Nat
  sbCommon : Bool
  drained : Bool
  since : Nat
  mask : Nat
  relMin : Nat
  relMax : Nat
  levels : Nat
  depth : Nat
  handler : Bool
  deriving DecidableEq, Repr

/-- The state at an entry with an event mask. -/
def ASt.start (mask : Nat) (handler : Bool) : ASt := ⟨[], List.replicate 16 .unknown, 0, false, false, 4, mask, 0, 0, 0, 0, handler⟩

/-- The state where two paths join: the worse of both. -/
def ASt.join (x y : ASt) : ASt :=
  { x with
    stack := if x.stack.length = y.stack.length then (x.stack.zip y.stack).map (fun p => p.1.join p.2) else x.stack
    locals := (x.locals.zip y.locals).map (fun p => p.1.join p.2)
    sb := max x.sb y.sb
    sbCommon := x.sbCommon || y.sbCommon
    drained := x.drained && y.drained
    since := min x.since y.since
    mask := Nat.lor x.mask y.mask
    relMin := min x.relMin y.relMin
    relMax := max x.relMax y.relMax }

/-- One more instruction since the last store. -/
def ASt.tick (x : ASt) : ASt := { x with since := min (x.since + 1) 4 }

/-- A drain (Table 05-4): its cost n + a, and the empty buffer. -/
def ASt.drain (x : ASt) : ASt × Nat :=
  ({ x with sb := 0, sbCommon := false, drained := true }, x.sb + (if x.sb = 0 then 0 else if x.sbCommon then 12 else 2))

/-- The state at the start of a body's or a procedure's own path: no stores pending (R160, sb_in[start]). -/
def ASt.pathStart (x : ASt) : ASt := { x with sb := 0, sbCommon := false, drained := false }

/-- The stores pending behind n runs of a path that was entered in state x and ends in state o (R131: since the last draining instruction on
the path). -/
def ASt.behind (x o : ASt) (n : Nat) : ASt :=
  if n = 0 then { o with sb := x.sb, sbCommon := x.sbCommon, drained := x.drained }
  else if o.drained then o
  else { o with sb := min 4 (x.sb + n * o.sb), sbCommon := x.sbCommon || o.sbCommon, drained := x.drained }

/-- What a root's reachable code was found to do. -/
structure Facts where
  masks : Nat
  maskAny : Bool
  badMask : Option Nat
  evbase : Option Nat
  bases : List Word
  waits : Option Nat
  buffered : Bool
  deriving DecidableEq, Repr

/-- Nothing found. -/
def Facts.none : Facts := ⟨0, false, Option.none, Option.none, [], Option.none, false⟩

/-- What the walks have gathered: failures as (code, halfword), instruction starts and second halfwords, branches as (branch, target),
bodies as (start, end), and the facts of the root being walked. -/
structure Acc where
  errs : List (Nat × Nat)
  starts : List Nat
  exts : List Nat
  edges : List (Nat × Nat)
  bodies : List (Nat × Nat)
  facts : Facts
  deriving DecidableEq, Repr

/-- Notes a failure. -/
def Acc.err (a : Acc) (code off : Nat) : Acc := { a with errs := (code, off) :: a.errs }
/-- Notes a failure when a condition holds. -/
def Acc.errIf (a : Acc) (b : Bool) (code off : Nat) : Acc := if b then a.err code off else a

/-- What is walked: code as halfwords, procedure addresses, the kind of the root (0 PACKET entry, 1 init entry, 2 task), slots per tick, the
CQW charge of a kind mask, the contention of a pool. -/
structure BoundCtx where
  code : List Nat
  procs : List Nat
  kind : Nat
  tick : Nat
  cqw : Nat → Nat
  balloc : Nat → Nat

/-- Where a walk ended: at a stop, as (state, time); out of a loop body by a branch, as (address, state, time); at an EVRET, with the time
before it. -/
structure Walks where
  ends : List (ASt × Nat)
  exits : List (Nat × ASt × Nat)
  evret : Option Nat
  deriving DecidableEq, Repr

/-- A place still to walk: address, state, time. -/
abbrev Pend := List (Nat × ASt × Nat)

/-- The larger of two optional times. -/
def maxOpt : Option Nat → Option Nat → Option Nat
  | some a, some b => some (max a b)
  | some a, none => some a
  | none, b => b

/-- Puts a place into a list in address order; two states at one address join (R160). -/
def Pend.put (a : Nat) (x : ASt) (t : Nat) (acc : Acc) : Pend → Pend × Acc
  | [] => ([(a, x, t)], acc)
  | (b, y, u) :: l =>
    if a < b then ((a, x, t) :: (b, y, u) :: l, acc)
    else if a = b then ((b, y.join x, max t u) :: l, acc.errIf (decide (x.stack.length ≠ y.stack.length)) 17 a)
    else
      let r := Pend.put a x t acc l
      ((b, y, u) :: r.1, r.2)

/-- A transfer found by a step: target, state, time, whether it is sequential. -/
structure Edge where
  to_ : Nat
  st : ASt
  time : Nat
  seq : Bool
  deriving DecidableEq, Repr

/-- What one step of a walk finds. -/
structure Found where
  edges : List Edge
  ends : List (ASt × Nat)
  evret : Option Nat
  deriving DecidableEq, Repr

/-- A walk from an address: active procedures, start, state, body end. -/
abbrev WalkFn := List Nat → Nat → ASt → Option Nat → Acc → Acc × Walks

/-! ### One instruction -/

/-- The value results of an instruction that carries values (R157), from its popped operands, top first. -/
def Ins.values (n : Ins) (xs : List AVal) (x : ASt) (pushes : Nat) : List AVal :=
  let v (i : Nat) : AVal := nth .unknown xs i
  if n.op = 1 then [v 0, v 0]
  else if n.op = 3 then [v 1, v 0]
  else if n.op = 4 then [v 1, v 0, v 1]
  else if n.op = 5 then [v 2, v 0, v 1]
  else if n.op = 6 then [v 0]
  else if n.op = 7 then v n.a :: xs
  else if n.op = 8 then [.const (BitVec.ofInt 32 (sInt 8 n.a))]
  else if n.op = 0xC0 then [.const (wd n.x)]
  else if n.op = 0xC1 then (match (v 0).const? with
    | some c => [.const (wd (n.x * 65536 + fld c 15 0))]
    | none => [.unknown])
  else if n.op = 9 then [nth .unknown x.locals n.a]
  else if n.op = 0x10 then [(v 1).add (v 0)]
  else if n.op = 0x11 then [(v 1).sub (v 0)]
  else if n.op = 0x68 then (match (v 0).const? with
    | some c => [.tag (if c.toNat ≤ 4 then 2 ^ c.toNat else 31)]
    | none => [.tag 31])
  else List.replicate pushes .unknown

/-- The locals after an instruction. -/
def Ins.newLocals (n : Ins) (xs : List AVal) (l : List AVal) : List AVal :=
  if n.op = 0x0A then l.set n.a (nth .unknown xs 0)
  else if n.op = 0x0B ∨ n.op = 0xC2 then l.set (n.a % 16) .unknown
  else l

/-- The stack effect of an instruction (codes 17 and 20 to 22): the state after it, its operands, and what it noted. DESIGN CHOICE (log
entry 20): a handler, which the reserve of R49 leaves 4 entries, is refused as STACK_DEPTH where it holds more above its entry depth. -/
def Ins.apply (n : Ins) (r : OpRow) (i : Nat) (x : ASt) (acc : Acc) : ASt × List AVal × Acc :=
  let acc := acc.errIf (decide (x.stack.length < r.pops)) 17 i
  let full := x.stack ++ List.replicate (r.pops - x.stack.length) .unknown
  let xs := full.take r.pops
  let stack := n.values xs x r.pushes ++ full.drop r.pops
  let acc := acc.errIf (decide ((if x.handler then 4 else 16) < stack.length)) 17 i
  let v0 := nth .unknown xs 0
  let f := acc.facts
  let y := { x with stack := stack, locals := n.newLocals xs x.locals }
  if n.op = 0x68 then (y, xs, acc.errIf (match v0.const? with | some c => decide (4 < c.toNat) | none => true) 20 i)
  else if n.op = 0x69 ∨ n.op = 0x6A then (y, xs, acc.errIf (match v0 with | .tag _ => false | _ => true) 21 i)
  else if n.op = 0x81 ∧ n.a = 2 then
    let f := { f with evbase := some (f.evbase.getD i), bases := (match v0.const? with | some c => f.bases ++ [c] | none => f.bases) }
    (y, xs, { acc with facts := f })
  else if n.op = 0x81 ∧ n.a = 3 then
    match v0.const? with
    | some c =>
      let m := fld c 15 1 * 2
      let bad := decide (Nat.land m 0xFBF8 ≠ 0)
      let f := { f with masks := Nat.lor f.masks m, badMask := if bad then some (f.badMask.getD i) else f.badMask }
      ({ y with mask := m }, xs, { acc with facts := f })
    | none => ({ y with mask := 0xFFFE }, xs, { acc with facts := { f with maskAny := true, badMask := some (f.badMask.getD i) } })
  else (y, xs, acc)

/-- Does an instruction drain the store buffer before it performs (R126)? -/
def Ins.drains (n : Ins) : Bool := decide (0x60 ≤ n.op ∧ n.op ≤ 0x63) || n.op == 0x68 || n.op == 0x72 || n.op == 0x82

/-- The charge of a memory instruction with its penalties (Tables 04-1 and 05-4). -/
def memCharge (op : Nat) (n : Ins) (xs : List AVal) (x : ASt) : ASt × Nat :=
  let g := (nth .unknown xs 0).region (n.disp (memSize op)) (memSize op)
  if op ≤ 0x45 then
    let pen := if (g = 1 ∨ g = 2) ∧ x.since < 4 then 4 else 0
    (x.tick, nth 12 [1, 2, 12, 2] g + pen)
  else if op ≤ 0x49 then
    if g = 1 ∨ g = 2 then
      ({ x with sb := min (x.sb + 1) 4, sbCommon := x.sbCommon || decide (g = 2), since := 0 }, 1 + (if x.sb = 4 then 1 else 0))
    else (x.drain.1.tick, 1 + x.drain.2)
  else (x.drain.1.tick, nth 13 [2, 3, 13, 13] g + x.drain.2)

/-- The charge of EMIT (Table 04-8). -/
def emitCharge (xs : List AVal) : Nat :=
  let far := if (nth .unknown xs 2).region 0 1 = 2 then 12 else 0
  match (nth .unknown xs 1).const? with
  | some c => if 60 ≤ c.toNat ∧ c.toNat ≤ 2048 then 2 + ceilDiv c.toNat 64 + far else 2
  | none => 2 + 32 + far

/-- The charge of an instruction other than control flow (R158, R160), and the state it leaves in the store buffer. -/
def Ins.charge (c : BoundCtx) (n : Ins) (r : OpRow) (xs : List AVal) (x : ASt) : ASt × Nat :=
  match n.mem with
  | some op => memCharge op n xs x
  | none =>
    if n.drains then (x.drain.1.tick, r.cost + x.drain.2)
    else
      let extra :=
        if n.op = 0x69 then (match nth .unknown xs 0 with | .tag k => c.cqw k | _ => c.cqw 31)
        else if n.op = 0x70 ∨ n.op = 0x7A then c.tick
        else if n.op = 0x75 ∨ n.op = 0xE4 then
          c.tick + (if (nth .unknown xs 0).region (n.disp 4) 64 = 2 then 12 else 0)
        else if n.op = 0x6C then c.balloc n.a
        else if n.op = 0x65 then emitCharge xs - 2
        else 0
      (x.tick, r.cost + extra)

/-- Notes a waiting instruction (code 24). -/
def Acc.wait (a : Acc) (i : Nat) : Acc := { a with facts := { a.facts with waits := some (a.facts.waits.getD i) } }

/-! ### Steps -/

/-- BR, BZ, BNZ (R65, R73): the target of a forward branch, with its 2 slots, and the path not taken. A refused backward branch is followed
once, for what its target would add. -/
def branchStep (c : BoundCtx) (n : Ins) (r : OpRow) (i : Nat) (x : ASt) (t : Nat) (acc : Acc) : Acc × Found :=
  let e := n.apply r i x acc
  let y := e.1.tick
  let acc := e.2.2
  let nx := i + n.len
  let off := if n.len = 1 then sInt 8 n.a else sInt 16 n.x
  let fall : List Edge := if n.op = 0x50 ∨ n.op = 0xD8 then [] else [⟨nx, y, t + 1, true⟩]
  if off < 0 then
    let to_ := (nx : Int) + off
    let back : List Edge := if 0 ≤ to_ ∧ !acc.starts.contains to_.toNat then [⟨to_.toNat, y, t, false⟩] else []
    (acc.err 12 i, ⟨back ++ fall, [], none⟩)
  else
    let to_ := nx + off.toNat
    let acc := { acc with edges := (i, to_) :: acc.edges }
    if c.code.length ≤ to_ then (acc.err 11 i, ⟨fall, [], none⟩) else (acc, ⟨⟨to_, y, t + 3, false⟩ :: fall, [], none⟩)

/-- The states of a loop body once the values at its start no longer change with another iteration; its path starts with no stores pending
(R160). -/
def bodyFix (sub : WalkFn) (ps : List Nat) (b e i : Nat) : Nat → ASt → Acc → Acc × Walks
  | 0, x, acc => sub ps b { x with stack := x.stack.map (fun _ => .unknown), locals := x.locals.map (fun _ => .unknown) } (some e) acc
  | n + 1, x, acc =>
    let w := sub ps b x (some e) acc
    let bad := w.2.ends.any (fun o => decide (o.1.stack.length ≠ x.stack.length))
    let y := w.2.ends.foldl (fun y o => y.join o.1) x
    let y := { y.pathStart with relMin := 0, relMax := 0 }
    if y = x ∨ bad then (w.1.errIf bad 17 i, w.2) else bodyFix sub ps b e i n y w.1

/-- LOOP and LOOPL (R62 to R64, R160). DESIGN CHOICE (log entry 20): a path that leaves the body by a branch is charged the other iterations
in full and its own part of one. Behind a refused loop the walk goes straight on. -/
def loopStep (c : BoundCtx) (sub : WalkFn) (ps : List Nat) (stop : Option Nat) (n : Ins) (i : Nat) (x : ASt) (t : Nat) (acc : Acc) :
    Acc × Found :=
  let b := i + 2
  let e := b + n.a + 1
  let cnt := n.x % 4096 + 1
  let out : Bool := match stop with | some z => decide (z < e) | none => false
  if c.code.length < e ∨ out ∨ 2 ≤ x.levels then (acc.err 13 i, ⟨[⟨b, x.tick, t + 1, true⟩], [], none⟩)
  else
    let acc := { acc with
      bodies := (b, e) :: acc.bodies
      facts := { acc.facts with buffered := acc.facts.buffered || decide (e - b ≤ 32) } }
    let w := bodyFix sub ps b e i 64 { x.tick.pathStart with levels := x.levels + 1, relMin := 0, relMax := 0 } acc
    let close := if 32 < e - b then 2 else 0
    let body := (w.2.ends.map (fun o => o.2)).foldl max 0
    let most := (w.2.ends.map (fun o => o.1.relMax)).foldl max 0
    let again := if w.2.ends.isEmpty then 0 else (cnt - 1) * (body + close)
    let fixed := decide (n.op = 0xDC)
    let full : ASt := match w.2.ends with
      | [] => x
      | o :: os => x.behind (os.foldl (fun y p => y.join p.1) o.1) (cnt - 1)
    let after (o : ASt) : Edge :=
      let y := { x.behind o cnt with levels := x.levels, relMin := x.relMin + (if fixed then cnt * o.relMin else o.relMin), relMax := x.relMax + cnt * most }
      ⟨e, y, t + 1 + cnt * body + (cnt - 1) * close, true⟩
    let skip : List Edge := if fixed then [] else [⟨e, x.tick, t + 3, true⟩]
    let gone (o : Nat × ASt × Nat) : Edge :=
      let y := { full.behind o.2.1 1 with levels := x.levels, relMin := x.relMin + o.2.1.relMin, relMax := x.relMax + o.2.1.relMax + (cnt - 1) * most }
      ⟨o.1, y, t + 1 + again + o.2.2, false⟩
    let twice := decide (c.kind = 0) && !x.handler && decide (0 < most) && decide (1 < x.relMax + cnt * most)
    (w.1.errIf twice 23 i, ⟨skip ++ w.2.ends.map (fun o => after o.1) ++ w.2.exits.map gone, [], none⟩)

/-- The state after n executions of an instruction (R67). -/
def repeatApply (m : Ins) (r : OpRow) (i : Nat) : Nat → ASt → Acc → ASt × Acc
  | 0, x, acc => (x, acc)
  | n + 1, x, acc =>
    let e := m.apply r i x acc
    repeatApply m r i n e.1 e.2.2

/-- REP and REPL with the instruction they prefix (R67, R69, R160). Behind a refused prefix the walk goes on at the next instruction. -/
def repStep (c : BoundCtx) (stop : Option Nat) (n : Ins) (i : Nat) (x : ASt) (t : Nat) (acc : Acc) : Acc × Found :=
  let j := i + 1
  let last : Bool := match stop with | some z => decide (z ≤ j) | none => false
  let on : Found := ⟨[⟨j, x.tick, t + 1, true⟩], [], none⟩
  if c.code.length ≤ j ∨ last then (acc.err 14 i, on)
  else
    let m := insAt c.code j
    let acc := { acc with starts := j :: acc.starts, exts := if m.len = 2 then (j + 1) :: acc.exts else acc.exts }
    match m.row with
    | none => (acc.err 10 j, ⟨[], [], none⟩)
    | some r =>
      if !r.rep then (acc.err 14 i, on)
      else if (match stop with | some z => decide (z < j + m.len) | none => false) then (acc.err 13 j, ⟨[], [], none⟩)
      else if c.code.length < j + m.len then (acc.err 11 j, ⟨[], [], none⟩)
      else if n.op = 0x54 then
        let y := repeatApply m r j (n.a + 1) x acc
        (y.2, ⟨[⟨j + m.len, y.1.tick.tick, t + 1 + (n.a + 1) * r.cost, true⟩], [], none⟩)
      else
        let e := m.apply r j x acc
        let y := e.1
        let y := { x with
          stack := y.stack.zipIdx.map (fun (p : AVal × Nat) => if p.2 < r.pushes then .unknown else p.1)
          locals := m.newLocals [] x.locals }
        (e.2.2.errIf (decide (r.pops ≠ r.pushes)) 17 i, ⟨[⟨j + m.len, y.tick.tick, t + 1 + 255 * r.cost, true⟩], [], none⟩)

/-- The bound of a procedure (R160): from no stores pending and no value known, whoever calls it. -/
def procBound (sub : WalkFn) (ps : List Nat) (p : Nat) (x : ASt) (acc : Acc) : Nat :=
  let y := ASt.start x.mask x.handler
  let y := { y with stack := x.stack.map (fun _ => .unknown), depth := x.depth + 1, levels := x.levels }
  ((sub (p :: ps) p y none acc).2.ends.map (fun o => o.2)).foldl max 0

/-- CALL with its procedure and RET (R53, R54, R160; codes 11, 15, 16). The procedure is walked with what the caller knows for the checks of
Table 06-7, and charged its own bound. Behind a refused CALL, or one whose procedure is refused, the walk goes straight on. -/
def callStep (c : BoundCtx) (sub : WalkFn) (ps : List Nat) (n : Ins) (i : Nat) (x : ASt) (t : Nat) (acc : Acc) : Acc × Found :=
  let p := nth c.code.length c.procs n.a
  let k := ((upTo 16).filter (fun b => n.x.testBit b)).length
  let cost := 3 + ceilDiv k 2
  let on : Found := ⟨[⟨i + 2, x.tick, t + 2 * cost, true⟩], [], none⟩
  if c.code.length ≤ p then (acc.err 11 i, on)
  else if ps.contains p then (acc.err 15 i, on)
  else if 8 ≤ x.depth then (acc.err 16 i, on)
  else
    let w := sub (p :: ps) p { x.tick.pathStart with depth := x.depth + 1 } none acc
    let bound := procBound sub ps p x acc
    let back (o : ASt × Nat) : Edge :=
      let y := { x.behind o.1 1 with
        depth := x.depth
        levels := x.levels
        locals := (upTo 16).map (fun b => if n.x.testBit b then nth .unknown x.locals b else nth .unknown o.1.locals b) }
      ⟨i + 2, y.tick, t + 2 * cost + bound, true⟩
    let outs := w.2.ends.map back
    (w.1, ⟨if outs.isEmpty ∧ acc.errs.length < w.1.errs.length then on.edges else outs, [], w.2.evret.map (fun z => t + cost + z)⟩)

/-- WAIT (R92, R93, R158; code 23): the run-ending one ends the walk. -/
def waitStep (c : BoundCtx) (stop : Option Nat) (n : Ins) (r : OpRow) (i : Nat) (x : ASt) (t : Nat) (acc : Acc) : Acc × Found :=
  let ends := n.x.testBit 8 && decide (x.depth = 0) && !x.handler && (decide (c.kind = 1) || (decide (c.kind = 0) && decide (0 < x.relMax)))
  if ends then
    let bad := stop.isSome || (decide (c.kind = 0) && decide (x.relMin ≠ 1 ∨ x.relMax ≠ 1))
    (acc.errIf bad 23 i, ⟨[], [(x, t + 1)], none⟩)
  else
    let e := n.apply r i x acc
    (e.2.2.wait i, ⟨[⟨i + 2, e.1.tick, t + 1 + c.tick, true⟩], [], none⟩)

/-- RET (R54, R64): the end of a procedure; elsewhere a PACKET path ends without its WAIT. -/
def retStep (c : BoundCtx) (ps : List Nat) (stop : Option Nat) (i : Nat) (x : ASt) (t : Nat) (acc : Acc) : Acc × Found :=
  if stop.isSome then (acc.err 13 i, ⟨[], [], none⟩)
  else if ps.isEmpty then (acc.errIf (decide (c.kind ≠ 2) && !x.handler) 23 i, ⟨[], [], none⟩)
  else (acc, ⟨[], [(x, t)], none⟩)

/-- EVRET (R137; code 19): the end of a handler. -/
def evretStep (c : BoundCtx) (stop : Option Nat) (i : Nat) (x : ASt) (t : Nat) (acc : Acc) : Acc × Found :=
  if !x.handler then (acc.errIf (decide (c.kind ≠ 2)) 23 i, ⟨[], [], none⟩)
  else if stop.isSome then (acc.err 13 i, ⟨[], [], none⟩)
  else (acc.errIf (!x.stack.isEmpty) 19 i, ⟨[], [], some t⟩)

/-- Every other instruction. -/
def plainStep (c : BoundCtx) (n : Ins) (r : OpRow) (i : Nat) (x : ASt) (t : Nat) (acc : Acc) : Acc × Found :=
  let e := n.apply r i x acc
  let acc := e.2.2
  let waits := n.op == 0x70 || n.op == 0x75 || n.op == 0xE4 || n.op == 0x7A
  let acc := if waits then acc.wait i else acc
  let rel := decide (0x60 ≤ n.op ∧ n.op ≤ 0x63)
  let ch := n.charge c r e.2.1 e.1
  let acc := acc.errIf (rel && decide (c.kind = 0) && !x.handler && decide (0 < x.relMax)) 23 i
  let y := if rel then { ch.1 with relMin := ch.1.relMin + 1, relMax := ch.1.relMax + 1 } else ch.1
  (acc, ⟨[⟨i + n.len, y, t + ch.2, true⟩], [], none⟩)

/-- One instruction of a walk. -/
def walkStep (c : BoundCtx) (sub : WalkFn) (ps : List Nat) (stop : Option Nat) (i : Nat) (x : ASt) (t : Nat) (acc : Acc) : Acc × Found :=
  let n := insAt c.code i
  if c.code.length < i + n.len then (acc.err 11 i, ⟨[], [], none⟩)
  else
    let acc := { acc with starts := i :: acc.starts, exts := if n.len = 2 then (i + 1) :: acc.exts else acc.exts }
    match n.row with
    | none => (acc.err 10 i, ⟨[], [], none⟩)
    | some r =>
      let cut := match stop with | some z => decide (z < i + n.len) | none => false
      let acc := acc.errIf (!x.handler && decide (Nat.land x.mask 0xFFFE ≠ 0) && decide (12 < x.stack.length)) 18 i
      if cut then (acc.err 13 i, ⟨[⟨i + n.len, x.tick, t + 1, false⟩], [], none⟩)
      else if (0x50 ≤ n.op ∧ n.op ≤ 0x52) ∨ (0xD8 ≤ n.op ∧ n.op ≤ 0xDA) then branchStep c n r i x t acc
      else if n.op = 0xDC ∨ n.op = 0xDD then loopStep c sub ps stop n i x t acc
      else if n.op = 0x54 ∨ n.op = 0x55 then repStep c stop n i x t acc
      else if n.op = 0xDB then callStep c sub ps n i x t acc
      else if n.op = 0xE0 then waitStep c stop n r i x t acc
      else if n.op = 0x53 then retStep c ps stop i x t acc
      else if n.op = 0x56 then evretStep c stop i x t acc
      else plainStep c n r i x t acc

/-- Puts a transfer where it belongs: the end of an iteration, out of the body, past the segment, or a place to walk. -/
def Walks.take (w : Walks) (c : BoundCtx) (stop : Option Nat) (i : Nat) (p : Pend) (acc : Acc) (e : Edge) : Pend × Acc × Walks :=
  let past := match stop with | some z => decide (z ≤ e.to_) | none => false
  if past then
    if e.seq ∧ stop = some e.to_ then (p, acc, { w with ends := w.ends ++ [(e.st, e.time)] })
    else (p, acc, { w with exits := w.exits ++ [(e.to_, e.st, e.time)] })
  else if c.code.length ≤ e.to_ then
    (p, (if e.st.handler then acc.err 11 i else if c.kind = 2 then acc else acc.err 23 i), w)
  else
    let r := p.put e.to_ e.st e.time acc
    (r.1, r.2, w)

/-- The walk of the places of a list, in address order. -/
def walkPlaces (c : BoundCtx) (sub : WalkFn) (ps : List Nat) (stop : Option Nat) : Nat → Pend → Acc → Walks → Acc × Walks
  | 0, _, acc, w => (acc, w)
  | _ + 1, [], acc, w => (acc, w)
  | n + 1, (i, x, t) :: p, acc, w =>
    let r := walkStep c sub ps stop i x t acc
    let w := { w with ends := w.ends ++ r.2.ends, evret := maxOpt w.evret r.2.evret }
    let z := r.2.edges.foldl (fun (a : Pend × Acc × Walks) e => a.2.2.take c stop i a.1 a.2.1 e) (p, r.1, w)
    walkPlaces c sub ps stop n z.1 z.2.1 z.2.2

/-- A walk with at most d walks of bodies and procedures inside one another. -/
def walk (c : BoundCtx) : Nat → WalkFn
  | 0 => fun _ _ _ _ acc => (acc, ⟨[], [], none⟩)
  | d + 1 => fun ps i x stop acc => walkPlaces c (walk c d) ps stop (4 * (c.code.length + 1)) [(i, x, 0)] acc ⟨[], [], none⟩

/-- The depth that 8 calls and the loop levels of a thread and of a handler can reach. -/
def walkDepth : Nat := 16

/-- Walks a root: the gathered facts, and the largest time at a stop. -/
def walkRoot (c : BoundCtx) (i : Nat) (x : ASt) (acc : Acc) : Acc × Nat :=
  if c.code.length ≤ i then (acc.err 11 i, 0)
  else
    let w := walk c walkDepth [] i x none acc
    (w.1, max ((w.2.ends.map (fun o => o.2)).foldl max 0) (w.2.evret.getD 0))

/-! ### Events (R159) -/

/-- The halfword of the vector of event n under a vector table base, and the handler's address (Table 05-6); an address past the segment where
the vector itself lies past it. -/
def vectorAt (c : BoundCtx) (base : Word) (n : Nat) : Nat × Nat :=
  let v := fld base 13 5 * 16 + n
  (v, nth c.code.length c.code v)

/-- H(n) + 9 + F(n) of event n under a vector table base; `strict` refuses a handler outside the segment (code 11). -/
def handlerCharge (c : BoundCtx) (strict : Bool) (base : Word) (n : Nat) (acc : Acc) : Acc × Nat :=
  let v := vectorAt c base n
  let h := v.2
  if c.code.length ≤ h then (acc.errIf strict 11 v.1, 9)
  else
    let old := acc.facts
    let r := walkRoot c h (ASt.start 0 true) { acc with facts := { old with buffered := false } }
    let f := if r.1.facts.buffered then 2 else 0
    ({ r.1 with facts := { r.1.facts with buffered := old.buffered } }, 5 + r.2 + 4 + f)

/-- The charges of the events of U that are not yet done, the lowest first; a handler may enlarge U. -/
def eventCharges (c : BoundCtx) (strict : Bool) (base : Word) (mask : Nat) : Nat → Nat → Acc → Nat → Acc × Nat
  | 0, _, acc, sum => (acc, sum)
  | k + 1, done_, acc, sum =>
    let u := if acc.facts.maskAny then 0xFFFE else Nat.land (Nat.lor mask acc.facts.masks) 0xFFFE
    match (upTo 16).find? (fun n => u.testBit n && !done_.testBit n) with
    | none => (acc, sum)
    | some n =>
      let r := handlerCharge c strict base n acc
      eventCharges c strict base mask k (done_ + 2 ^ n) r.1 (sum + r.2)

/-- The walk of the FAULT handler, which code of any root can reach: it is checked as any handler, and not charged (R159). PRESUMED (log entry
20): a FAULT vector that lies outside the segment, or names an address outside it, stands for an image without a FAULT
handler and is not refused. -/
def faultWalk (c : BoundCtx) (base : Word) (acc : Acc) : Acc :=
  let h := (vectorAt c base 0).2
  if c.code.length ≤ h then acc
  else
    let old := acc.facts
    let r := (walkRoot c h (ASt.start 0 true) acc).1
    { r with facts := { old with evbase := old.evbase.orElse (fun _ => r.facts.evbase) } }

/-! ### The check of an image's code -/

/-- A root of an image's code: kind, family (8 for none), address, EVMASK. -/
structure Root where
  kind : Nat
  family : Nat
  addr : Nat
  mask : Nat
  deriving DecidableEq, Repr

/-- Checks and bounds one root; `base` is the PACKET EVBASE. The handlers of a TASK are those under the constants that it writes to EVBASE, and
under 0, the reset value (R47), where it writes none. -/
def boundRoot (c : BoundCtx) (base : Word) (r : Root) (acc : Acc) : Acc × Nat :=
  let c := { c with kind := r.kind }
  let acc := { acc with facts := Facts.none }
  let x := ASt.start (Nat.land r.mask 0xFFFE) false
  let x := if r.kind = 0 then { x with locals := x.locals.set 0 (.base 0) } else x
  let w := walkRoot c r.addr x acc
  if r.kind = 2 then
    let bases := w.1.facts.bases
    let strict := !bases.isEmpty
    ((if strict then bases else [0]).foldl (fun acc b => faultWalk c b (eventCharges c strict b r.mask 16 0 acc 0).1) w.1, w.2)
  else
    let e := eventCharges c true base r.mask 16 0 w.1 w.2
    let e := (faultWalk c base e.1, e.2)
    let f := e.1.facts
    let acc := match f.evbase with | some i => e.1.err 22 i | none => e.1
    let acc :=
      if r.family = 0 ∧ r.kind = 0 then
        let acc := acc.errIf (decide (Nat.land r.mask 0xFBF8 ≠ 0)) 24 r.addr
        let acc := match f.badMask with | some i => acc.err 24 i | none => acc
        match f.waits with | some i => acc.err 24 i | none => acc
      else acc
    (acc, e.2)

/-- The failure of lowest code, and among those of lowest halfword. -/
def firstErr (l : List (Nat × Nat)) : Option (Nat × Nat) :=
  l.foldl (fun b e => match b with
    | none => some e
    | some m => if e.1 < m.1 ∨ (e.1 = m.1 ∧ e.2 < m.2) then some e else some m) none

/-- The check of an image's code: the bounds of its roots, and the first failure of codes 10 to 24. -/
def boundCheck (c : BoundCtx) (base : Word) (roots : List Root) : List Nat × Option (Nat × Nat) :=
  let r := roots.foldl (fun (a : Acc × List Nat) x => let b := boundRoot c base x a.1; (b.1, a.2 ++ [b.2])) (⟨[], [], [], [], [], Facts.none⟩, [])
  let acc := r.1
  let acc := c.procs.foldl (fun a p => a.errIf (decide (c.code.length ≤ p)) 11 p) acc
  let acc := acc.exts.foldl (fun a e => a.errIf (a.starts.contains e) 11 e) acc
  let into (e b : Nat × Nat) : Bool := decide (b.1 ≤ e.2 ∧ e.2 < b.2) && !decide (b.1 ≤ e.1 ∧ e.1 < b.2)
  let acc := acc.edges.foldl (fun a e => a.errIf (a.bodies.any (into e)) 13 e.1) acc
  (r.2, firstErr acc.errs)

end Sys2Proof.Machine
end

