-- ==== Sys2Proof/Machine/LoadCheck.lean ====
section
/-! DEFINITION. The checks of an image (R149 to R152, R156, R161, R162, Table 06-7) and its report (R163). -/

namespace Sys2Proof.Machine

/-! ### The image as bytes -/

/-- A segment descriptor (R150) with its number. -/
structure Seg where
  idx : Nat
  type : Nat
  off : Nat
  len : Nat
  target : Nat
  deriving DecidableEq, Repr

/-- The offset of segment descriptor j. -/
def segAt (j : Nat) : Nat := 64 + 16 * j

/-- The segments of an image. -/
def segsOf (b : List Byte) : List Seg :=
  (upTo (leAt b 12 2)).map (fun j => let o := segAt j; ⟨j, leAt b o 1, leAt b (o + 4) 4, leAt b (o + 8) 4, leAt b (o + 12) 4⟩)

/-- The first segment of a type. -/
def segOf (b : List Byte) (ty : Nat) : Option Seg := (segsOf b).find? (fun g => decide (g.type = ty))

/-- The bytes of a segment. -/
def Seg.bytes (g : Seg) (b : List Byte) : List Byte := slice b g.off g.len

/-- The bytes of the first segment of a type; none of that type has no bytes. -/
def segBytes (b : List Byte) (ty : Nat) : List Byte := match segOf b ty with | some g => g.bytes b | none => []

/-- Record j of n bytes. -/
def recAt (l : List Byte) (n j : Nat) : List Byte := slice l (n * j) n

/-- The records of n bytes. -/
def recsOf (l : List Byte) (n : Nat) : List (List Byte) := (upTo (l.length / n)).map (fun j => recAt l n j)

/-- A code segment as halfwords. -/
def halfwords (l : List Byte) : List Nat := (upTo (l.length / 2)).map (fun i => leAt l (2 * i) 2)

/-- An address read from an image. -/
def pcOf (n : Nat) : Pc := BitVec.ofNat 13 n

/-- An entry record (Table 06-5), its bound not yet computed. -/
def entryOf (l : List Byte) : EntryRec :=
  ⟨leAt l 0 1, leAt l 1 1, pcOf (leAt l 2 2), BitVec.ofNat 16 (leAt l 4 2), leAt l 8 4, 0⟩

/-- A core record (Table 06-4). -/
def coreRoleOf (l : List Byte) : CoreRole :=
  let w := wd (leAt l 0 4)
  ⟨fld w 15 0, fld w 23 16, bit w 24, bit w 25, bit w 26⟩

/-- A TASK record (Table 07-5). -/
def taskOf (l : List Byte) : TaskRec :=
  ⟨leAt l 0 2, leAt l 2 1, decide (leAt l 3 1 % 2 = 1), pcOf (leAt l 4 2), BitVec.ofNat 16 (leAt l 6 2)⟩

/-- The INIT segment. -/
def initOf (l : List Byte) : InitSeg := ⟨wd (leAt l 0 2), BitVec.ofNat 16 (leAt l 2 2), leAt l 4 2⟩

/-- The image that bytes spell; `bounds` are its entries' bounds and that of its init entry. -/
def imageOf (b : List Byte) (bounds : List Nat) (initBound : Nat) : Image where
  fronds := leAt b 16 2
  code := segBytes b 1
  proc := (halfwords (segBytes b 2)).map pcOf
  entries := ((recsOf (segBytes b 3) 16).map entryOf).zipIdx.map (fun (e : EntryRec × Nat) => { e.1 with bound := nth 0 bounds e.2 })
  roles := (recsOf (segBytes b 4) 4).map coreRoleOf
  init := (segOf b 5).map (fun g => initOf (g.bytes b))
  datas := ((segsOf b).filter (fun g => decide (g.type = 6))).map (fun g => ⟨wd g.target, g.bytes b⟩)
  tasks := (recsOf (segBytes b 7) 8).map taskOf
  live := decide (leAt b 14 2 / 2 % 2 = 1)
  initBound := initBound

/-! ### Format, CRC and signature (codes 2 to 7) -/

/-- The offset of the first condition that holds. -/
def firstBad (l : List (Bool × Nat)) : Option Nat := (l.find? (fun e => e.1)).map (fun e => e.2)

/-- May n bytes stand at a DATA target (Table 06-4): a thread-view address in D-RAM, frond shared memory or common memory? -/
def dataOk (a n : Nat) : Bool :=
  decide (a + n ≤ 0x10000) || (decide (0x100000 ≤ a) && decide (a + n ≤ 0x200000)) || (decide (0x1000000 ≤ a) && decide (a + n ≤ 0x1800000))

/-- The header checks (R149). -/
def headBad (b : List Byte) (len : Nat) : Option Nat :=
  let n := leAt b 12 2
  firstBad [(decide (b.length < 64), 0), (decide (leAt b 0 4 ≠ 0x5356504F), 0), (decide (leAt b 4 2 ≠ 1), 4), (decide (leAt b 6 2 ≠ 64), 6),
    (decide (leAt b 8 4 ≠ len), 8), (decide (n = 0 ∨ 64 < n ∨ len < segAt n), 12), (decide (3 < leAt b 14 2), 14),
    (decide (leAt b 16 2 = 0), 16), (decide (leAt b 18 2 ≠ 0), 18), ((slice b 28 28).any (fun x => decide (x ≠ 0)), 28)]

/-- The size rule of a segment's content. -/
def sizeBad (g : Seg) : Bool :=
  let n := g.len
  match g.type with
  | 1 => decide (n % 2 ≠ 0)
  | 2 => decide (n % 2 ≠ 0)
  | 3 => decide (n % 16 ≠ 0)
  | 4 => decide (n ≠ 64)
  | 5 => decide (n ≠ 8)
  | 7 => decide (n % 8 ≠ 0 ∨ 8192 < n)
  | 8 => decide (n ≠ 200)
  | _ => false

/-- The checks of one segment descriptor against the ones before it (R149, R150). -/
def segBad (b : List Byte) (before : List Seg) (g : Seg) : Option Nat :=
  let o := segAt g.idx
  let last := leAt b 12 2 - 1
  firstBad [(decide (g.type = 0 ∨ 8 < g.type), o), (decide (leAt b (o + 1) 3 ≠ 0), o + 1),
    (decide (g.type ≠ 6) && before.any (fun h => decide (h.type = g.type)), o), (decide (g.type = 8 ∧ g.idx ≠ last), o),
    (decide (g.off < segAt (last + 1) ∨ b.length < g.off + g.len), o + 4),
    (before.any (fun h => decide (g.off < h.off + h.len ∧ h.off < g.off + g.len)), o + 4), (sizeBad g, o + 8),
    (if g.type = 6 then !dataOk g.target g.len else decide (g.target ≠ 0), o + 12)]

/-- The checks of the records inside the segments. -/
def contentBad (b : List Byte) : Option Nat :=
  let base (ty : Nat) : Nat := match segOf b ty with | some g => g.off | none => 0
  let es := (recsOf (segBytes b 3) 16).zipIdx
  let ts := (recsOf (segBytes b 7) 8).zipIdx
  let entry (e : List Byte × Nat) : Bool :=
    decide (4 < leAt e.1 1 1 ∨ leAt e.1 4 2 % 2 = 0 ∨ leAt e.1 6 2 ≠ 0 ∨ leAt e.1 12 4 ≠ 0)
      || es.any (fun d => decide (d.2 < e.2 ∧ leAt d.1 0 1 = leAt e.1 0 1))
  let task (e : List Byte × Nat) : Bool :=
    decide (1023 < leAt e.1 0 2 ∨ 31 < leAt e.1 2 1 ∨ 1 < leAt e.1 3 1 ∨ leAt e.1 6 2 % 2 = 0)
  firstBad (es.map (fun e => (entry e, base 3 + 16 * e.2)) ++ [(decide (leAt (segBytes b 5) 6 2 ≠ 0), base 5 + 6)]
    ++ ts.map (fun e => (task e, base 7 + 8 * e.2)))

/-- Code 2 (FORMAT): the offset of what is wrong with the form of an image. DESIGN CHOICE (log entry 20): a frond mask of 0, reserved bits that
are not 0, a segment that is missing, and a signed flag that does not match the presence of a SIG segment count as its form. -/
def formatBad (b : List Byte) (len : Nat) : Option Nat :=
  match headBad b len with
  | some o => some o
  | none =>
    let gs := segsOf b
    match gs.findSome? (fun g => segBad b (gs.take g.idx) g) with
    | some o => some o
    | none =>
      firstBad [((segOf b 1).isNone, 12), ((segOf b 4).isNone, 12), (decide ((leAt b 14 2 % 2 = 1) ≠ (segOf b 8).isSome), 14)] |>.orElse
        (fun _ => contentBad b)

/-- The bytes that the body CRC covers. -/
def crcBody (b : List Byte) : List Byte :=
  match segOf b 8 with
  | some g => slice b 64 (g.off - 64) ++ b.drop (g.off + g.len)
  | none => b.drop 64

/-- Code 3 (CRC). -/
def crcBad (b : List Byte) : Option Nat :=
  firstBad [(decide (leAt b 60 4 ≠ crc32c 0xFFFFFFFF (b.take 60)), 60), (decide (leAt b 56 4 ≠ crc32c 0xFFFFFFFF (crcBody b)), 56)]

/-- Codes 4 to 6: the signature (R151), and which failure it is. -/
def State.sigBad (s : State) (b : List Byte) : Option (Nat × Nat) :=
  match segOf b 8 with
  | none => if bit s.fuses.secure 8 then some (4, 14) else none
  | some g =>
    let l := g.bytes b
    let k := leAt l 0 4
    let key := slice l 4 97
    let hash := sha384 (b.take g.off)
    let good := decide (k < 4) && bit s.fuses.secure k && decide (nth [] s.fuses.keyHash k = sha384 key) && decide (byteAt key 0 = 4)
      && decide (leAt l 101 3 = 0)
      && ecdsaVerify (beAt key 1 48) (beAt key 49 48) (leAt l 104 48) (leAt l 152 48) hash
    if !good then some (5, g.off) else if bit s.fuses.secure (4 + k) then some (6, g.off) else none

/-- Code 7 (SIZE). -/
def sizesBad (b : List Byte) : Option Nat :=
  firstBad ((segsOf b).map (fun g => (decide ((g.type = 1 ∧ 16384 < g.len) ∨ (g.type = 2 ∧ 512 < g.len) ∨ (g.type = 3 ∧ 4096 < g.len)),
    segAt g.idx + 8)))

/-! ### Roles and shares (codes 8 and 9) -/

/-- Are the roles of a core record in order (R144, R145)? -/
def coreRoleBad (c : Nat) (raw : List Byte) (r : CoreRole) : Bool :=
  let role (t : Nat) : Nat := r.role t
  decide (2 ^ 27 ≤ leAt raw 0 4) || (upTo 8).any (fun t => decide (role t = 3) || (r.pinned.testBit t && decide (role t ≠ 1)))
    || (decide (c = 0) && (decide (role 0 ≠ 2) || r.resident)) || (r.resident && (upTo 8).any (fun t => decide (role t ≠ 2)))

/-- Code 8 (ROLE). -/
def rolesBad (b : List Byte) : Option Nat :=
  let base := match segOf b 4 with | some g => g.off | none => 0
  firstBad ((recsOf (segBytes b 4) 4).zipIdx.map (fun e => (coreRoleBad e.2 e.1 (coreRoleOf e.1), base + 4 * e.2)))

/-- The targeted fronds of a mask. -/
def maskFronds (m : Nat) : List Nat := (upTo 16).filter (fun f => m.testBit f)

/-- Is a pool of a core oversubscribed with the full shares of its pinned threads (R148)? -/
def State.sharesOver (s : State) (f c : Nat) (r : CoreRole) : Bool :=
  let p := ((upTo 8).filter (fun t => r.pinned.testBit t)).length
  let m (hi lo : Nat) : Nat := s.regF (Reg.CORE_SHARECFG f c) hi lo
  let exceeds (min_ full pool : Nat) : Bool := decide (pool < 8 * min_ ∨ pool < p * full + (8 - p) * min_)
  r.dynamic && (exceeds (m 4 0) 16 128 || exceeds (m 11 8) 8 64 || exceeds (m 15 12) 8 64)

/-- Code 9 (SHARES). -/
def State.sharesBad (s : State) (b : List Byte) : Option Nat :=
  let base := match segOf b 4 with | some g => g.off | none => 0
  let rs := ((recsOf (segBytes b 4) 4).map coreRoleOf).zipIdx
  firstBad (rs.map (fun e => ((maskFronds (leAt b 16 2)).any (fun f => s.sharesOver f e.2 e.1), base + 4 * e.2)))

/-! ### Bounds (codes 10 to 24, 26) -/

/-- The largest D_k of the fronds. -/
def State.cqMax (s : State) (k : Nat) : Nat := ((upTo 16).map (fun f => s.cqDepth f k)).foldl max 0

/-- D_k × C_k of a frond, in chunks. -/
def State.cqChunks (s : State) (f k : Nat) : Nat := s.cqDepth f k * 2 ^ s.regF (Reg.FRD_CQ_CFG f k) 12 9

/-- The worst-case latency of a kind on a frond, in core cycles (Table 08-7), for a PACKET thread. -/
def State.cqLatency (s : State) (f k : Nat) : Nat :=
  let dma := 5300 + 160 * (s.cqChunks f 1 + s.cqChunks f 2)
  match k with
  | 0 =>
    if s.regB (Reg.FRD_CQ_CFG f 0) 16 then 200 + 2 * ((34 * 16 * s.cqMax 0 + 260) * 8) else 200 + 2 * ceilDiv ((16 * s.cqMax 0 + 260) * 8) 7
  | 1 => dma
  | 2 => dma + 40
  | 3 => 400 + 2048 * 16 * s.cqMax 3
  | _ => 200 + 512 * s.cqMax 4

/-- The CQW charge of a kind mask on the fronds of an image: the largest, in slots (R158). -/
def State.cqwCharge (s : State) (fronds kinds : Nat) : Nat :=
  ceilDiv (((maskFronds fronds).flatMap (fun f => ((upTo 5).filter (fun k => kinds.testBit k)).map (fun k => s.cqLatency f k))).foldl max 0) 4

/-- The contention that BALLOC of a pool is charged (R280). -/
def State.ballocCharge (s : State) (p : Nat) : Nat := ceilDiv ((128 * (s.userFronds p).length + 1) * 2) 4

/-- The check of the code of an image in the configuration in force: the bounds of its entries, of its init entry, and the first failure as
(code, halfword). -/
def State.checkCode (s : State) (im : Image) : List Nat × Nat × Option (Nat × Nat) :=
  let c : BoundCtx := ⟨halfwords im.code, im.proc.map (fun p => p.toNat), 0, s.tickSlots, s.cqwCharge im.fronds, s.ballocCharge⟩
  let es := im.entries.map (fun e => (⟨0, e.family, e.addr.toNat, e.evmask.toNat⟩ : Root))
  let ini : List Root := match im.init with
    | some x => if x.entry = 0xFFFF then [] else [⟨1, 8, x.entry, x.evmask.toNat⟩]
    | none => []
  let ts := im.tasks.map (fun t => (⟨2, 8, t.entry.toNat, t.evmask.toNat⟩ : Root))
  let base := match im.init with | some x => x.evbase | none => 0
  let r := boundCheck c base (es ++ ini ++ ts)
  (r.1.take es.length, if ini.isEmpty then 0 else nth 0 r.1 es.length, r.2)

/-- Code 26: the first entry whose computed bound differs from the declared one. -/
def mismatchBad (b : List Byte) (im : Image) : Option Nat :=
  let base := match segOf b 3 with | some g => g.off | none => 0
  firstBad (im.entries.zipIdx.map (fun e => (decide (e.1.bound ≠ e.1.declared), base + 16 * e.2 + 8)))

/-! ### Codes 25 and 27 to 32 -/

/-- Code 25: an entry that a committed image on another frond declares in another family. -/
def State.conflictBad (s : State) (b : List Byte) (im : Image) : Option Nat :=
  let base := match segOf b 3 with | some g => g.off | none => 0
  let clash (e : EntryRec) : Bool := (upTo 16).any (fun f => !im.fronds.testBit f &&
    (match s.epRecord f e.ep with | some r => decide (r.family ≠ e.family) | none => false))
  firstBad (im.entries.zipIdx.map (fun e => (clash e.1, base + 16 * e.2)))

/-- The fit's view of the fronds with an image: in its place in LOAD, beside the committed one in a live change (R161). -/
def State.viewWith (s : State) (im : Image) : List FitFrond :=
  (upTo 16).map (fun f =>
    if im.fronds.testBit f then
      if s.mode = .load then ⟨fitCap im.roles (s.coreDown f), im.entries⟩
      else let x := s.fitFrond f; { x with entries := x.entries ++ im.entries }
    else s.fitFrond f)

/-- The offset of an entry's record in an image; 0 where it has none. -/
def entryOffset (b : List Byte) (im : Image) (e : Nat) : Nat :=
  match segOf b 3, im.entries.findIdx? (fun r => decide (r.ep = e)) with
  | some g, some j => g.off + 16 * j
  | _, _ => 0

/-- Code 27 (DEADLINE) and code 28 (LEDGER). -/
def State.capacityBad (s : State) (b : List Byte) (im : Image) : Option (Nat × Nat) :=
  let v := s.viewWith im
  let es := s.fitEntries v
  match es.find? (fun e => !s.fitPass (s.fitOf v e)) with
  | some e => some (27, entryOffset b im e)
  | none => (es.find? (fun e => !s.ledgerPass (s.fitOf v e))).map (fun e => (28, entryOffset b im e))

/-- Does the idle bank of frond f still serve spores dispatched before the last swap (R166 step 4)? -/
def State.bankBusy (s : State) (f : Nat) : Bool :=
  (frondTids f).any (fun t =>
    let th := s.thr t
    let bk := (s.core (coreKey t)).bankB
    decide (th.role = .packet) && ((decide (th.run ≠ .idle) && decide (th.bank ≠ bk)) ||
      [th.spore0, th.spore1].any (fun o => match o.bind (fun i => s.spore i) with | some x => decide (x.bank ≠ bk) | none => false)))

/-- Codes 29 to 31, for a live change; code 32. -/
def State.liveBad (s : State) (b : List Byte) (im : Image) : Option (Nat × Nat) :=
  let fs := maskFronds im.fronds
  let seg (ty : Nat) : Option Nat := (segOf b ty).map (fun g => segAt g.idx)
  let other := fs.any (fun f => match s.liveImage f with | some x => decide (x.roles ≠ im.roles) | none => true)
  let content : Option Nat := match seg 6, seg 7, seg 5 with
    | some o, _, _ => some o
    | _, some o, _ => some o
    | _, _, some o => some o
    | _, _, _ => if other then some ((segOf b 4).elim 0 (fun g => g.off)) else none
  let tcb : Option Nat :=
    if im.roles.any (fun r => r.resident) then
      firstBad (im.tasks.zipIdx.map (fun e => (decide (1008 ≤ e.1.id), (segOf b 7).elim 0 (fun g => g.off) + 8 * e.2)))
    else none
  if s.mode = .run then
    match content with
    | some o => some (29, o)
    | none =>
      if fs.any (fun f => (s.frond f).staged || (s.frond f).armed) then some (30, 16)
      else if fs.any (fun f => s.bankBusy f) then some (31, 16)
      else tcb.map (fun o => (32, o))
  else tcb.map (fun o => (32, o))

/-! ### The whole check -/

/-- The bytes of the staging area, read once (R154); none where it cannot be read. -/
def State.stagingBytes (s : State) : Option (List Byte) :=
  let a := s.reg64 Reg.MGT_LD_ADDR_LO Reg.MGT_LD_ADDR_HI % 2 ^ 48
  let n := s.regF Reg.MGT_LD_LEN 22 0
  let place : Bool := match regionOf a with | .dram => true | .common => true | _ => false
  if n ≤ 4194304 ∧ place ∧ s.dmaReads a n ∧ !s.dramWaits a ∧ !s.readRetired a then some (s.bytes a n) else none

/-- What the check finds: the image with its bounds once they are computed, its bytes, and the first failure as (code, offset). -/
structure Checked where
  image : Option Image
  bytes : List Byte
  bad : Option (Nat × Nat)
  deriving DecidableEq, Repr

/-- The checks that need the bounds (codes 25 to 32). -/
def State.checkRest (s : State) (b : List Byte) (im : Image) : Option (Nat × Nat) :=
  match s.conflictBad b im with
  | some o => some (25, o)
  | none => match mismatchBad b im with
    | some o => some (26, o)
    | none => match s.capacityBad b im with
      | some e => some e
      | none => s.liveBad b im

/-- The checks before the code (codes 2 to 9). -/
def State.checkForm (s : State) (b : List Byte) : Option (Nat × Nat) :=
  match formatBad b b.length with
  | some o => some (2, o)
  | none => match crcBad b with
    | some o => some (3, o)
    | none => match s.sigBad b with
      | some e => some e
      | none => match sizesBad b with
        | some o => some (7, o)
        | none => match rolesBad b with
          | some o => some (8, o)
          | none => (s.sharesBad b).map (fun o => (9, o))

/-- The check of the image in the staging area, in the order of Table 06-7 (R156). -/
def State.checkImage (s : State) : Checked :=
  match s.stagingBytes with
  | none => ⟨none, [], some (2, 0)⟩
  | some b =>
    match s.checkForm b with
    | some e => ⟨none, b, some e⟩
    | none =>
      let r := s.checkCode (imageOf b [] 0)
      match r.2.2 with
      | some e => ⟨none, b, some (e.1, 2 * e.2)⟩
      | none =>
        let im := imageOf b r.1 r.2.1
        ⟨some im, b, s.checkRest b im⟩

/-! ### The report (R163, Table 06-8) -/

/-- The report record of an entry. -/
def State.reportRec (s : State) (v : List FitFrond) (e : EntryRec) : List Byte :=
  let x := s.fitOf v e.ep
  let ctl := decide (e.family = 0)
  let ok := s.fitPass x
  let sum := x.q + x.g
  let margin : Int := (s.tickSlots : Int) - (sum + e.bound : Nat)
  [BitVec.ofNat 8 e.ep, BitVec.ofNat 8 e.family] ++ leBytes 2 (if ctl then 1 + (if ok then 2 else 0) else 0) ++ leBytes 4 e.bound
    ++ leBytes 4 (if ctl then sum else 0) ++ leBytes 4 (if ctl then (BitVec.ofInt 32 margin).toNat else 0)

/-- The report's records: one per entry point, then that of the init entry. DESIGN CHOICE (log entry 20): the init entry, which has neither
number nor family, is recorded as entry 0 of family 0xFF. -/
def State.reportRecs (s : State) (im : Image) : List (List Byte) :=
  let v := s.viewWith im
  let ini : List (List Byte) := match im.init with
    | some x => if x.entry = 0xFFFF then [] else [[0, 0xFF] ++ leBytes 2 4 ++ leBytes 4 im.initBound ++ leBytes 8 0]
    | none => []
  im.entries.map (fun e => s.reportRec v e) ++ ini

/-- Writes a report where MGT_LD_RPT names a 16-byte-aligned place in fitted DRAM or common memory. -/
def State.writeReport (s : State) (result reason offset : Nat) (recs : List (List Byte)) : State :=
  let a := s.reg64 Reg.MGT_LD_RPT_LO Reg.MGT_LD_RPT_HI % 2 ^ 48
  let b := leBytes 4 result ++ leBytes 4 reason ++ leBytes 4 offset ++ leBytes 4 recs.length ++ recs.flatten
  let place : Bool := match regionOf a with | .dram => !s.dramWaits a | .common => true | _ => false
  if a % 16 = 0 ∧ place ∧ s.dmaReads a b.length then s.devWrite a b else s

end Sys2Proof.Machine
end

