-- ==== Sys2Proof/Machine/Loader.lean ====
section
/-! DEFINITION. The loading commands (R152 to R155), the live program change (R166 to R168) and the resident services (R169, R170). -/

namespace Sys2Proof.Machine

/-! ### Writing an image -/

/-- The non-resident cores of a frond. -/
def State.userCores (s : State) (f : Nat) : List Nat := (upTo 16).filter (fun c => !(s.core (f * 16 + c)).resident)

/-- Writes code into a bank of a core. -/
def State.writeBank (s : State) (f c : Nat) (bankB : Bool) (code : List Byte) : State := s.setBytes (iramBase f c bankB) code

/-- Writes an image into the idle banks of frond f and its copy into the loader's memory (R153, R155). -/
def State.writeIdle (s : State) (f : Nat) (im : Image) : State :=
  let s := (s.userCores f).foldl (fun s c => s.writeBank f c (!(s.core (f * 16 + c)).bankB) im.code) s
  s.modFrond f (fun fr => { fr with imgIdle := some im })

/-- The role and pinned bit of thread t of a core record. -/
def roleOf (r : CoreRole) (t : Nat) : Role := if r.role t = 1 then .packet else if r.role t = 2 then .task else .idle

/-- Core c of frond f takes its role record (R143, R144). -/
def State.applyRole (s : State) (f c : Nat) (r : CoreRole) : State :=
  let k := f * 16 + c
  let s := s.setCore k { s.core k with elastic := r.elastic, dynamic := r.dynamic, resident := r.resident, patched := false }
  let s := s.setReg (Reg.CORE_SLOTMODE f c) (wd ((if r.elastic then 1 else 0) + (if r.dynamic then 2 else 0)))
  (upTo 8).foldl (fun s t => s.modThr (mkTid f c t) (fun th => { th with role := roleOf r t, pinned := r.pinned.testBit t })) s

/-- A DATA segment is written for a frond: to the D-RAM of every core, or to the memory its target names. -/
def State.applyData (s : State) (f : Nat) (d : DataSeg) : State :=
  if d.target.toNat < 0x10000 then (upTo 16).foldl (fun s c => s.setBytes (dmemBase f c + d.target.toNat) d.bytes) s
  else s.setBytes (viewDev (mkTid f 0 0) d.target.toNat) d.bytes

/-- A TASK record is written into its control block, and readied where it says so (R188). -/
def State.applyTask (s : State) (f : Nat) (r : TaskRec) : State :=
  let a := s.tcbAddr f r.id
  let s := (s.setWord a (wd (r.prio * 16))).setWord (a + 4) (wd r.entry.toNat)
  let s := s.setBytes (a + 56) (leBytes 2 r.evmask.toNat)
  if r.ready then (s.tready f r.id).1 else s

/-- Every TCB of a frond DORMANT with its other header bits 0, then the TASK records in order (R188). -/
def State.applyTasks (s : State) (f : Nat) (ts : List TaskRec) : State :=
  let s := s.modFrond f (fun fr => { fr with tasks := [], ready := [] })
  let s := (upTo 1024).foldl (fun s i => s.setWord (s.tcbAddr f i) 0) s
  ts.foldl (fun s r => s.applyTask f r) s

/-- The tasks of newly loaded resident services, in control blocks 1,008 to 1,023 (R169): the resident image, whose content the spec does not
give, says which blocks they use, and how (log entry 22). -/
def serviceTasks (new : Nat) : List TaskRec :=
  (upTo 16).filterMap (fun i =>
    let r := (Config.serviceTask new i).toNat
    if r % 2 = 0 then none
    else some ⟨1008 + i, r / 2 % 32, r.testBit 6, BitVec.ofNat 13 (r / 128), BitVec.ofNat 16 (r / 2 ^ 20) ||| 1⟩)

/-- The tasks of new resident services start on a frond. -/
def State.startServices (s : State) (f new : Nat) : State :=
  let ts := serviceTasks new
  let s := s.modFrond f (fun fr => { fr with
    residentTasks := fr.residentTasks.filter (fun r => !ts.any (fun u => decide (u.id = r.id))) ++ ts })
  ts.foldl (fun s r => s.applyTask f r) s

/-- The resident services of a frond are removed; OWNER clears with the time service (R170, R23). DESIGN CHOICE (log entry 37):
PTP_STATUS.LOCKED keeps its last value, since only the service's servo changes it. -/
def State.dropServices (s : State) (f : Nat) : State :=
  let time := (s.frond f).services.testBit 0
  let s := s.modFrond f (fun fr => { fr with services := 0, residentTasks := [] })
  if time then s.setReg Reg.PTP_CTRL (setBit (s.reg Reg.PTP_CTRL) 0 false) else s

/-- Makes the idle banks of frond f's non-resident cores active. -/
def State.flipBanks (s : State) (f : Nat) : State :=
  let s := s.modFrond f (fun fr => { fr with imgLive := fr.imgIdle, imgIdle := fr.imgLive })
  (s.userCores f).foldl (fun s c => s.setCore (f * 16 + c) { s.core (f * 16 + c) with bankB := !(s.core (f * 16 + c)).bankB }) s

/-- A commit in LOAD on one frond (R146, R153). -/
def State.commitFrond (s : State) (im : Image) (f : Nat) : State :=
  let s := s.dropServices f
  let s := (upTo 16).foldl (fun s c => s.setCore (f * 16 + c) { s.core (f * 16 + c) with resident := (nth ⟨0, 0, false, false, false⟩ im.roles c).resident }) s
  let s := (s.writeIdle f im).flipBanks f
  let s := im.roles.zipIdx.foldl (fun s e => s.applyRole f e.2 e.1) s
  let s := (frondTids f).foldl (fun s t => s.resetThread t) s
  let s := im.datas.foldl (fun s d => s.applyData f d) s
  let s := s.applyTasks f im.tasks
  s.modFrond f (fun fr => { fr with staged := false, armed := false })

/-- Shows the outcome of a command. -/
def State.loadStatus (s : State) (result reason offset : Nat) : State :=
  (s.setReg Reg.MGT_LD_STATUS (wd (result + reason * 256))).setReg Reg.MGT_LD_OFFSET (wd offset)

/-! ### CHECK and CHECK_AND_COMMIT -/

/-- Are images loaded in the mode (Table 06-6)? -/
def Mode.loads : Mode → Bool
  | .load => true
  | .run => true
  | _ => false

/-- Writes an image that passed: at once in LOAD, staged in RUN (R153). -/
def State.commitImage (s : State) (im : Image) : State × Nat :=
  let fs := maskFronds im.fronds
  if s.mode = .load then (fs.foldl (fun s f => s.commitFrond im f) s, 3)
  else (fs.foldl (fun s f => (s.writeIdle f im).modFrond f (fun fr => { fr with staged := true })) s, 4)

/-- CHECK and CHECK_AND_COMMIT (R152, R156). -/
def State.loadImage (s : State) (commit : Bool) : State :=
  if !s.mode.loads then s.loadStatus 2 1 0
  else
    let c := s.checkImage
    let recs := match c.image with | some im => s.reportRecs im | none => []
    match c.bad, c.image with
    | some e, _ => (s.writeReport 2 e.1 e.2 recs).loadStatus 2 e.1 e.2
    | none, some im =>
      let r := if commit then s.commitImage im else (s, 1)
      (r.1.writeReport r.2 0 0 recs).loadStatus r.2 0 0
    | none, none => s

/-! ### The swap -/

/-- Disarms the swap. -/
def State.disarm (s : State) : State :=
  { (upTo 16).foldl (fun s f => s.modFrond f (fun fr => { fr with armed := false })) s with swapArm := none }

/-- ARM_SWAP (R166 step 2, R34). DESIGN CHOICE (log entry 20): after PAST nothing is armed, a swap armed before included. -/
def State.armSwap (s : State) : State :=
  let t := s.reg64 Reg.MGT_SWAP_TICK_LO Reg.MGT_SWAP_TICK_HI % 2 ^ 48
  if s.mode ≠ .run then s.loadStatus 2 1 0
  else if !(upTo 16).any (fun f => (s.frond f).staged) then s.loadStatus 2 0 0
  else if t < s.tick + 2 then s.disarm.loadStatus 7 0 0
  else
    let s := (upTo 16).foldl (fun s f => s.modFrond f (fun fr => { fr with armed := fr.staged })) s
    let s := s.setReg Reg.MGT_SWAP_STATUS (setBit (s.reg Reg.MGT_SWAP_STATUS) 2 false)
    { s with swapArm := some (BitVec.ofNat 48 t) }.loadStatus 5 0 0

/-- CANCEL_SWAP (R167). DESIGN CHOICE (log entry 20): with nothing armed it has no effect and RESULT reads 0, since no RESULT code is named DONE. -/
def State.cancelSwap (s : State) : State :=
  if s.mode ≠ .run then s.loadStatus 2 1 0
  else if s.swapArm.isSome then s.disarm.loadStatus 6 0 0
  else s.loadStatus 0 0 0

/-- Threads that go on in the new bank at a swap: TASK threads and idle PACKET threads (R33, R166). -/
def State.moveBanks (s : State) (f : Nat) : State :=
  (frondTids f).foldl (fun s t =>
    let th := s.thr t
    let moves : Bool := match th.role, th.run with
      | .task, _ => true
      | _, .idle => true
      | _, _ => false
    if moves then s.setThr t { th with bank := (s.core (coreKey t)).bankB } else s) s

/-- Boundary step 4 (R166, Table 18-7 event 12): the armed swap is performed at its tick. -/
def State.programSwap (s : State) : State :=
  match s.swapArm with
  | some t =>
    if t.toNat ≠ s.tick then s
    else
      let fs := (upTo 16).filter (fun f => (s.frond f).armed)
      let s := fs.foldl (fun s f => ((s.flipBanks f).moveBanks f).modFrond f (fun fr => { fr with staged := false, armed := false })) s
      let s := s.setReg Reg.MGT_SWAP_STATUS (setBit (s.reg Reg.MGT_SWAP_STATUS) 2 true)
      { s with swapArm := none }.postEvent 12 0 (wd (fs.map (fun f => 2 ^ f)).sum) s.tick32
  | none => s

/-- MGT_SWAP_STATUS as read. -/
def State.swapStatus (s : State) : Word :=
  let fs (p : Nat → Bool) : List Nat := (upTo 16).filter p
  let busy := fs (fun f => s.bankBusy f)
  let st := fs (fun f => (s.frond f).staged || (s.frond f).armed)
  let all := fs (fun f => busy.contains f || st.contains f)
  wd ((all.map (fun f => 2 ^ (16 + f))).sum + (if busy.isEmpty then 0 else 8) + s.regF Reg.MGT_SWAP_STATUS 2 2 * 4
    + (if s.swapArm.isSome then 2 else 0) + (if st.isEmpty then 0 else 1))

/-! ### The resident services -/

/-- The resident cores of the device, as frond × 16 + core. -/
def State.residentCores (s : State) : List Nat := (upTo 256).filter (fun k => (s.core k).resident)

/-- LOAD_RESIDENT (R169): the services not yet loaded go onto every resident core; their code comes from ROM. -/
def State.loadResident (s : State) (services : Nat) : State :=
  let ks := s.residentCores
  if s.mode ≠ .load then s.loadStatus 2 1 0
  else if ks.isEmpty ∨ ks.any (fun k => (coreTids k).any (fun t => decide ((s.thr t).role ≠ .task))) then s.loadStatus 2 8 0
  else
    let loaded := (upTo 16).foldl (fun n f => Nat.lor n (s.frond f).services) 0
    let new := Nat.land services (7 - Nat.land loaded 7)
    let s := ks.foldl (fun s k => s.setBytes (iramBase (k / 16) (k % 16) (s.core k).bankB) (s.bytes 0x805000000000 0x4000)) s
    let fs := (upTo 16).filter (fun f => ks.any (fun k => decide (k / 16 = f)))
    let s := fs.foldl (fun s f => (s.modFrond f (fun fr => { fr with services := Nat.lor fr.services new })).startServices f new) s
    let s := if services.testBit 0 then s.setReg Reg.PTP_CTRL (setBit (s.reg Reg.PTP_CTRL) 0 true) else s
    s.loadStatus 3 0 0

/-! ### MGT_LD_CMD -/

/-- A write of MGT_LD_CMD (R152): the command runs to its end; a code that Table 06-6 does not list is refused with reason MODE, and
0 is no command. -/
def State.loadCmd (s : State) (v : Word) : State :=
  let s := s.setReg Reg.MGT_LD_CMD (v &&& 0x70F#32)
  match fld v 3 0 with
  | 0 => s
  | 1 => s.loadImage false
  | 2 => s.loadImage true
  | 3 => s.armSwap
  | 4 => s.cancelSwap
  | 5 => s.loadResident (fld v 10 8)
  | _ => s.loadStatus 2 1 0

/-! ### R220: the fit at the transition from LOAD to RUN -/

/-- A frond's committed image with the bounds of the configuration in force. -/
def State.rebound (s : State) (f : Nat) : FitFrond :=
  match s.liveImage f with
  | none => ⟨0, []⟩
  | some im =>
    let b := (s.checkCode im).1
    ⟨fitCap im.roles (s.coreDown f), im.entries.zipIdx.map (fun (e : EntryRec × Nat) => { e.1 with bound := nth 0 b e.2 })⟩

/-- The first CONTROL entry whose fit or ledger entry fails with the configuration in force (R220). -/
def State.reboundFail (s : State) : Option Nat :=
  let v := (upTo 16).map (fun f => s.rebound f)
  (s.fitEntries v).find? (fun e => let x := s.fitOf v e; !(s.fitPass x && s.ledgerPass x))

/-- The report of R220 names the entry point that failed. -/
def State.reboundReport (s : State) (e : Nat) : State :=
  let v := (upTo 16).map (fun f => s.rebound f)
  let x := s.fitOf v e
  s.writeReport 2 (if s.fitPass x then 28 else 27) 0 [s.reportRec v ⟨e, 0, 0, 0, 0, x.b⟩]

end Sys2Proof.Machine
end

