-- ==== Sys2Proof/Machine/Publish.lean ====
section
/-! DEFINITION. Publications (R359 to R363, R532) and service addresses (R364). -/

namespace Sys2Proof.Machine

/-! ### Structures in common memory (Tables 14-9 to 14-11) -/

/-- The size of common memory in bytes (Table 18-3). -/
def commonSize : Nat := 0x800000

/-- A byte of common memory by its offset. -/
def State.comByte (s : State) (o : Nat) : Byte := s.sram (commonBase + o)
/-- n bytes of common memory. -/
def State.comBytes (s : State) (o n : Nat) : List Byte := (upTo n).map (fun i => s.comByte (o + i))
/-- A word of common memory. -/
def State.comWord (s : State) (o : Nat) : Word := wd (leNat (s.comBytes o 4))

/-- The size of a field's encoding in bytes (Table 14-11). -/
def encSize (enc : Nat) : Nat := nth 0 [1, 2, 2, 4, 4, 8, 8, 4, 8] enc

/-- One DataSetMessage of a set: writer, field entries as words, and whether its record is well placed. -/
structure PubMsg where
  writer : Nat
  fields : List Word
  recOk : Bool
  placed : Bool
  deriving DecidableEq, Repr

/-- The DataSetMessages of a set's record as they stand in common memory. -/
def State.pubMsgs (s : State) (w : List Word) : List PubMsg :=
  let doff := fld (nth 0 w 5) 22 0
  (upTo (fld (nth 0 w 0) 9 5 + 1)).map (fun i =>
    let r0 := s.comWord (doff + 8 * i)
    let r1 := s.comWord (doff + 8 * i + 4)
    let n := fld r0 25 16 + 1
    let foff := fld r1 22 0
    ⟨fld r0 15 0, (upTo n).map (fun k => s.comWord (foff + 4 * k)), decide (fld r0 31 26 = 0) && decide (fld r1 31 23 = 0),
      decide (foff % 4 = 0) && decide (foff + 4 * n ≤ commonSize)⟩)

/-- Has a field entry no nonzero reserved bit and a defined ENC (R359)? -/
def fieldOk (e : Word) : Bool := decide (fld e 31 23 = 0) && decide (fld e 22 19 ≤ 8)

/-- The size of a DataSetMessage (Table 14-12). -/
def PubMsg.size (m : PubMsg) (ts : Bool) : Nat := (if ts then 14 else 5) + (m.fields.map (fun e => encSize (fld e 22 19))).sum

/-- The length of the header of a NetworkMessage up to its first DataSetMessage. -/
def pubHeadLen (wide : Bool) (n : Nat) : Nat := (if wide then 6 else 4) + 5 + 1 + 2 * n + (if 1 < n then 2 * n else 0)

/-- The frame length without FCS of R361: template and NetworkMessage, padded to 60 bytes. -/
def pubLen (w : List Word) (ms : List PubMsg) : Nat :=
  let w0 := nth 0 w 0
  let n := fld (nth 0 w 4) 30 24 + pubHeadLen (bit w0 4) ms.length + (ms.map (fun m => m.size (bit w0 1))).sum
  if n < 60 then 60 else n

/-- The template of a set as it stands. -/
def State.pubTemplate (s : State) (w : List Word) : List Byte := s.comBytes (fld (nth 0 w 4) 22 0) (fld (nth 0 w 4) 30 24)

/-- Where a template holds its IP header (0 for Ethernet transport), or none where its required bytes are not found (R532). -/
def pubLocate (transport : Nat) (t : List Byte) : Option Nat :=
  let n := t.length
  if transport = 0 then (if beAt t (n - 2) 2 = 0xB62C then some 0 else none)
  else if transport = 2 then
    (if 62 ≤ n ∧ beAt t (n - 50) 2 = 0x86DD ∧ byteAt t (n - 48) / 16 = 6 then some (n - 48) else none)
  else
    let k := (upTo 16).find? (fun k => decide (5 ≤ k) && decide (14 + 8 + 4 * k ≤ n) && decide (byteAt t (n - 8 - 4 * k) = 0x40 + k))
    match k with
    | none => none
    | some k => let h := n - 8 - 4 * k; if beAt t (h - 2) 2 = 0x0800 then some h else none

/-- Do the type bytes at the recorded position still hold what R532 requires (R363)? -/
def pubTypeOk (transport : Nat) (t : List Byte) (pos : Nat) : Bool :=
  if transport = 0 then decide (beAt t (t.length - 2) 2 = 0xB62C)
  else if transport = 2 then decide (beAt t (pos - 2) 2 = 0x86DD)
  else decide (beAt t (pos - 2) 2 = 0x0800)

/-- Are the reserved bits of a set's record 0 (Table 14-9)? -/
def pubClean (w : List Word) : Bool :=
  decide (fld (nth 0 w 0) 15 10 = 0) && decide (fld (nth 0 w 3) 31 16 = 0) && !bit (nth 0 w 4) 31 && !bit (nth 0 w 4) 23
    && decide (fld (nth 0 w 5) 31 23 = 0) && decide (fld (nth 0 w 6) 31 16 = 0)

/-- The status of a commit of record w: 0 OK, 1 BAD, 2 RANGE (R359). -/
def State.pubCheck (s : State) (w : List Word) : Nat :=
  let w0 := nth 0 w 0
  let period := fld (nth 0 w 2) 31 16
  let toff := fld (nth 0 w 4) 22 0
  let tlen := fld (nth 0 w 4) 30 24
  let doff := fld (nth 0 w 5) 22 0
  let ms := s.pubMsgs w
  if !pubClean w then 1
  else if !bit w0 0 then 0
  else if !bit w0 4 ∧ fld (nth 0 w 1) 31 16 ≠ 0 then 1
  else if fld w0 3 2 = 3 ∨ period = 0 ∨ period ≤ fld (nth 0 w 3) 15 0 ∨ tlen < 14 ∨ 64 < tlen then 1
  else if toff % 8 ≠ 0 ∨ doff % 8 ≠ 0 ∨ commonSize < toff + tlen ∨ commonSize < doff + 8 * ms.length then 1
  else if !ms.all (fun m => m.recOk && m.placed && m.fields.all fieldOk) then 1
  else if pubLocate (fld w0 3 2) (s.pubTemplate w) = none ∨ 16380 < pubLen w ms then 1
  else if (s.queuePort (fld (nth 0 w 2) 15 0)).isNone then 2 else 0

/-- A write of SIG_PUB_DATA6 commits the set at SIG_PUB_IDX (R359). -/
def State.pubCommit (s : State) (v : Word) : State :=
  let i := s.regF Reg.SIG_PUB_IDX 11 0
  let w := (s.windowWords .pub i (Reg.SIG_PUB_DATA 0) 6) ++ [v]
  let s := s.clearStage (Reg.SIG_PUB_DATA 0) 8
  let st := s.pubCheck w
  if st = 0 then
    let valid := bit (nth 0 w 0) 0
    let len := if valid then pubLen w (s.pubMsgs w) else 0
    let pos := (if valid then pubLocate (fld (nth 0 w 0) 3 2) (s.pubTemplate w) else none).getD 0
    let s := s.setRecs .pub i 0 (w ++ [wd len])
    { s with sg.pubPos := Sparse.set (fun _ => 0) s.sg.pubPos i pos }.sigWstat 2 0
  else s.sigWstat 2 st

/-! ### Building (R360 to R362) -/

/-- Saturates an integer to n bits, signed or not. -/
def satInt (signed : Bool) (n : Nat) (v : Int) : Int :=
  let lo : Int := if signed then -(2 ^ (n - 1) : Nat) else 0
  let hi : Int := if signed then (2 ^ (n - 1) : Nat) - 1 else (2 ^ n : Nat) - 1
  if v < lo then lo else if hi < v then hi else v

/-- The integer that a view value of a TYPE stands for (R360): a FLOAT rounded toward zero, NaN 0, a BOOLEAN 0 or 1. -/
def valueInt (ty : Nat) (v : DWord) : Int :=
  if ty = 1 then v.toInt
  else if ty = 2 then (if f64Nan v.toNat then 0 else f64Trunc v.toNat)
  else if ty = 3 then (if v = 0 then 0 else 1)
  else v.toNat

/-- The binary32 pattern nearest to an integer. -/
def f32OfInt (v : Int) : Nat := (if v < 0 then 2 ^ 31 else 0) + roundMag32 (v.natAbs * 2 ^ 1074)

/-- A view value encoded (R360); sign and payload of the binary32 NaN that a NaN is narrowed to are free. -/
def State.encodeField (s : State) (ty enc : Nat) (v : DWord) : State × List Byte :=
  let x := v.toNat
  if enc = 0 then
    let zero : Bool := if ty = 2 then f64Nan x || decide (f64Mag x = 0) else decide (v = 0)
    (s, [if zero then 0 else 1])
  else if enc ≤ 6 then
    let n := encSize enc
    let y := satInt (decide (enc % 2 = 1)) (8 * n) (valueInt ty v)
    (s, leBytes n (BitVec.ofInt 64 y).toNat)
  else if enc = 7 then
    if ty = 2 then
      match f32Of x with
      | some b => (s, leBytes 4 b)
      | none => let r := s.draw; (r.2, leBytes 4 (quietNan32 r.1).toNat)
    else (s, leBytes 4 (f32OfInt (valueInt ty v)))
  else if ty = 2 then (s, leBytes 8 x)
  else (s, leBytes 8 (f64OfInt (valueInt ty v)))

/-- Encodes one field: its bytes and the quality class it is judged by (R360, R362). -/
def State.pubField (s : State) (e : Word) : State × List Byte × Nat :=
  let n := fld e 18 0
  let enc := fld e 22 19
  let x := s.sig n
  if !x.valid then (s, List.replicate (encSize enc) 0, 0)
  else
    let v := s.sigView n
    let r := s.encodeField x.type enc v.1
    (r.1, r.2, qClass v.2)

/-- DateTime of the tick's boundary (Table 14-12). -/
def State.pubTime (s : State) : Nat :=
  let t : Int := ((s.tk.last.getD 0).toNat : Int) - (s.regF Reg.SIG_PUB_UTCOFF 15 0 : Nat) * 1000000000
  (BitVec.ofInt 64 (t / 100 + 116444736000000000)).toNat

/-- The worse of two quality classes: 0 BAD, as which class 2 counts too (R344), 1 UNCERTAIN, else good. -/
def worseClass (a b : Nat) : Nat := if a = 0 ∨ b = 0 ∨ a = 2 ∨ b = 2 then 0 else if a = 1 ∨ b = 1 then 1 else 3

/-- Builds one DataSetMessage with sequence number q: its bytes, the place of its Status in it, its worst quality class. -/
def State.pubMsg (s : State) (m : PubMsg) (ts : Bool) (q : Nat) : State × List Byte × Nat × Nat :=
  let r := m.fields.foldl (fun (a : State × List Byte × Nat) e =>
    let b := a.1.pubField e
    (b.1, a.2.1 ++ b.2.1, worseClass a.2.2 b.2.2)) (s, [], 3)
  let head : List Byte := if ts then [0x9B, 0x10] ++ leBytes 2 q ++ leBytes 8 s.pubTime else [0x1B] ++ leBytes 2 q
  (r.1, head ++ [0, 0] ++ r.2.1, head.length, r.2.2)

/-- The header of the NetworkMessage (Table 14-12). -/
def pubHead (w : List Word) (ms : List PubMsg) (q : Nat) : List Byte :=
  let w0 := nth 0 w 0
  let wide := bit w0 4
  let ids := ms.flatMap (fun m => leBytes 2 m.writer)
  let sizes := if 1 < ms.length then ms.flatMap (fun m => leBytes 2 (m.size (bit w0 1))) else []
  [0xF1, if wide then 2 else 1] ++ leBytes (if wide then 4 else 2) (nth 0 w 1).toNat ++ [0x09] ++ leBytes 2 (fld w0 31 16) ++ leBytes 2 q
    ++ [BitVec.ofNat 8 ms.length] ++ ids ++ sizes

/-- The record of set i. -/
def State.pubRec (s : State) (i : Nat) : List Word := (upTo 8).map (fun k => s.recW .pub i k)

/-- Is set i due in tick n (R362)? -/
def State.pubDue (s : State) (i n : Nat) : Bool :=
  let p := s.recF .pub i 2 31 16
  decide (s.recF .pub i 0 0 0 = 1) && decide (n % p = s.recF .pub i 3 15 0)

/-- The sets due in tick n, in number order. -/
def State.pubsDue (s : State) (n : Nat) : List Nat :=
  s.recs.filterMap (fun e =>
    let i := e.1 / 64 % 2 ^ 20
    if e.1 / 64 / 2 ^ 20 = RecKind.pub.num ∧ e.1 % 64 = 0 ∧ s.pubDue i n then some i else none)

/-- Builds set i (R362), or skips it (R363, Table 02-3 item 1). -/
def State.pubBuild (s : State) (i : Nat) : State :=
  let w := s.pubRec i
  let w0 := nth 0 w 0
  let ms := s.pubMsgs w
  let t := s.pubTemplate w
  let pos := Sparse.get (fun _ => 0) s.sg.pubPos i
  let bad := s.sg.built.any (fun b => decide (b.set = i) && b.late) || !pubTypeOk (fld w0 3 2) t pos
    || !ms.all (fun m => m.fields.all fieldOk) || decide (pubLen w ms ≠ fld (nth 0 w 7) 13 0)
  if bad then s.bump Reg.SIG_PUB_SKIPPED
  else
    let q := fld (nth 0 w 6) 15 0
    let base := t ++ pubHead w ms q
    let r := ms.foldl (fun (a : State × List Byte × List (Nat × Nat)) m =>
      let b := a.1.pubMsg m (bit w0 1) q
      (b.1, a.2.1 ++ b.2.1, a.2.2 ++ [(a.2.1.length + b.2.2.1, b.2.2.2)])) (s, base, [])
    let s := r.1.setRec .pub i 6 (wd ((q + 1) % 65536))
    let b : Built := { set := i, queue := fld (nth 0 w 2) 15 0, transport := fld w0 3 2, ip := pos, msg := t.length,
                       bytes := r.2.1, stats := r.2.2, late := false }
    { s with sg.built := s.sg.built ++ [b] }

/-! ### Queueing (R362, R363) -/

/-- The ones' complement sum of 16-bit words, a last odd byte padded with 0. -/
def onesSum (bs : List Byte) : Nat :=
  (upTo (ceilDiv bs.length 2)).foldl (fun a i => onesAdd a (byteAt bs (2 * i) * 256 + byteAt bs (2 * i + 1))) 0

/-- The Status of a DataSetMessage (R362). -/
def pubStatus (cls : Nat) (late : Bool) : Nat := if cls = 0 then 0x8000 else if late then 0x4090 else if cls = 1 then 0x4000 else 0

/-- The finished frame: statuses, lengths, checksums and padding (R361 to R363). -/
def Built.finish (b : Built) : List Byte :=
  let bs := b.stats.foldl (fun bs e => patch bs e.1 (leBytes 2 (pubStatus e.2 b.late))) b.bytes
  let udp := b.msg - 8
  let n := bs.length
  let bs :=
    if b.transport = 1 then
      let bs := patch bs (b.ip + 2) (beBytes 2 (n - b.ip))
      let bs := patch bs (b.ip + 10) [0, 0]
      let bs := patch bs (b.ip + 10) (beBytes 2 (65535 - onesSum (slice bs b.ip (udp - b.ip))))
      patch (patch bs (udp + 4) (beBytes 2 (n - udp))) (udp + 6) [0, 0]
    else if b.transport = 2 then
      let bs := patch bs (b.ip + 4) (beBytes 2 (n - b.ip - 40))
      let bs := patch (patch bs (udp + 4) (beBytes 2 (n - udp))) (udp + 6) [0, 0]
      let pseudo := slice bs (b.ip + 8) 32 ++ beBytes 4 (n - udp) ++ [0, 0, 0, 17]
      let c := 65535 - onesSum (pseudo ++ bs.drop udp)
      patch bs (udp + 6) (beBytes 2 (if c = 0 then 65535 else c))
    else bs
  padTo 60 bs

/-- The oldest built publication that finds room in the injection reservation is queued (R264, R362). Messages leave in build
order. -/
def State.pubQueue (s : State) : State :=
  match s.sg.built with
  | [] => s
  | b :: rest =>
    let f := b.finish
    if s.injectRoom (cellsOf f.length) then
      let s := ({ s with sg.built := rest }.injectFrame f b.queue false).bumpWrap Reg.SIG_PUB_SENT
      if b.late then s.bump Reg.SIG_PUB_STALE else s
    else s

/-! ### Service addresses (R364) -/

/-- A write of SIG_SVC_DATA7 commits the service address at SIG_SVC_IDX; a 1 in a reserved bit is ignored (R509). -/
def State.svcCommit (s : State) (v : Word) : State :=
  let i := s.regF Reg.SIG_SVC_IDX 3 0
  let w := (s.windowWords .svc i (Reg.SIG_SVC_DATA 0) 7) ++ [v]
  let s := s.clearStage (Reg.SIG_SVC_DATA 0) 8
  let w := setNth (setNth w 0 (nth 0 w 0 &&& 0xFFFF#32)) 2 (nth 0 w 2 &&& 0xFFFF#32)
  (s.setRecs .svc i 0 w).sigWstat 3 0

end Sys2Proof.Machine
end

