-- ==== Sys2Proof/Machine/Abort.lean ====
section
/-! DEFINITION. Aborts, fences, degraded operation (R480 to R492) and the data-plane reset (R469). -/

namespace Sys2Proof.Machine

/-! ### Commands and frames that an abort ends -/

/-- Ends the running DMA and CHK commands of frond f that satisfy p with code FLUSHED, at a chunk boundary (Table 21-1). -/
def State.flushRunning (s : State) (f : Nat) (p : Cmd → Bool) : State :=
  let n := (s.frond f).running.length
  (upTo n).reverse.foldl (fun s i =>
    match (s.frond f).running[i]? with
    | some c =>
      match c.phase with
      | .started _ => if p c ∧ (c.kind = 1 ∨ c.kind = 2) then s.endCmd f i 0x47 (if c.kind = 1 then c.dmaResult else []) else s
      | _ => s
    | none => s) s

/-- Is a command the host's? -/
def Cmd.ofHost (c : Cmd) : Bool := match c.who with | .host _ => true | .thread _ _ _ => false

/-- Counts a frame discarded by an abort at the thread discard point (R482). -/
def State.abortDrop (s : State) (n : Nat) : State :=
  { s.bump Reg.RAS_ABORT_DROP n with sw.thrDrops := s.sw.thrDrops + n }

/-- A thread abort: counted for its running spore, unless the ordering unit has discarded that (R482). -/
def State.abortThread (s : State) (t : Tid) : State :=
  let live : Bool := match (s.thr t).curSpore.bind (fun i => s.spore i) with | some x => !x.dead | none => false
  (if live then s.bump Reg.RAS_ABORT_DROP else s).resetThread t

/-- A core abort. -/
def State.abortCore (s : State) (k : Nat) : State := (coreTids k).foldl (fun s t => s.abortThread t) s

/-- A frond abort (Table 21-1). -/
def State.abortFrond (s : State) (f : Nat) : State :=
  let s := (upTo 16).foldl (fun s c => s.abortCore (f * 16 + c)) s
  let s := ((s.flushQueued f Cmd.ofHost).flushRunning f Cmd.ofHost).reapFrames
  let s := (upTo 64).foldl (fun s c => s.emptyChan (f * 64 + c)) s
  match s.liveImage f with
  | some im => s.applyTasks f (im.tasks ++ (s.frond f).residentTasks)
  | none => s.applyTasks f []

/-- The ports of an extended or physical logical port's queues. -/
def State.portQueues (s : State) (p : Nat) : List Nat :=
  (s.sw.queues.map (fun e => e.1)).filter (fun q => match s.servePort q with | some (r, _) => decide (r = p) | none => false)

/-- A port abort (Table 21-1): the frame in transmission is cut, the port's queues are emptied, the port is held down. -/
def State.abortPort (s : State) (p : Nat) : State :=
  let x := s.port p
  let drop (s : State) (c : Copy) : State := (s.unref c.cell 1).abortDrop 1
  let s := match x.tx with | some y => drop (s.emit (.cutFrame p)) y.copy | none => s
  let s := match x.cut with | some y => drop s y.copy | none => s
  let qs := s.portQueues p
  let s := qs.foldl (fun s q =>
    let o := s.outq q
    (o.copies.foldl drop (s.setOutq q (o.leave []))).noteDepth q) s
  let on (q : Nat) : Bool := match s.servePort q with | some (r, _) => decide (r = p) | none => false
  let inj := s.sw.injWait.filter (fun e => on e.1)
  let s := inj.foldl (fun s e => drop s e.2) { s with sw.injWait := s.sw.injWait.filter (fun e => !on e.1) }
  let s := (s.setPort p { x with link := false, vstate := 0, pactive := false, pausedAll := false, pausedTicks := 0, tx := none, cut := none })
  let s := (upTo 8).foldl (fun s tc => s.creditEmpty p tc) s
  let r := if p < 32 then Reg.RAS_PORTHOLD_LO else Reg.RAS_PORTHOLD_HI
  let s := s.setReg r (setBit (s.reg r) (p % 32) true)
  { s with ct.downs := insNat s.ct.downs p }.residueRetry

/-! ### The data-plane reset (R469) -/

/-- Frames and spores the device holds: those in the receive FIFOs and those stored. -/
def State.framesHeld (s : State) : Nat := (s.sw.rx.map (fun e => e.2.length)).sum + s.sw.frames.length

/-- Does an offset lie in PRS, CLS, DSP, SWC, BPM, EGR, PORT or DBG telemetry (Table 23-4 class S)? -/
def dataPlaneReg (off : Nat) : Bool :=
  decide (0x100000 ≤ off ∧ off < 0x160000) || decide (0x200000 ≤ off ∧ off < 0x240000)

/-- Data-plane counters return to 0. -/
def State.clearDpCounters (s : State) : State :=
  { s with regs := (s.regs.map (fun e => e.1)).foldl (fun m off =>
      if dataPlaneReg off then
        Sparse.set regReset m off (Sparse.get regReset m off &&& ~~~(wd (satMask off)))
      else if 0x70104 ≤ off ∧ off < 0x70400 ∧ (off < 0x70300 ∨ off % 16 ≠ 0) then Sparse.set regReset m off 0
      else m) s.regs }

/-- A port with nothing to send. -/
def Port.idle (x : Port) : Port := { x with tx := none, cut := none, xoff := 0, dwrr := none }
/-- A class with nothing queued. -/
def PortClass.idle (x : PortClass) : PortClass := { x with credit := 0, deficit := 0, curQ := none }

/-- The data-plane reset: frames and spores discarded and counted, PACKET threads reset, channels emptied, the data plane idle. -/
def State.dpReset (s : State) : State :=
  let n := s.framesHeld
  let s := (s.bump Reg.MGT_DPR_DROP n).clearDpCounters
  let w := s.sw
  let s := { s with sw := { Switch.reset with
    ports := w.ports.map (fun (e : Nat × Port) => (e.1, e.2.idle))
    classes := w.classes.map (fun (e : Nat × PortClass) => (e.1, e.2.idle))
    pools := w.pools
    queues := w.queues.filterMap (fun (e : Nat × OutQ) => if e.2.profile = 0 then none else some (e.1, { OutQ.reset with profile := e.2.profile }))
    dpFenced := w.dpFenced
    violated := w.violated
    nextSpore := w.nextSpore
    thrDrops := n } }
  let s := (allTids.filter (fun t => decide ((s.thr t).role = .packet))).foldl (fun s t => s.resetThread t) s
  let s := (s.chans.map (fun e => e.1)).foldl (fun s k => s.emptyChan k) s
  let s := { s with sg := { s.sg with built := [], unbuilt := [] } }
  s.setReg Reg.MGT_RST_CAUSE (setBit (s.reg Reg.MGT_RST_CAUSE) 3 true)

/-- Is the mode one in which aborts and data-plane resets are accepted (R468, R480)? -/
def Mode.acceptsReset : Mode → Bool
  | .enumerate => false
  | .keep => false
  | _ => true

/-- A write of MGT_DP_RESET (R469). -/
def State.dpResetWrite (s : State) (v : Word) : State :=
  if fld v 7 0 ≠ 0xA5 then s.refuse Reg.MGT_DP_RESET v else if s.mode.acceptsReset then s.dpReset else s

/-- MGT_DP_RESET (R469). -/
def execMgtDpReset (v : Word) (s : State) : Host.Outcome State Fault Refusal := done (s.dpResetWrite v)

/-! ### Submission (R480 to R484) -/

/-- The bound of a target kind, in units of 10 ns (Table 21-1). -/
def abortBound (kind : Nat) : Nat := nth 0 [0, 2, 4, 16, 8, 4, 16, 8, 128, 128] kind * 100

/-- Does a target exist? -/
def abortExists (kind index : Nat) : Bool :=
  match kind with
  | 1 => decide (index < 2048)
  | 2 => decide (index < 256)
  | 3 => decide (index < 16)
  | 4 => decide (index < 128 ∧ index % 8 < 5)
  | 5 => decide (index < 4)
  | 6 => decide (index < 8)
  | 7 => decide (index < 8)
  | 8 => decide (index < 64)
  | 9 => decide (index = 0)
  | _ => false

/-- The frond that a target lies in. -/
def abortFrondOf (kind index : Nat) : Option Nat :=
  match kind with
  | 1 => some (index / 128)
  | 2 => some (index / 16)
  | 3 => some index
  | 4 => some (index / 8)
  | _ => none

/-- Is a target fenced already (R483)? -/
def State.isFenced (s : State) (kind index : Nat) : Bool :=
  match kind with
  | 1 => (s.core (index / 8)).fenced || (s.frond (index / 128)).fenced
  | 2 => (s.core index).fenced || (s.frond (index / 16)).fenced
  | 3 => (s.frond index).fenced
  | 4 => (s.frond (index / 8)).fencedKinds.testBit (index % 8)
  | 5 => s.tbl.fenced.testBit index
  | 6 => (s.bulk index).fenced
  | 7 => s.chRetired index
  | 8 => (s.port index).fenced
  | _ => s.sw.dpFenced

/-- What the abort of a target does (Table 21-1). -/
def State.abortUnit (s : State) (kind index : Nat) : State :=
  match kind with
  | 1 => s.abortThread (BitVec.ofNat 11 index)
  | 2 => s.abortCore index
  | 3 => s.abortFrond index
  | 4 =>
    let k (c : Cmd) : Bool := decide (c.kind = index % 8)
    ((s.flushQueued (index / 8) k).flushRunning (index / 8) k).reapFrames
  | 5 => match s.tbl.walk with
    | some w => ({ s with tbl.walk := none }).tblDone w.op ⟨0x47, none, 0, 0⟩
    | none => s
  | 6 => s.bulkStop index
  | 7 => s.retire index 4
  | 8 => s.abortPort index
  | _ => s.dpReset.bump Reg.RAS_ABORT_DROP s.framesHeld

/-- Does an abort complete at once: its unit is fenced already, or its frond's PLL is stopped (R481, R483)? -/
def State.abortsAtOnce (s : State) (kind index : Nat) : Bool :=
  (match abortFrondOf kind index with | some f => (s.frond f).pllOff | none => false) || s.isFenced kind index

/-- Writes REFUSED of MGT_ABORT_STAT. -/
def State.setRefused (s : State) (b : Bool) : State := s.setReg Reg.MGT_ABORT_STAT (setBit (s.reg Reg.MGT_ABORT_STAT) 28 b)

/-- MGT_ABORT_STAT once an abort that lasts `elapsed` units is complete. -/
def State.abortDone (s : State) (elapsed : Nat) (fenced : Bool) : State :=
  let st := s.reg Reg.MGT_ABORT_STAT
  s.setReg Reg.MGT_ABORT_STAT (setBit (setBit (setFld st 15 0 elapsed) 29 fenced) 30 true)

/-- Starts the abort of the unit that the MGT_ABORT_LO word `lo` names (R481, R482): what it does happens now, and how long it lasts is
not fixed but for its bound. -/
def State.abortStart (s : State) (lo : Word) : State :=
  let kind := fld lo 3 0
  let index := fld lo 15 4
  if s.abortsAtOnce kind index then ({ s with rs := { s.rs with last := none, cur := none } }).abortDone 0 false
  else
    let s := match abortFrondOf kind index with | some f => s.wakeFrond f | none => s
    let was := s.regF Reg.MGT_ABORT_STAT 15 0
    let r := (s.abortUnit kind index).draw
    let n := r.1.toNat % (abortBound kind + 1)
    let s := { r.2 with rs := { r.2.rs with last := some (kind, index), cur := some (s.tb.now + BitVec.ofNat 64 (n * 10), was) } }
    s.abortDone n false

/-- Is an abort in progress (MGT_ABORT_STAT.BUSY)? -/
def State.abortBusy (s : State) : Bool := match s.rs.cur with | some (e, _) => decide (s.tb.now.toNat < e.toNat) | none => false

/-- MGT_ABORT_STAT as read: while an abort is in progress it is not yet DONE, and ELAPSED is that of the abort before. -/
def State.abortStat (s : State) : Word :=
  let st := setFld (s.reg Reg.MGT_ABORT_STAT) 26 24 s.rs.waiting.length
  match s.rs.cur with
  | some (_, was) => if s.abortBusy then setBit (setBit (setFld st 15 0 was) 30 false) 31 true else st
  | none => st

/-- The controller takes up the abort that has waited longest, once it performs none (R484). -/
def State.abortNext (s : State) : State :=
  if s.abortBusy then s
  else match s.rs.waiting with
    | [] => s
    | lo :: rest => ({ s with rs := { s.rs with waiting := rest } }).abortStart lo

/-- Submits the abort that the MGT_ABORT_LO word `lo` names (R480, R484): it starts, or waits behind those before it, or is refused. -/
def State.abort (s : State) (lo : Word) : State :=
  if !s.mode.acceptsReset then (s.refuse Reg.MGT_ABORT_HI lo).setRefused true
  else if !abortExists (fld lo 3 0) (fld lo 15 4) ∨ 4 ≤ s.rs.waiting.length then s.setRefused true
  else (({ s with rs := { s.rs with waiting := s.rs.waiting ++ [lo] } }).setRefused false).abortNext

/-- A write of MGT_ABORT_HI (R480): KEY 0x5A submits, another value is ignored and logged. -/
def State.abortHi (s : State) (v : Word) : State :=
  let s := s.setReg Reg.MGT_ABORT_HI (v &&& 0x3FFF)
  if fld v 7 0 = 0x5A then s.abort (s.reg Reg.MGT_ABORT_LO) else s.refuse Reg.MGT_ABORT_HI v

/-- A chain ABORT submits its payload as LO and HI (R480, R452). -/
def State.chainAbort (s : State) (payload : List Byte) : State :=
  (s.setReg Reg.MGT_ABORT_LO (wd (leAt payload 0 4) &&& 0xFFFF)).abortHi (wd (leAt payload 4 4))

/-- The host writes a target to MGT_ABORT_LO and the key to MGT_ABORT_HI. -/
def State.hostAbort (s : State) (kind index : Nat) : State :=
  (s.setReg Reg.MGT_ABORT_LO (wd (index * 16 + kind))).abortHi 0x5A

/-- THREAD_ABORT (Table 21-1 kind 1). -/
def execThreadAbort (t : Tid) (s : State) : Host.Outcome State Fault Refusal := done (s.hostAbort 1 t.toNat)
/-- CORE_ABORT (Table 21-1 kind 2): frond × 16 + core. -/
def execCoreAbort (k : Fin 256) (s : State) : Host.Outcome State Fault Refusal := done (s.hostAbort 2 k.val)
/-- FROND_ABORT (Table 21-1 kind 3). -/
def execFrondAbort (f : Fin 16) (s : State) : Host.Outcome State Fault Refusal := done (s.hostAbort 3 f.val)
/-- COPROCESSOR_ABORT (Table 21-1 kind 4). -/
def execCoprocessorAbort (f : Fin 16) (k : Fin 5) (s : State) : Host.Outcome State Fault Refusal :=
  done (s.hostAbort 4 (f.val * 8 + k.val))
/-- TABLE_ENGINE_ABORT (Table 21-1 kind 5). -/
def execTableEngineAbort (q : Fin 4) (s : State) : Host.Outcome State Fault Refusal := done (s.hostAbort 5 q.val)
/-- BULK_CHANNEL_ABORT (Table 21-1 kind 6). -/
def execBulkChannelAbort (c : Fin 8) (s : State) : Host.Outcome State Fault Refusal := done (s.hostAbort 6 c.val)
/-- DRAM_CHANNEL_ABORT (Table 21-1 kind 7). -/
def execDramChannelAbort (c : Fin 8) (s : State) : Host.Outcome State Fault Refusal := done (s.hostAbort 7 c.val)
/-- PORT_ABORT (Table 21-1 kind 8). -/
def execPortAbort (p : Fin 64) (s : State) : Host.Outcome State Fault Refusal := done (s.hostAbort 8 p.val)
/-- DATA_PLANE_ABORT (Table 21-1 kind 9). -/
def execDataPlaneAbort (s : State) : Host.Outcome State Fault Refusal := done (s.hostAbort 9 0)

/-! ### Fences and degraded operation (R483, R489 to R491) -/

/-- Is the frond's spare serving a core (R489)? -/
def State.spareUsed (s : State) (f : Nat) : Bool :=
  (upTo 16).any (fun c => (s.core (f * 16 + c)).spareIn || (s.core (f * 16 + c)).spareDue)

/-- A core is fenced (R483, R489, R490): reason FENCED, with SPARE where the spare serves another core, and the fit is rerun. -/
def State.fenceCore (s : State) (k : Nat) : State :=
  let s := s.replaceAll ((if s.spareUsed (k / 16) then [0] else []) ++ [7])
  (s.setCore k { s.core k with fenced := true }).rerunFit

/-- A lane has failed (R491, Table 21-5): RAS event 10, reason LANE, its port's link down. -/
def State.laneFailed (s : State) (lane p : Nat) : State :=
  let s := (s.rasEvent 10 (wd lane) (wd p) 2).replace 5
  { s.setPort p { s.port p with link := false } with ct.downs := insNat s.ct.downs p }

/-- Fences the unit that an abort did not quiesce (R483). -/
def State.fence (s : State) (kind index : Nat) : State :=
  let s := s.rasEvent 7 (wd kind) (wd index) 2
  let s := if kind = 1 ∨ kind = 2 then s else s.replace 7
  match kind with
  | 1 => s.fenceCore (index / 8)
  | 2 => s.fenceCore index
  | 3 =>
    let s := (upTo 256).foldl (fun s e => s.setReg (Reg.DSP_EPSET e) (setBit (s.reg (Reg.DSP_EPSET e)) index false)) s
    (s.modFrond index (fun fr => { fr with fenced := true })).rerunFit
  | 4 => s.modFrond (index / 8) (fun fr => { fr with fencedKinds := Nat.lor fr.fencedKinds (2 ^ (index % 8)) })
  | 5 => { s with tbl.fenced := Nat.lor s.tbl.fenced (2 ^ index) }
  | 6 => s.setBulk index { s.bulk index with fenced := true }
  | 7 => s.retire index 4
  | 8 =>
    let s := s.setPort index { s.port index with fenced := true }
    (upTo (modeLanes (s.regF (Reg.PORT_CFG index) 3 0))).foldl (fun s i => s.laneFailed (index + i) index) s
  | _ => { s with sw.dpFenced := true }

/-- ABORT_FENCED (R483, R489, R490): the unit of the last abort has not quiesced at its bound; or an uncorrectable error is found in a
core's I-RAM or D-RAM; or corrected ones. -/
def execAbortFenced (cause : FenceCause) (s : State) : Host.Outcome State Fault Refusal :=
  done (match cause with
    | .bound =>
      match s.rs.last with
      | some (k, i) =>
        let s := { s with rs := { s.rs with last := none, cur := none } }
        ((s.abortDone (abortBound k) true).fence k i).abortNext
      | none => s
    | .coreError k addr =>
      if (s.core k.val).fenced then s
      else
        let s := (s.abortCore k.val).rasEvent 5 1 addr 1
        s.fenceCore k.val
    | .coreCorrected k n =>
      let c := s.core k.val
      let thr := s.regF Reg.RAS_CETHR 31 16
      let s := s.setCore k.val { c with ceCount := c.ceCount + n }
      if thr < c.ceCount + n ∧ c.ceCount ≤ thr then
        let s := (s.rasEvent 9 0 (wd k.val) 2).replace 1
        if c.fenced then s
        else if s.spareUsed (k.val / 16) then s.replace 0
        else s.setCore k.val { s.core k.val with spareDue := true }
      else s)

/-- Window 16 of a frond shows the failed core from its spare-in on (chapter 05, Table 18-3): its active bank and the bytes of its RAMs. -/
def State.showFailed (s : State) (f c : Nat) : State :=
  let base := iramBase f c false
  let from_ := s.mem.filter (fun e => decide (base ≤ e.1 ∧ e.1 < base + 0x40000))
  let s := s.setCore (ramCore f 16) { CoreUnit.reset with bankB := (s.core (f * 16 + c)).bankB, fenced := true }
  from_.foldl (fun s e => s.setSram (e.1 + (16 - c) * 0x40000) e.2) s

/-- The spare of frond f takes the identity of a failed core (R489): I-RAM from the loader's copy, D-RAM cleared and written with the
committed image's DATA segments, its threads as their roles say. -/
def State.spareTakes (s : State) (f c : Nat) : State :=
  let k := f * 16 + c
  let s := if (s.core k).fenced then s else s.abortCore k
  let s := s.showFailed f c
  let s := s.setCore k { s.core k with spareIn := true, fenced := false, spareDue := false, patched := false, ceCount := 0 }
  let bank (s : State) (b : Bool) : State := match s.bankImage k b with
    | some im => if (s.core k).resident then s else s.writeBank f c b im.code
    | none => s
  let s := bank (bank s false) true
  let base := dmemBase f c
  let s := { s with mem := Sparse.keep (fun a => decide (a < base) || decide (base + 0x10000 ≤ a)) s.mem }
  let s := match s.liveImage f with
    | some im => im.datas.foldl (fun (s : State) (d : DataSeg) =>
        if d.target.toNat < 0x10000 then s.setBytes (base + d.target.toNat) d.bytes else s) s
    | none => s
  let s := (coreTids k).foldl (fun s t => s.resetThread t) s
  (s.rasEvent 8 (wd f) (wd c) 0).rerunFit

/-- Boundary step 4 (R489): the spares that are due. -/
def State.spareSwap (s : State) : State :=
  (upTo 16).foldl (fun s f =>
    let due := (upTo 16).find? (fun c => let k := s.core (f * 16 + c); (k.fenced || k.spareDue) && !k.spareIn)
    match due with
    | some c => if (upTo 16).any (fun j => (s.core (f * 16 + j)).spareIn) then s else s.spareTakes f c
    | none => s) s

/-- A boundary ends the windows of RAS_CEWIN (R490, Table 21-5). -/
def State.ceTick (s : State) : State :=
  if (s.reg Reg.RAS_CEWIN).toNat ≤ s.rs.ceTicks + 1 then
    let s := { s with rs := { s.rs with ceTicks := 0, lanes := [] } }
    (s.cores.map (fun e => e.1)).foldl (fun s k => s.setCore k { s.core k with ceCount := 0 }) s
  else { s with rs := { s.rs with ceTicks := s.rs.ceTicks + 1 } }

/-- A write of 1 bits to RAS_PORTHOLD releases ports held down, except fenced ones (Table 21-1). -/
def State.portRelease (s : State) (r first : Nat) (v : Word) : State :=
  (upTo 32).foldl (fun s i =>
    if bit v i ∧ !(s.port (first + i)).fenced then s.setReg r (setBit (s.reg r) i false) else s) s

/-- RAS_PORTHOLD (R482): a write of RAS_PORTHOLD_LO, or of RAS_PORTHOLD_HI, releases held ports. -/
def execRasPorthold (p : Party) (hi : Bool) (v : Word) (s : State) : Host.Outcome State Fault Refusal :=
  done (if s.jtagShut p then s
    else if hi then s.portRelease Reg.RAS_PORTHOLD_HI 32 v else s.portRelease Reg.RAS_PORTHOLD_LO 0 v)

/-- At a junction temperature of RAS_THERM.LIMIT or above, RAS event 11 and reason THERMAL (R491). -/
def State.thermCheck (s : State) : State :=
  let temp : Byte := BitVec.ofNat 8 (s.regF Reg.RAS_THERM 31 24)
  let lim := s.regF Reg.RAS_THERM 7 0
  if (lim : Int) ≤ temp.toInt ∧ !s.regB Reg.RAS_REPLACE 6 then (s.rasEvent 11 (wd temp.toNat) (wd lim) 2).replace 6 else s

/-- THERMAL (R491): the junction temperature is `temp` °C. -/
def execThermal (temp : Byte) (s : State) : Host.Outcome State Fault Refusal :=
  done (s.setRegF Reg.RAS_THERM 31 24 temp.toNat).thermCheck

/-- The port that a lane serves. -/
def State.lanePort (s : State) (l : Nat) : Nat :=
  ((upTo 64).find? (fun p => s.portOn p && decide (p ≤ l ∧ l < p + modeLanes (s.regF (Reg.PORT_CFG p) 3 0)))).getD l

/-- Did the last poll of a lane's module report loss of signal, so that the partner's signal counts as absent (R520)? -/
def State.signalLost (s : State) (l : Nat) : Bool := (Sparse.get (fun _ => 0) s.rs.modules l).testBit 1

/-- MODULE_POLL (R520): the firmware polls the module that serves lane l for presence and loss of signal. -/
def execModulePoll (l : Fin 64) (present los : Bool) (s : State) : Host.Outcome State Fault Refusal :=
  done { s with rs := { s.rs with
    modules := Sparse.set (fun _ => 0) s.rs.modules l.val ((if present then 1 else 0) + (if los then 2 else 0)) } }

/-- LANE (R491): a lane fails calibration or loses lock for 1 s with its partner's signal present, or corrects FEC symbols. -/
def execLane (l : Fin 64) (e : LaneEvent) (s : State) : Host.Outcome State Fault Refusal :=
  done (match e with
    | .failed => if s.signalLost l.val then s else s.laneFailed l.val (s.lanePort l.val)
    | .corrected n =>
      let was := Sparse.get (fun _ => 0) s.rs.lanes l.val
      let thr := s.regF Reg.RAS_CETHR 15 0 * 1024
      let s := { s with rs := { s.rs with lanes := Sparse.set (fun _ => 0) s.rs.lanes l.val (was + n) } }
      if thr < was + n ∧ was ≤ thr then (s.rasEvent 9 2 (wd l.val) 2).replace 3 else s)

/-- RAS_STATUS as read. -/
def State.rasStatus (s : State) : Word := wd ((if s.alert then 2 ^ 31 else 0) + s.ras.length)

/-- RAS_LOG0 to RAS_LOG4 as read. -/
def State.rasWord (s : State) (i : Nat) : Word :=
  match s.ras with
  | [] => 0
  | r :: _ => nth 0 [wd (2 ^ 31 + r.severity * 2 ^ 28 + r.code), r.object, r.object2, r.tick, r.time] i

/-- A read of RAS_LOG4 removes the oldest record; DEV_ALERT_N follows (R486). -/
def State.rasPop (s : State) : State :=
  let was := s.alert
  ({ s with ras := s.ras.drop 1 }).alertPin was

end Sys2Proof.Machine
end

