-- ==== Sys2Proof/Machine/Flags.lean ====
section
/-! DEFINITION. Arithmetic results (R51, R82 to R84). No instruction sets a flag: a compare pushes 1 or 0. -/

namespace Sys2Proof.Machine

/-- The high word of the signed product. -/
def mulHi (x y : Word) : Word := ((x.signExtend 64 * y.signExtend 64) >>> 32).truncate 32
/-- The high word of the unsigned product. -/
def mulHiU (x y : Word) : Word := ((x.setWidth 64 * y.setWidth 64) >>> 32).truncate 32
/-- The signed absolute value; 0x8000_0000 is its own (R83). -/
def absW (x : Word) : Word := if x.msb then 0 - x else x
/-- x shifted left by an unsigned count; 0 for 32 or more (R83). -/
def shlW (x n : Word) : Word := if n.toNat < 32 then x <<< n.toNat else 0
/-- x shifted right with zero fill; 0 for 32 or more. -/
def shrW (x n : Word) : Word := if n.toNat < 32 then x >>> n.toNat else 0
/-- x shifted right with sign fill; 32 or more gives the sign everywhere. -/
def sarW (x n : Word) : Word := if n.toNat < 32 then x.sshiftRight n.toNat else if x.msb then 0xFFFFFFFF else 0
/-- x rotated left by n mod 32. -/
def rolW (x n : Word) : Word := x.rotateLeft (n.toNat % 32)
/-- The number of 1 bits. -/
def popcW (x : Word) : Word := wd ((upTo 32).filter (fun i => x.getLsbD i)).length
/-- The number of leading zeros; 32 for 0. -/
def clzW (x : Word) : Word :=
  match (upTo 32).find? (fun i => x.getLsbD (31 - i)) with
  | some i => wd i
  | none => 32
/-- Byte order reversed. -/
def bswapW (x : Word) : Word := wd (leNat (leBytes 4 x.toNat).reverse)
/-- Bits [p+w−1:p] of x, zero-extended. -/
def extrW (x : Word) (p w : Nat) : Word := wd (x.toNat / 2 ^ p % 2 ^ w)
/-- x with bits [p+w−1:p] replaced by the low w bits of v. -/
def insrW (x v : Word) (p w : Nat) : Word :=
  wd (x.toNat - x.toNat / 2 ^ p % 2 ^ w * 2 ^ p + v.toNat % 2 ^ w * 2 ^ p)
/-- d shifted left by an unsigned count; 0 for 64 or more. -/
def dshlW (d : DWord) (n : Nat) : DWord := if n < 64 then d <<< n else 0
/-- d shifted right with zero fill; 0 for 64 or more. -/
def dshrW (d : DWord) (n : Nat) : DWord := if n < 64 then d >>> n else 0

end Sys2Proof.Machine
end

