-- ==== Sys2Proof/Machine/Arith.lean ====
section
/-! DEFINITION. Arithmetic, logic, compares and 64-bit operations (R82 to R84, Tables 04-4 and 04-5). -/

namespace Sys2Proof.Machine

/-- NEG ( x -- z ): 0 − x mod 2³². -/
def execNeg (t : Tid) (a : Byte) (s : State) : Host.Outcome State Fault Refusal :=
  done (s.unary t a (fun x => 0 - x))

/-- ABS ( x -- z ): the signed absolute value. -/
def execAbs (t : Tid) (a : Byte) (s : State) : Host.Outcome State Fault Refusal :=
  done (s.unary t a (fun x => absW x))

/-- NOT ( x -- z ): bitwise complement. -/
def execNot (t : Tid) (a : Byte) (s : State) : Host.Outcome State Fault Refusal :=
  done (s.unary t a (fun x => ~~~x))

/-- POPC ( x -- z ): number of 1 bits. -/
def execPopc (t : Tid) (a : Byte) (s : State) : Host.Outcome State Fault Refusal :=
  done (s.unary t a (fun x => popcW x))

/-- CLZ ( x -- z ): leading zeros. -/
def execClz (t : Tid) (a : Byte) (s : State) : Host.Outcome State Fault Refusal :=
  done (s.unary t a (fun x => clzW x))

/-- BSWAP ( x -- z ): byte order reversed. -/
def execBswap (t : Tid) (a : Byte) (s : State) : Host.Outcome State Fault Refusal :=
  done (s.unary t a (fun x => bswapW x))

/-- ADD ( x y -- z ): x + y mod 2³². -/
def execAdd (t : Tid) (a : Byte) (s : State) : Host.Outcome State Fault Refusal :=
  done (s.binary t a (fun x y => x + y))

/-- SUB ( x y -- z ): x − y mod 2³². -/
def execSub (t : Tid) (a : Byte) (s : State) : Host.Outcome State Fault Refusal :=
  done (s.binary t a (fun x y => x - y))

/-- MUL ( x y -- z ): low 32 bits of x × y. -/
def execMul (t : Tid) (a : Byte) (s : State) : Host.Outcome State Fault Refusal :=
  done (s.binary t a (fun x y => x * y))

/-- MULH ( x y -- z ): high 32 bits of the signed product. -/
def execMulh (t : Tid) (a : Byte) (s : State) : Host.Outcome State Fault Refusal :=
  done (s.binary t a (fun x y => mulHi x y))

/-- MULHU ( x y -- z ): high 32 bits of the unsigned product. -/
def execMulhu (t : Tid) (a : Byte) (s : State) : Host.Outcome State Fault Refusal :=
  done (s.binary t a (fun x y => mulHiU x y))

/-- MIN ( x y -- z ): signed minimum. -/
def execMin (t : Tid) (a : Byte) (s : State) : Host.Outcome State Fault Refusal :=
  done (s.binary t a (fun x y => if x.slt y then x else y))

/-- MAX ( x y -- z ): signed maximum. -/
def execMax (t : Tid) (a : Byte) (s : State) : Host.Outcome State Fault Refusal :=
  done (s.binary t a (fun x y => if x.slt y then y else x))

/-- MINU ( x y -- z ): unsigned minimum. -/
def execMinu (t : Tid) (a : Byte) (s : State) : Host.Outcome State Fault Refusal :=
  done (s.binary t a (fun x y => if x.ult y then x else y))

/-- MAXU ( x y -- z ): unsigned maximum. -/
def execMaxu (t : Tid) (a : Byte) (s : State) : Host.Outcome State Fault Refusal :=
  done (s.binary t a (fun x y => if x.ult y then y else x))

/-- AND ( x y -- z ): bitwise AND. -/
def execAnd (t : Tid) (a : Byte) (s : State) : Host.Outcome State Fault Refusal :=
  done (s.binary t a (fun x y => x &&& y))

/-- OR ( x y -- z ): bitwise OR. -/
def execOr (t : Tid) (a : Byte) (s : State) : Host.Outcome State Fault Refusal :=
  done (s.binary t a (fun x y => x ||| y))

/-- XOR ( x y -- z ): bitwise XOR. -/
def execXor (t : Tid) (a : Byte) (s : State) : Host.Outcome State Fault Refusal :=
  done (s.binary t a (fun x y => x ^^^ y))

/-- SHL ( x y -- z ): x shifted left by y. -/
def execShl (t : Tid) (a : Byte) (s : State) : Host.Outcome State Fault Refusal :=
  done (s.binary t a (fun x y => shlW x y))

/-- SHR ( x y -- z ): x shifted right by y with zero fill. -/
def execShr (t : Tid) (a : Byte) (s : State) : Host.Outcome State Fault Refusal :=
  done (s.binary t a (fun x y => shrW x y))

/-- SAR ( x y -- z ): x shifted right by y with sign fill. -/
def execSar (t : Tid) (a : Byte) (s : State) : Host.Outcome State Fault Refusal :=
  done (s.binary t a (fun x y => sarW x y))

/-- ROL ( x y -- z ): x rotated left by y mod 32. -/
def execRol (t : Tid) (a : Byte) (s : State) : Host.Outcome State Fault Refusal :=
  done (s.binary t a (fun x y => rolW x y))

/-- EQ ( x y -- z ): x = y. -/
def execEq (t : Tid) (a : Byte) (s : State) : Host.Outcome State Fault Refusal :=
  done (s.binary t a (fun x y => flag (x == y)))

/-- NE ( x y -- z ): x ≠ y. -/
def execNe (t : Tid) (a : Byte) (s : State) : Host.Outcome State Fault Refusal :=
  done (s.binary t a (fun x y => flag (x != y)))

/-- LT ( x y -- z ): signed x < y. -/
def execLt (t : Tid) (a : Byte) (s : State) : Host.Outcome State Fault Refusal :=
  done (s.binary t a (fun x y => flag (x.slt y)))

/-- LTU ( x y -- z ): unsigned x < y. -/
def execLtu (t : Tid) (a : Byte) (s : State) : Host.Outcome State Fault Refusal :=
  done (s.binary t a (fun x y => flag (x.ult y)))

/-- LE ( x y -- z ): signed x ≤ y. -/
def execLe (t : Tid) (a : Byte) (s : State) : Host.Outcome State Fault Refusal :=
  done (s.binary t a (fun x y => flag (x.sle y)))

/-- LEU ( x y -- z ): unsigned x ≤ y. -/
def execLeu (t : Tid) (a : Byte) (s : State) : Host.Outcome State Fault Refusal :=
  done (s.binary t a (fun x y => flag (x.ule y)))

/-- INRANGE ( x lo hi -- f ): unsigned lo ≤ x ≤ hi. -/
def execInrange (t : Tid) (a : Byte) (s : State) : Host.Outcome State Fault Refusal :=
  done (s.issue t 1 (fun s => s.compute t (decide (a = 0)) 3 1 (fun l =>
    [flag ((nth 0 l 1).ule (nth 0 l 2) && (nth 0 l 2).ule (nth 0 l 0))])))

/-- Is the encoding of EXTR or INSR legal (R72, R83, Table 03-10)? -/
def fieldLegal (a : Byte) (x : Half) : Bool :=
  decide (a.toNat < 32) && decide (1 ≤ x.toNat) && decide (x.toNat ≤ 32) && decide (a.toNat + x.toNat ≤ 32)

/-- EXTR p,w ( x -- z ): bits [p+w−1:p] of x. -/
def execExtr (t : Tid) (a : Byte) (x : Half) (s : State) : Host.Outcome State Fault Refusal :=
  done (s.issue t 2 (fun s => s.compute t (fieldLegal a x) 1 1 (fun l => [extrW (nth 0 l 0) a.toNat x.toNat])))

/-- INSR p,w ( x v -- z ): x with bits [p+w−1:p] replaced by the low w bits of v. -/
def execInsr (t : Tid) (a : Byte) (x : Half) (s : State) : Host.Outcome State Fault Refusal :=
  done (s.issue t 2 (fun s => s.compute t (fieldLegal a x) 2 1 (fun l => [insrW (nth 0 l 1) (nth 0 l 0) a.toNat x.toNat])))

/-- DADD ( d1 d2 -- d ): d1 + d2 mod 2⁶⁴. -/
def execDadd (t : Tid) (a : Byte) (s : State) : Host.Outcome State Fault Refusal :=
  done (s.dbinary t a (fun d1 d2 => d1 + d2))

/-- DSUB ( d1 d2 -- d ): d1 - d2 mod 2⁶⁴. -/
def execDsub (t : Tid) (a : Byte) (s : State) : Host.Outcome State Fault Refusal :=
  done (s.dbinary t a (fun d1 d2 => d1 - d2))

/-- DEQ ( d1 d2 -- f ). -/
def execDeq (t : Tid) (a : Byte) (s : State) : Host.Outcome State Fault Refusal :=
  done (s.dcompare t a (fun d1 d2 => d1 == d2))

/-- DLTU ( d1 d2 -- f ). -/
def execDltu (t : Tid) (a : Byte) (s : State) : Host.Outcome State Fault Refusal :=
  done (s.dcompare t a (fun d1 d2 => d1.ult d2))

/-- DSHL ( d n -- d ): 0 for n of 64 or more. -/
def execDshl (t : Tid) (a : Byte) (s : State) : Host.Outcome State Fault Refusal :=
  done (s.dshift t a (fun d n => dshlW d n))

/-- DSHR ( d n -- d ): 0 for n of 64 or more. -/
def execDshr (t : Tid) (a : Byte) (s : State) : Host.Outcome State Fault Refusal :=
  done (s.dshift t a (fun d n => dshrW d n))

end Sys2Proof.Machine
end

