-- ==== Sys2Proof/Machine/TableRows.lean ====
section
/-! DEFINITION. The rows of the table engines: the command register, TBL commands of the gateway, walks, rehash, scrub. -/

namespace Sys2Proof.Machine

/-! ### One operation (R307, R317) -/

/-- An operation that meets a persistent uncorrectable error in slot `bad` invalidates that entry and ends UNCORR; for LOOKUP, which probes,
the error counts as a miss; without an error the operation is performed. -/
def State.tableRun (s : State) (op t : Nat) (touch : Bool) (idx : Nat) (w : List Word) (who : Option (Nat × Nat)) (bad : Option (Fin 262144)) :
    State × TblAns :=
  match bad with
  | some i => if op = 5 then (s, ⟨0x50, none, 0, 0⟩) else (s.slotUncorr t i.val, ⟨0x45, none, 0, 0⟩)
  | none => s.tableOp op t touch idx w who

/-- A write of TBL_CMD that starts operation `op` (R311): ignored and logged while the register is busy. -/
def State.tblWrite (s : State) (op : Nat) (v : Word) (bad : Option (Fin 262144)) : State :=
  if s.tblBusy then s.violate 9 Reg.TBL_CMD v
  else if 8 ≤ op then s.startWalk op v
  else
    let t := if bit v 30 then 1 else 0
    let s := s.setReg Reg.TBL_CMD (setFld (setFld (s.reg Reg.TBL_CMD) 30 30 t) 3 0 op)
    let r := s.tableRun op t false (s.regF Reg.TBL_INDEX 17 0) s.tblStaging none bad
    r.1.tblDone op r.2

/-- The operand bits that opcode `op` uses in words 2 to 7 (R312). -/
def tblUsed (op : Nat) : List Word :=
  [if op = 5 then 3 else 1, if op = 6 ∨ op = 7 then 0x3FFFF else 0, if op = 6 ∨ 8 ≤ op then 0 else 0xFFFFFFFF, 0, 0, 0]

/-- The checks of a TBL command (R312, R529). -/
def State.tblCheck (s : State) (f op : Nat) (c : Cmd) : Option Nat :=
  let update := decide (op = 1 ∨ op = 2 ∨ op = 3 ∨ op = 4 ∨ op = 7)
  let packet : Bool := match c.who with | .thread t _ _ => decide ((s.thr t).role = .packet) | .host _ => false
  let kindBad : Option Nat :=
    if 8 ≤ op then some 0x57 else if update ∧ packet ∧ !s.regB (Reg.FRD_CQ_CFG f 0) 16 then some 0x44 else none
  let a := (c.w 4).toNat
  let placed := decide (a % 32 = 0 ∧ 0x100000 ≤ a ∧ a + 32 ≤ 0x200000)
  cmdCheck c f (decide (1 ≤ op ∧ op ≤ 10)) (tblUsed op) kindBad none 40 (if op = 6 ∨ placed then none else some 0x43) none

/-- The effect of a checked TBL command: its code and its result record. An entry that no operation returned reads as free words. -/
def State.tblAct (s : State) (f op : Nat) (bad : Option (Fin 262144)) (c : Cmd) : State × Byte × List Word :=
  let t := if bit (c.w 2) 0 then 1 else 0
  let w := (upTo 8).map (fun i => s.word (sharedBase f + ((c.w 4).toNat - 0x100000) + 4 * i))
  let r := s.tableRun op t (bit (c.w 2) 1) (fld (c.w 3) 17 0) w (some (f, c.id)) bad
  let q := r.1.tblIndex r.2
  let e : State × List Word := match q.2.entry with
    | some l => (q.1, l)
    | none => (upTo 8).foldl (fun (p : State × List Word) _ => let d := p.1.draw; (d.2, p.2 ++ [d.1])) (q.1, [])
  (e.1, q.2.code, e.2 ++ [wd q.2.index, wd q.2.moves])

/-- Operation `op` from the command register or from a gateway. -/
def State.tableVia (s : State) (op : Nat) (via : Via) (bad : Option (Fin 262144)) : State :=
  match via with
  | .reg v => s.tblWrite op v bad
  | .frond f => s.cmdAct f.val 0 op (fun c => s.tblCheck f.val op c) (fun c => s.tblAct f.val op bad c)

/-- INSERT (R308). -/
def execInsert (via : Via) (bad : Option (Fin 262144)) (s : State) : Host.Outcome State Fault Refusal := done (s.tableVia 1 via bad)
/-- UPDATE (R307). -/
def execUpdate (via : Via) (bad : Option (Fin 262144)) (s : State) : Host.Outcome State Fault Refusal := done (s.tableVia 2 via bad)
/-- DELETE (R307). -/
def execDelete (via : Via) (bad : Option (Fin 262144)) (s : State) : Host.Outcome State Fault Refusal := done (s.tableVia 3 via bad)
/-- DELETE_IF_IDLE (R315). -/
def execDeleteIfIdle (via : Via) (bad : Option (Fin 262144)) (s : State) : Host.Outcome State Fault Refusal :=
  done (s.tableVia 4 via bad)
/-- LOOKUP (R307). -/
def execLookup (via : Via) (bad : Option (Fin 262144)) (s : State) : Host.Outcome State Fault Refusal := done (s.tableVia 5 via bad)
/-- READ_INDEX (R307). -/
def execReadIndex (via : Via) (bad : Option (Fin 262144)) (s : State) : Host.Outcome State Fault Refusal := done (s.tableVia 6 via bad)
/-- WRITE_INDEX (R309). -/
def execWriteIndex (via : Via) (bad : Option (Fin 262144)) (s : State) : Host.Outcome State Fault Refusal := done (s.tableVia 7 via bad)
/-- FLUSH_PORT (R316): starts the walk. -/
def execFlushPort (via : Via) (s : State) : Host.Outcome State Fault Refusal := done (s.tableVia 8 via none)
/-- FLUSH_VID (R316): starts the walk. -/
def execFlushVid (via : Via) (s : State) : Host.Outcome State Fault Refusal := done (s.tableVia 9 via none)
/-- AGE_STEP (R315): starts the walk. -/
def execAgeStep (via : Via) (s : State) : Host.Outcome State Fault Refusal := done (s.tableVia 10 via none)

/-- WALK_STEP (R307): one bucket of the walk in progress; `bad` names a slot of it that stays uncorrectable (R317). -/
def execWalkStep (s : State) (bad : Option (Fin 4) := none) : Host.Outcome State Fault Refusal := done (s.walkStep (bad.map (fun i => i.val)))

/-! ### Rehash (R320) -/

/-- A write of TBL_RHS of table t with START or RESUME set: START is refused and logged while a rehash is under way or stuck; RESUME walks
again over what is stuck. -/
def State.rhsWrite (s : State) (t : Nat) (v : Word) : State :=
  let st := s.rhsState t
  let s : State := if bit v 31 then (if st = 1 ∨ st = 2 then s.refuse (Reg.TBL_RHS t) v else s.rehashStart t) else s
  if bit v 30 ∧ !bit v 31 ∧ st = 2 then { s.setRhs t 1 0 with tbl.stuck := s.tbl.stuck.filter (fun k => decide (k / 262144 ≠ t)) } else s

/-- REHASH_START (R320): TBL_RHS.START. -/
def execRehashStart (t : Fin 2) (s : State) : Host.Outcome State Fault Refusal := done (s.rhsWrite t.val 0x80000000)

/-- RESUME (R320): TBL_RHS.RESUME. -/
def execResume (t : Fin 2) (s : State) : Host.Outcome State Fault Refusal := done (s.rhsWrite t.val 0x40000000)

/-- MIGRATION_STEP (R320): one bucket of the migration walk; `bad` names a slot that it finds uncorrectable (R317). -/
def execMigrationStep (t : Fin 2) (s : State) (bad : Option (Fin 262144) := none) : Host.Outcome State Fault Refusal :=
  done (if s.rhsState t.val = 1 then
      (match bad with
        | some i => s.slotUncorr t.val i.val
        | none => s).migrationStep t.val
    else s)

/-! ### Scrub (R317, R212) -/

/-- A late error of a thread's command: delivered while the thread's epoch is unchanged and at most 16 ticks have passed since the
completion, else logged (R212). `epoch` and `tick` are those of the command. -/
def State.lateError (s : State) (f : Nat) (d : DoneCmd) (code : Byte) : State :=
  match d.who with
  | .thread t tag e =>
    if (s.thr t).epoch = e ∧ s.tick ≤ d.tick + 16 then s.lateRecord t tag d.kind code d.ptr
    else (s.rasEvent 6 (wd f) (code.setWidth 32) 1).bumpF (Reg.FRD_CQ_LATE f) 23 16
  | .host tag => s.postEvent 2 code.toNat (wd f) (wd tag)

/-- TABLE_SCRUB_ERROR (R317): scrub finds the entry in a slot uncorrectable: it is invalidated, and the submitter of the gateway command
that last wrote it has a late error (R212). -/
def execTableScrubError (t : Fin 2) (i : Fin 262144) (s : State) : Host.Outcome State Fault Refusal :=
  done (match s.slot t.val i.val with
    | none => s
    | some e =>
      let s := s.slotUncorr t.val i.val
      match e.writer with
      | none => s
      | some (f, id) =>
        match (s.frond f).finished.find? (fun d => decide (d.id = id)) with
        | some d => s.lateError f d 0x45
        | none => (s.rasEvent 6 (wd f) 0x45 1).bumpF (Reg.FRD_CQ_LATE f) 23 16)

end Sys2Proof.Machine
end

