-- ==== Sys2Proof/Machine/CoprocRows.lean ====
section
/-! DEFINITION. The rows of the coprocessor gateway and of the units behind it: DMA, CHK, PEAT and SIG commands, completion, the watchdog,
late errors, host submission (R203 to R222). -/

namespace Sys2Proof.Machine

/-! ### DMA and check values -/

/-- COPY (R215): the DMA engine of frond f starts the copy at the head of its queue. -/
def execCopy (f : Fin 16) (s : State) : Host.Outcome State Fault Refusal := done (s.dmaStart f.val 1)
/-- FILL (R215). -/
def execFill (f : Fin 16) (s : State) : Host.Outcome State Fault Refusal := done (s.dmaStart f.val 2)
/-- FRAME_READ (R217). -/
def execFrameRead (f : Fin 16) (s : State) : Host.Outcome State Fault Refusal := done (s.dmaStart f.val 3)
/-- LIST (R218). -/
def execList (f : Fin 16) (s : State) : Host.Outcome State Fault Refusal := done (s.dmaStart f.val 4)

/-- DMA_CHUNK (R396): the next chunk of running command i of frond f, or of the host's check job; `bad` tells of an uncorrectable error in
what it reads, `part` of one in a block that it writes in part, which LATE_ERROR delivers (R405, R212). -/
def execDmaChunk (f : Option (Fin 16)) (i : Nat) (bad : Bool) (s : State) (part : Option (BitVec 48) := none) : Host.Outcome State Fault Refusal :=
  let f := f.map (fun g => g.val)
  let x := part.map (fun a => a.toNat)
  let t := s.moveChunk f i bad x
  done (match s.chunkPart f i bad x with
    | some b => t.dramError b .uncorrectable false
    | none => t)

/-- A write of CHK_HJ_CMD with operation op (R420): ignored and logged while a job runs. -/
def State.hjWrite (s : State) (op : Nat) (v : Word) : State := if s.ck.job.isSome then s.violate 9 Reg.CHK_HJ_CMD v else s.hjStart op

/-- A check-value command from the host's registers or from a gateway. -/
def State.chkVia (s : State) (op : Nat) (via : Via) : State :=
  match via with
  | .reg v => s.hjWrite op v
  | .frond f => s.chkStart f.val op

/-- COMPUTE (R417). -/
def execCompute (via : Via) (s : State) : Host.Outcome State Fault Refusal := done (s.chkVia 1 via)
/-- COMPARE (R418). -/
def execCompare (via : Via) (s : State) : Host.Outcome State Fault Refusal := done (s.chkVia 2 via)

/-! ### PEAT and SIG commands -/

/-- READ_PAGE (R379); `bad` names a 256-byte chunk of the page with an uncorrectable DRAM error. -/
def execReadPage (f : Fin 16) (bad : Option (Fin 16)) (s : State) : Host.Outcome State Fault Refusal :=
  done (s.peatStart f.val 1 (bad.map (fun k => k.val)))
/-- FIND (R379); `bad` tells of an uncorrectable DRAM error in a page header that the search reads. -/
def execFind (f : Fin 16) (bad : Bool) (s : State) : Host.Outcome State Fault Refusal :=
  done (s.peatStart f.val 2 (if bad then some 0 else none))
/-- APPEND (R380). -/
def execAppend (f : Fin 16) (s : State) : Host.Outcome State Fault Refusal := done (s.peatStart f.val 3 none)

/-- READ (R354). -/
def execRead (f : Fin 16) (s : State) : Host.Outcome State Fault Refusal := done (s.sigStart f.val 1)
/-- READ_VIEW (R346). -/
def execReadView (f : Fin 16) (s : State) : Host.Outcome State Fault Refusal := done (s.sigStart f.val 2)
/-- WRITE (R355). -/
def execWrite (f : Fin 16) (s : State) : Host.Outcome State Fault Refusal := done (s.sigStart f.val 3)
/-- CONFIG (R355). -/
def execConfig (f : Fin 16) (s : State) : Host.Outcome State Fault Refusal := done (s.sigStart f.val 4)
/-- VOTE_EVAL (R354). -/
def execVoteEval (f : Fin 16) (s : State) : Host.Outcome State Fault Refusal := done (s.sigStart f.val 5)

/-! ### Completion (R206, R207, R214) -/

/-- Does a kind know an opcode? -/
def opcodeKnown (kind op : Nat) : Bool := decide (1 ≤ op ∧ op ≤ nth 0 [10, 4, 2, 3, 5] kind)

/-- COMMAND_COMPLETE (R207): a running command that has acted completes; or the unit of kind k takes a command of an unknown opcode, which
ends DESC_BAD. -/
def execCommandComplete (f : Fin 16) (r : CmdRef) (s : State) : Host.Outcome State Fault Refusal :=
  done (match r with
    | .running i =>
      match (s.frond f.val).running[i]? with
      | none => s
      | some c =>
        match c.phase with
        | .acted code res => (s.endCmd f.val i code res).reapFrames
        | _ => s
    | .head k =>
      match s.headCmd f.val k.val with
      | none => s
      | some c =>
        if opcodeKnown k.val c.opcode ∨ (s.frond f.val).fencedKinds.testBit k.val then s
        else s.startCmd f.val k.val c (.acted 0x40 []))

/-- EXPIRED (R214): the watchdog of running command i fires; `late` tells that a result still arrives, which is discarded and counted. -/
def execExpired (f : Fin 16) (i : Nat) (late : Bool) (s : State) : Host.Outcome State Fault Refusal :=
  done (match (s.frond f.val).running[i]? with
    | none => s
    | some _ =>
      let s := (s.endCmd f.val i 0x46 []).bump (Reg.FRD_CQ_EXPIRED f.val)
      (if late then s.bumpF (Reg.FRD_CQ_LATE f.val) 7 0 else s).reapFrames)

/-- LATE_ERROR (R212): an error of code `code` is found after the completion of command j of those that frond f has completed. -/
def execLateError (f : Fin 16) (j : Nat) (code : Byte) (s : State) : Host.Outcome State Fault Refusal :=
  done (match (s.frond f.val).finished[j]? with
    | none => s
    | some d => s.lateError f.val d code)

/-! ### Host submission (R222) -/

/-- The lowest free host tag of a frond. -/
def State.freeHostTag (s : State) (f : Nat) : Option Nat :=
  (upTo 16).find? (fun i => decide (Sparse.get (fun _ => TagState.free) (s.frond f).hostTags i = .free))

/-- A write of FRD_CQ_HSUB: the descriptor is captured and queued under the lowest free host tag, or the answer is FULL. -/
def State.hostSubmit (s : State) (f : Nat) (v : Word) : State :=
  let s := s.wakeFrond f
  let k := fld v 31 29
  let p := fld v 19 5 * 32
  if 4 < k then s.refuse (Reg.FRD_CQ_HSUB f) v
  else match s.freeHostTag f, s.cqRoom f k with
    | some tag, true =>
      let d := s.capture f p
      let c : Cmd := ⟨.host tag, k, d, wd (0x100000 + p), .queued, 0, 0, s.holdsFrame (.host tag) d, s.tb.now, s.tick, 0, false⟩
      let s := s.enqueueCmd f c
      let s := s.modFrond f (fun fr => { fr with hostTags := Sparse.set (fun _ => .free) fr.hostTags tag .queued })
      s.setReg (Reg.FRD_CQ_HSTAT f) (wd (2 ^ 31 + tag))
    | _, _ => (s.bump (Reg.FRD_CQ_FULL f)).setReg (Reg.FRD_CQ_HSTAT f) 0x8000001F

/-- FRD_CQ_HSUB (R222). -/
def execFrdCqHsub (f : Fin 16) (v : Word) (s : State) : Host.Outcome State Fault Refusal := done (s.hostSubmit f.val v)

/-- FRD_CQ_HTAG of a tag as read. -/
def State.hostTagWord (s : State) (f i : Nat) : Word :=
  match Sparse.get (fun _ => TagState.free) (s.frond f).hostTags i with
  | .free => 0
  | .queued => wd (1 * 2 ^ 30)
  | .started => wd (2 * 2 ^ 30)
  | .done code => wd (3 * 2 ^ 30 + code.toNat)

/-- A read of FRD_CQ_HTAG that returns DONE frees the tag. -/
def State.hostTagTake (s : State) (f i : Nat) : State :=
  match Sparse.get (fun _ => TagState.free) (s.frond f).hostTags i with
  | .done _ => s.modFrond f (fun fr => { fr with hostTags := Sparse.set (fun _ => .free) fr.hostTags i .free })
  | _ => s

end Sys2Proof.Machine
end

