-- ==== Sys2Proof/Machine/TickSelect.lean ====
section
/-! DEFINITION. The tick sources (R24 to R28, R527): which source the tick controller uses, how one is lost, how the controller starts. -/

namespace Sys2Proof.Machine

/-! ### Sources (R24 to R28, Table 02-1) -/

/-- The selected primary source. -/
def State.srcPri (s : State) : Nat := s.regF Reg.TICK_CTRL 3 2
/-- The selected fallback source; 3 is none. -/
def State.srcFb (s : State) : Nat := s.regF Reg.TICK_CTRL 5 4
/-- TICK_PERIOD in ns. -/
def State.periodNs (s : State) : Nat := s.regF Reg.TICK_PERIOD 15 0 * 1000
/-- TICK_WINDOW in ns. -/
def State.windowNs (s : State) : Nat := s.regF Reg.TICK_WINDOW 15 0

/-- Does the tick controller run (R31)? -/
def State.tickRuns (s : State) : Bool :=
  s.regB Reg.TICK_CTRL 0 && s.tk.started.isSome && (match s.mode with | .load | .run | .island | .drain => true | _ => false)

/-- What the controller knows of source c. -/
def State.source (s : State) (c : Nat) : Source := if s.srcPri = c then s.tk.pri else s.tk.fb

/-- Writes what the controller knows of source c. -/
def State.setSource (s : State) (c : Nat) (x : Source) : State :=
  let s := if s.srcPri = c then { s with tk.pri := x } else s
  if s.srcFb = c then { s with tk.fb := x } else s

/-- Is source c selected and valid? The chain head never uses source CHAIN (R448). -/
def State.srcValid (s : State) (c : Nat) : Bool :=
  decide (c < 3) && (decide (s.srcPri = c) || decide (s.srcFb = c)) && !(s.source c).lost && (decide (c ≠ 1) || !s.cn.head)

/-- The source to use: the primary if valid, else the fallback if valid, else none, 3 (R527). -/
def State.srcChoice (s : State) : Nat :=
  if s.srcValid s.srcPri then s.srcPri else if s.srcValid s.srcFb then s.srcFb else 3

/-- Source c comes into use; with none, holdover begins and the host is told (R27). -/
def State.useSource (s : State) (c : Nat) : State :=
  let enters := decide (c = 3) && !s.tk.holdover
  let s := { s with tk := { s.tk with active := c, leaving := false, holdover := decide (c = 3) } }
  if enters then s.postEvent 3 1 (wd s.srcPri) 0 else s

/-- The source whose next event makes a boundary: the one in use, or the one that is to be taken over (R27, R28). -/
def State.awaited (s : State) : Nat := if s.tk.leaving then s.srcChoice else s.tk.active

/-- The source in use is not valid any more: the device changes to the fallback at its next valid event, and without one enters holdover
at once (R27). -/
def State.awaitSource (s : State) : State :=
  if s.srcChoice = 3 then s.useSource 3
  else if s.tk.active = 3 ∨ s.srcValid s.tk.active then s
  else { s with tk.leaving := true }

/-- Source c is lost (R25, R27). -/
def State.loseSource (s : State) (c : Nat) : State :=
  if (s.source c).lost then s
  else
    let s := (s.setSource c ⟨true, 0, none⟩).setRegF Reg.TICK_STATUS 4 4 1
    (s.postEvent 3 2 (wd c) 0).awaitSource

/-- A newly selected source counts as valid: PTP while LOCKED is set, the others until seen to fail (R527). -/
def State.newSource (s : State) (c : Nat) : Source := ⟨decide (c = 0) && !s.regB Reg.PTP_STATUS 0, 0, none⟩

/-- The tick controller starts at the present instant (R527). -/
def State.tickStart (s : State) : State :=
  let s := { s with tk := { s.tk with
    last := none
    ahead := 0
    started := some s.tb.now
    holdover := false
    pri := s.newSource s.srcPri
    fb := s.newSource s.srcFb } }
  s.useSource s.srcChoice

end Sys2Proof.Machine
end

