-- ==== Sys2Proof/Machine/Modes.lean ====
section
/-! DEFINITION. The operating modes (R454 to R462), KEEP with its resume image (R463 to R467) and the resets (R468 to R472). -/

namespace Sys2Proof.Machine

/-! ### Mode commands (R455 to R462) -/

/-- Shows the outcome of a mode command: results 1 accepted, 2 refused, 3 done. -/
def State.modeStat (s : State) (result reason : Nat) : State := s.setReg Reg.MGT_MODE_STAT (wd (result + reason * 256))

/-- MGT_MODE as read. -/
def State.modeWord (s : State) : Word := wd (s.mode.code + (if s.md.target then 8 else 0) + s.md.cause * 256)

/-- Is a command a transition of Table 20-2 from the mode: 1 RUN, 2 DRAIN? -/
def Mode.takes : Mode → Nat → Bool
  | .load, c => decide (c = 1 ∨ c = 2)
  | .run, c => decide (c = 2)
  | .island, c => decide (c = 1)
  | _, _ => false

/-- The first page address after `a` in a list of n pages that lies in the keep set, with the pages left. -/
def State.keptPages (s : State) (a : Nat) : Nat → List Nat
  | 0 => []
  | n + 1 =>
    if s.inDram a 4096 ∧ s.kept (s.dramGroup a) (s.dramSlot a) then a :: s.keptPages (a + 4096) n
    else s.keptPages (a + 4096) n

/-- The address in MGT_KEEP_BASE. -/
def State.keepBase (s : State) : Nat := s.reg64 Reg.MGT_KEEP_BASE_LO Reg.MGT_KEEP_BASE_HI % 2 ^ 48

/-- The keep-set pages from MGT_KEEP_BASE on. -/
def State.keepPages (s : State) : List Nat := s.keptPages s.keepBase ((s.dramSize - s.keepBase) / 4096)

/-- Does a DRAIN with target KEEP fail R462 for an image of n pages? -/
def State.keepSetBad (s : State) (n : Nat) : Bool :=
  decide (s.regF Reg.DRC_KEEP 15 0 = 0) || decide (s.keepPages.head? ≠ some s.keepBase) || decide (s.keepPages.length < n)

/-- Submits command c, 1 RUN or 2 DRAIN, with its target (R455, R456). The size of the resume image is the device's own: a free number
of pages. -/
def State.modeSubmit (s : State) (c : Nat) (keep : Bool) : State :=
  if !s.mode.takes c then s.modeStat 2 1
  else
    let r := s.draw
    let n := 1 + fld r.1 14 0
    let s := if c = 2 ∧ keep then { r.2 with md.pages := n } else s
    if c = 2 ∧ keep ∧ s.keepSetBad n then s.modeStat 2 6
    else if !s.regB Reg.TICK_CTRL 0 then s.modeStat 2 2
    else { s with md.cmd := some (c, keep, false) }.modeStat 1 0

/-- A write of MGT_MODE_CMD: ignored and logged while a command waits; one that is taken restarts the heartbeat count (R439). -/
def State.modeCmd (s : State) (v : Word) : State :=
  if s.md.cmd.isSome then s.violate 9 Reg.MGT_MODE_CMD v
  else
    let s := s.setReg Reg.MGT_MODE_CMD (v &&& 0xF#32)
    let s := { s with host.hbTicks := 0, md.hbWritten := true }
    if fld v 2 0 = 0 then s else s.modeSubmit (fld v 2 0) (bit v 3)

/-- MGT_MODE_CMD as read. -/
def State.modeCmdWord (s : State) : Word := setBit (s.reg Reg.MGT_MODE_CMD) 31 s.md.cmd.isSome

/-- The device enters a mode for a cause: the event-ring entry of type 13, and full training at entry to LOAD (R455, Table 20-3). -/
def State.enterMode (s : State) (m : Mode) (cause : Nat) : State :=
  let s := { s with mode := m, md.cause := cause, md.drainTicks := 0 }
  let s := s.postEvent 13 m.code (wd cause) 0
  match m with
  | .load => s.dramTrain
  | .run => { s with host.hbTicks := 0 }.retryHeld
  | _ => s

/-- The checks of R457, in order: the state they leave, and the reason of the first that fails. -/
def State.runChecks (s : State) : State × Nat :=
  if !s.regB Reg.TICK_CTRL 0 then (s, 2)
  else if s.dramEn ∧ (!s.dramReady ∨ s.dc.speed = 3) then (s, 3)
  else match s.reboundFail with
    | some e => (s.reboundReport e, 4)
    | none => let r := s.runAdmit; (r.1, if r.2 then 0 else 5)

/-- The transition that a command makes at a boundary. -/
def State.modeAct (s : State) (c : Nat) (keep auto : Bool) : State :=
  if !s.mode.takes c then s.modeStat 2 1
  else if c = 2 then ({ s with md.target := keep }.enterMode .drain 1).modeStat 3 0
  else
    let r := if s.mode = .load then s.runChecks else (s, 0)
    if r.2 ≠ 0 then r.1.modeStat 2 r.2 else (r.1.enterMode .run (if auto then 6 else 1)).modeStat 3 0

/-- Is a BULK spore held by a thread or in ordering, or a BULK frame in an output queue (R461)? -/
def State.bulkLeft (s : State) : Bool :=
  s.sw.spores.any (fun e => match e.2 with
    | some x => decide (x.family = 2) && (match x.stands with | .slot _ _ => true | .released _ _ _ _ => true | _ => false)
    | none => false)
  || s.sw.queues.any (fun e => e.2.copies.any (fun c => decide (c.family = 2)))
  || s.sw.residue.any (fun r => r.left.any (fun c => decide (c.2.family = 2)))

/-- Do the conditions of R461 hold at a boundary? -/
def State.drained (s : State) : Bool := !s.bulkLeft && s.pt.fifo.isEmpty && s.pt.todo.isEmpty

/-- Step 1 of a boundary for the mode (R439, R455, R459, R461). Returns whether this boundary completes a DRAIN. -/
def State.modeStep1 (s : State) : State × Bool :=
  let s := { s with
    host.hbTicks := if s.md.hbWritten then 0 else satAdd 0xFFFF s.host.hbTicks 1
    md.hbWritten := false }
  let auto := s.md.autorun && decide (s.mode = .load)
  match s.md.cmd with
  | some (c, keep, a) => ({ s with md.cmd := none }.modeAct c keep a, false)
  | none =>
    if auto then ({ s with md.autorun := false, md.cmd := some (1, false, true) }.modeStat 1 0, false)
    else
      let limit := s.regF Reg.MGT_HB_TICKS 15 0
      if s.mode = .run ∧ limit ≠ 0 ∧ limit ≤ s.host.hbTicks then (s.enterMode .island 2, false)
      else if s.mode = .drain ∧ !s.md.entering then
        let s := { s with md.drainTicks := s.md.drainTicks + 1 }
        if s.drained then (s, true)
        else if s.regF Reg.MGT_DRAIN_LIMIT 15 0 ≤ s.md.drainTicks then ((s.enterMode .load 4).modeStat 3 7, false)
        else (s, false)
      else (s, false)

/-- The end of the boundary that completes a DRAIN: the records of the tick before are committed, every open page closes, then LOAD, or entry to KEEP begins (R461). -/
def State.drainEnds (s : State) : State :=
  let n := (s.pt.todo.map (fun (e : Nat × Nat) => psCount (s.pstream e.1).run + 1)).sum + 1
  let s := (upTo n).foldl (fun s _ => s.peatWork 1 65536) s
  let s := (s.pt.streams.map (fun e => e.1)).foldl (fun s i => s.closePage i) s
  if s.md.target then { s with md.entering := true } else s.enterMode .load 3

/-! ### Resets (R468, R470, R471) -/

/-- The time base as the coarse count gives it, in 40 ns steps (R465). -/
def State.coarse (s : State) : TimeBase := { TimeBase.reset with now := BitVec.ofNat 64 (s.now - s.now % 40) }

/-- Is an offset's register of class A, in the always-on domain (Table 23-4)? -/
def classA (off : Nat) : Bool := match regRow off with | some r => decide (r.cls = .a) | none => false

/-- The device with everything outside the always-on domain at its reset value (Table 20-7): kept are the class A registers, the chain
address, fuses, the replace history, DRAM, the time base as the coarse count gives it. A half latched of a class A pair is part of that
register's state (R511). -/
def State.cold (s : State) : State :=
  { State.reset with
    pending := s.pending
    mode := s.mode
    tb := s.coarse
    regs := Sparse.keep classA s.regs
    latch := Sparse.keep (fun k => classA (k / 4)) s.latch
    dram := s.dram
    dramGen := s.dramGen
    dc := { DramUnit.reset with board := s.dc.board, gens := s.dc.gens }
    cn := { ChainUnit.reset with
      head := s.cn.head
      addr := s.cn.addr
      ovf := s.cn.ovf
      addrErr := s.cn.addrErr
      count := s.cn.count
      lastRx := s.coarse.now
      lastTx := s.coarse.now }
    replHist := s.replHist
    fuses := s.fuses
    draws := s.draws
    out := s.out }

/-- Entry to ENUMERATE: the head sends ENUM (R446). -/
def State.enumerate (s : State) : State :=
  let s := { s with mode := .enumerate }
  if s.cn.head then s.sendEnum else s

/-- DEV_ALERT_N and REPLACE_N follow a reset (R486, R491). -/
def State.resetPins (s : State) (alert low : Bool) : State :=
  let s := s.alertPin alert
  if low ∧ !s.replaceLow then s.emit (.pin "REPLACE_N" true) else s

/-- A warm reset (R470); bit `cause` of MGT_RST_CAUSE records it. -/
def State.warmReset (s : State) (cause : Nat) : State :=
  let keep := decide (s.mode = .keep)
  let c := s.cold
  let c := c.loseContent 4 (fun a => c.trainingArea a)
  let c := c.setReg Reg.MGT_RST_CAUSE (satFld (setBit (c.reg Reg.MGT_RST_CAUSE) cause true) 31 16 1)
  let c := if keep then (c.setRegF Reg.MGT_KEEP_STAT 2 0 5).setReg Reg.MGT_RST_CAUSE (setBit (c.reg Reg.MGT_RST_CAUSE) 5 true) else c
  (c.resetPins s.alert s.replaceLow).enumerate

/-- A power-on reset; `head` is the CHN_HEAD strap (R442, R446). -/
def State.powerOn (s : State) (head : Bool) : State :=
  let c : State := { State.reset with
    pending := s.pending
    dramGen := s.dramGen + 1
    dc := { DramUnit.reset with board := s.dc.board }
    cn := { ChainUnit.reset with head := head, addr := if head then some 0 else none }
    fuses := s.fuses
    draws := s.draws
    out := s.out }
  (c.resetPins s.alert s.replaceLow).enumerate

/-- PORST_N (R468): the power-on reset. -/
def execPorstN (head : Bool) (s : State) : Host.Outcome State Fault Refusal := done (s.powerOn head)

/-- WRST_N (R470): the pin held low for 1 µs. -/
def execWrstN (s : State) : Host.Outcome State Fault Refusal := done (s.warmReset 1)

/-- A write of MGT_RESET (R468). -/
def State.resetWrite (s : State) (v : Word) : State :=
  if fld v 7 0 ≠ 0xA5 then s.refuse Reg.MGT_RESET v else s.warmReset 2

/-- MGT_RESET (R468). -/
def execMgtReset (v : Word) (s : State) : Host.Outcome State Fault Refusal := done (s.resetWrite v)

/-! ### Entry to KEEP (R463, R464, R410) -/

/-- What the resume image holds (Table 20-5). -/
def State.snapshot (s : State) : Snap where
  regs := s.regs
  recs := ((s.ct.adapt.map (fun e => e.1)).foldl (fun (s : State) a => s.setRecs .adapt a 0 (s.adaptWords a)) s).recs
  harvest := s.mem.filter (fun c => decide (0x803000000000 ≤ c.1 ∧ c.1 < 0x803000100000))
  slots := s.tbl.slots
  prevSeed := s.tbl.prevSeed
  sigs := s.sg.entries
  pubPos := s.sg.pubPos
  profiles := s.sw.queues.map (fun e => (e.1, e.2.profile))
  gates := s.ct.gates.map (fun (e : Nat × SGate) =>
    (e.1, { SGate.reset with mult := e.2.mult, invrxEn := e.2.invrxEn, lenA := e.2.lenA, lenB := e.2.lenB }))
  images := (upTo 16).filterMap (fun f => (s.liveImage f).map (fun im => (f, im)))
  services := (upTo 16).foldl (fun n f => Nat.lor n (s.frond f).services) 0

/-- The header of the image: magic, page count, MGT_KEEP_SEQ, tick number and time base (R464). -/
def State.keepHeader (s : State) (n : Nat) : List Byte :=
  leBytes 4 0x4B504545 ++ leBytes 4 n ++ leBytes 4 (s.reg Reg.MGT_KEEP_SEQ).toNat ++ leBytes 4 0 ++ leBytes 8 s.tick ++ leBytes 8 s.now

/-- Writes page i of an image of n pages at `a` (R464); the spec does not lay out its data, which are free. -/
def State.keepPage (s : State) (n i a : Nat) : State :=
  let r := s.freeBytes 4088
  let d := if i = 0 then patch r.2 0 (s.keepHeader n) else r.2
  let b := d ++ leBytes 4 i
  let g := Nat.xor a (s.reg Reg.MGT_KEEP_SEQ).toNat
  r.1.setBytes a (b ++ leBytes 4 (crcOf 1 0xFFFFFFFF g (b ++ leBytes 4 0)))

/-- DRAM at KEEP entry (R410): what lies outside the keep set is lost, and those DIMMs lose their supply. -/
def State.dramKeep (s : State) : State :=
  let units := (upTo 4).filter (fun u => !s.kept (u % 2) (u / 2))
  let s := units.foldl (fun s u => s.loseContent u (fun a => decide (s.dramSlot a * 2 + s.dramGroup a = u))) s
  let m := s.regF Reg.DRC_KEEP 15 0
  let s := { s with dc := { s.dc with selfRefresh := Nat.land m s.dc.board.present, pwren := m, ready := false, training := false } }
  s.emit (.pin "DIMM_PWREN" false)

/-- Entry to KEEP: the frames and spores left are counted, the resume image is written, DRAM enters KEEP, everything outside the
always-on domain loses power (R463). -/
def State.enterKeep (s : State) : State :=
  let s := s.bump Reg.MGT_DRAIN_DROP s.framesHeld
  let dropped := s.reg Reg.MGT_DRAIN_DROP
  let s := s.setReg Reg.MGT_KEEP_SEQ (s.reg Reg.MGT_KEEP_SEQ + 1)
  let snap := s.snapshot
  let ps := s.keepPages.take s.md.pages
  let s := ps.zipIdx.foldl (fun s e => s.keepPage ps.length e.2 e.1) s
  let s := s.setReg Reg.MGT_KEEP_STAT (wd (1 + ps.length * 65536))
  let s := s.dramKeep
  { s.cold with
    mode := .keep
    cn := s.cn
    tk := { TickUnit.reset with number := s.tk.number }
    dc := { s.cold.dc with selfRefresh := s.dc.selfRefresh, pwren := s.dc.pwren }
    md := { ModeUnit.reset with cause := 1, target := true, snap := some snap, wake := s.md.wake } }.setReg Reg.MGT_DRAIN_DROP dropped

/-! ### Wake (R466, R467, R411) -/

/-- The bits of a register that the resume image restores (Tables 20-5 and 23-4). PTP_PADJ holds what is left of a slew, which a wake
ends. -/
def restoreMask (off : Nat) : Nat :=
  match regRow off with
  | none => 0
  | some r =>
    let in_ : Bool :=
      if off < 0x10000 then off == Reg.MGT_HB_TICKS || off == Reg.MGT_DRAIN_LIMIT
      else if off < 0x20000 then off == Reg.RAS_CETHR || off == Reg.RAS_CEWIN || off == Reg.RAS_THERM
      else off != Reg.PTP_PADJ
    if r.cls = .c ∧ in_ then Nat.lor r.rw r.rwl else 0

/-- Restores the registers of the image. -/
def State.restoreRegs (s : State) (x : Snap) : State :=
  x.regs.foldl (fun (s : State) (e : Nat × Word) =>
    let m := wd (restoreMask e.1)
    if m = 0 then s else s.setReg e.1 ((e.2 &&& m) ||| (s.reg e.1 &&& ~~~m))) s

/-- Restores the records behind register windows; a stream gate, a FRER record, a meter starts as at its commit. -/
def State.restoreRecs (s : State) (x : Snap) : State :=
  let dbg (k : Nat) : Bool := decide (k / 64 / 2 ^ 20 = RecKind.dbg.num)
  let s := { s with
    recs := Sparse.keep (fun k => !dbg k) x.recs
    mem := x.harvest
    sg.pubPos := x.pubPos
    ct.gates := x.gates }
  let s := x.profiles.foldl (fun (s : State) (e : Nat × Nat) => s.setOutq e.1 { s.outq e.1 with profile := e.2 }) s
  let s := (s.recIds .frer).foldl (fun s r => s.setFrer r { Frer.reset with exist := true }) s
  let s := (s.recIds .meter).foldl (fun s m =>
    let y : Meter := ⟨(s.recW .meter m 2).toNat * 8000000, (s.recW .meter m 3).toNat * 8000000, s.tb.now⟩
    { s with ct.meters := Sparse.set (fun _ => Meter.reset) s.ct.meters m y }) s
  (upTo 64).foldl (fun s n => if s.regB (Reg.BPM_CFG n) 31 then s.poolConfig n (s.reg (Reg.BPM_CFG n)) else s) s

/-- Lies the ring of peat stream i wholly in the keep set? -/
def State.ringKept (s : State) (i : Nat) : Bool :=
  let w := s.peatRec i
  (upTo (psPages w)).all (fun k => let a := psBase w + k * 4096; s.inDram a 4096 && s.kept (s.dramGroup a) (s.dramSlot a))

/-- The peat streams of the image: one whose ring was kept resumes it, another is disabled and counted (Table 20-5). -/
def State.restorePeat (s : State) : State :=
  s.peatStreams.foldl (fun s i =>
    let w0 := s.recW .peat i 0
    if s.ringKept i then (s.setRec .peat i 0 (setBit w0 1 true)).setPstream i { PStream.reset with dirty := true }
    else (s.setRec .peat i 0 (setBit w0 0 false)).bumpF Reg.MGT_KEEP_STAT 15 12) s

/-- Restores the tables with HIT = 0; a rehash restarts at its first bucket. -/
def State.restoreTables (s : State) (x : Snap) : State :=
  let s := x.slots.foldl (fun (s : State) (e : Nat × Option TEntry) =>
    s.rawSlot (e.1 / 262144) (e.1 % 262144) (e.2.map (fun (t : TEntry) => { t with hit := false, writer := none }))) s
  let s := { s with tbl.prevSeed := x.prevSeed }
  (upTo 2).foldl (fun s t =>
    if x.slots.any (fun (e : Nat × Option TEntry) =>
      decide (e.1 / 262144 = t) && (match e.2 with | some y => y.prev | none => false)) then s.setRhs t 1 0 else s) s

/-- Restores the signal table: OLD set, GOOD turned into UNCERTAIN/STALE. -/
def State.restoreSigs (s : State) (x : Snap) : State :=
  let s := { s with sg.entries := x.sigs.map (fun (e : Nat × Sig) =>
    (e.1, { e.2 with quality := if qClass e.2.quality = 3 then 0x42 else e.2.quality })) }
  { s with sg.tick16 := BitVec.ofNat 16 s.tick }.oldPass

/-- Recommits the image of frond f with every frond that held it, unless a lower frond did so: the state, and the mask of fronds it
is refused for. -/
def State.recommit (s : State) (x : Snap) (f : Nat) (im : Image) : State × Nat :=
  let same := (x.images.filter (fun e => decide (e.2 = im))).map (fun e => e.1)
  if same.head? ≠ some f then (s, 0)
  else
    let mask := (same.map (fun g => 2 ^ g)).sum
    let im := { im with fronds := mask }
    let r := s.checkCode im
    let im := { im with
      entries := im.entries.zipIdx.map (fun (e : EntryRec × Nat) => { e.1 with bound := nth 0 r.1 e.2 })
      initBound := r.2.1 }
    if r.2.2.isSome ∨ (s.checkRest [] im).isSome then (s, mask) else ((s.commitImage im).1, 0)

/-- The wake (R466): training; with a good image everything of Table 20-5 is restored and the images are recommitted; LOAD. -/
def State.wakeUp (s : State) (w : Wake) : State :=
  match s.md.snap with
  | none => s
  | some x =>
    let s := if w.perst then s else s.emit (.pin "PE_WAKE_N" false)
    let s := s.emit (.pin "DIMM_PWREN" true)
    let s := { s with tb := s.coarse, mode := .load, md := { ModeUnit.reset with cause := 5 } }
    let s := { s with dc := { s.dc with pwren := 0xFFFF, selfRefresh := 0 } }
    let s := s.setReg Reg.MGT_RST_CAUSE (setBit (s.reg Reg.MGT_RST_CAUSE) 4 true)
    let s : State :=
      if !w.ok then (s.loseContent 4 (fun a => s.trainingArea a)).setRegF Reg.MGT_KEEP_STAT 2 0 3
      else
        let s := (s.restoreRegs x).restoreRecs x
        let s := { s with dc.present := if s.dramEn then s.dc.board.present else 0 }
        let s := if s.dramEn then s.dramTrain.trained w.fail else s.loseContent 4 (fun a => s.trainingArea a)
        let s := ((s.restorePeat).restoreTables x).restoreSigs x
        let s := (upTo 16).foldl (fun s f => s.modFrond f (fun fr => { fr with pllOff := s.regB Reg.CLK_PLLOFF f })) s
        let r := x.images.foldl (fun (a : State × Nat) (e : Nat × Image) =>
          let r := a.1.recommit x e.1 e.2
          (r.1, Nat.lor a.2 r.2)) (s, 0)
        let s := if x.services = 0 then r.1 else r.1.loadResident x.services
        let s := if r.2 = 0 then s.setRegF Reg.MGT_KEEP_STAT 2 0 2
          else (s.setRegF Reg.MGT_KEEP_STAT 2 0 4).setRegF Reg.MGT_KEEP_STAT 31 16 r.2
        let s := if s.regB Reg.TICK_CTRL 0 then s.tickStart else s
        { s with md.autorun := s.regB Reg.MGT_KEEP_CFG 0 && decide (r.2 = 0) }
    s.postEvent 13 1 5 0

/-- A wake request: acted on in KEEP, latched while KEEP is being entered, without effect otherwise (R463, R466). -/
def State.wakeReq (s : State) (w : Wake) : State :=
  if s.mode = .keep then s.wakeUp w
  else if s.md.entering then { s with md.wake := some w }
  else s

/-- KEEP_ENTRY (R463): the output queues have drained, or TICK_PERIOD has passed, and the device enters KEEP; a latched wake acts. -/
def execKeepEntry (at_ : DWord) (s : State) : Host.Outcome State Fault Refusal :=
  let s := s.advanceTo at_
  done (if !s.md.entering then s
    else
      let s := s.enterKeep
      match s.md.wake with
      | some w => s.wakeUp w
      | none => s)

/-- WAKE_N (R466): held low for 1 µs; `fail` names the subchannels that fail training, `ok` tells whether the image passes its checks. -/
def execWakeN (fail : BitVec 16) (ok : Bool) (s : State) : Host.Outcome State Fault Refusal := done (s.wakeReq ⟨fail, ok, false⟩)

/-- PE_PERST_N (R440, R466): low, a host-link reset with the link down; its rising edge wakes from KEEP. -/
def execPePerstN (rising : Bool) (fail : BitVec 16) (ok : Bool) (s : State) : Host.Outcome State Fault Refusal :=
  done (if rising then s.wakeReq ⟨fail, ok, true⟩
    else
      let s := s.hostLinkReset
      { s with host := { s.host with link := false, speed := 0, width := 0, flit := false } })

/-! ### Commands -/

/-- RUN (R455): MGT_MODE_CMD with command 1. -/
def execRun (s : State) : Host.Outcome State Fault Refusal := done (s.modeCmd 1)

/-- DRAIN (R461): MGT_MODE_CMD with command 2 and its target, LOAD or KEEP. -/
def execDrain (keep : Bool) (s : State) : Host.Outcome State Fault Refusal := done (s.modeCmd (if keep then 10 else 2))

/-- CLK_PLLOFF (R475): RWL, so that a write in another mode than LOAD is a violation. -/
def execClkPlloff (v : Word) (s : State) : Host.Outcome State Fault Refusal :=
  done (if s.mode = .load then s.pllOffWrite v else s.violate 2 Reg.CLK_PLLOFF v)

/-- VDD_IO18_IN_RANGE (R519): DIMM_PWREN is high from this moment, for every DIMM. -/
def execVddIo18InRange (s : State) : Host.Outcome State Fault Refusal :=
  done ({ s with dc := { s.dc with pwren := 0xFFFF } }.emit (.pin "DIMM_PWREN" true))

end Sys2Proof.Machine
end

