-- ==== Sys2Proof/Machine/RegRead.lean ====
section
/-! DEFINITION. Reading a register of BAR0 (R3, R425, R504 to R514): the value each register shows, the latch of a 64-bit pair, and the
reads with side effects (Table 23-3). -/

namespace Sys2Proof.Machine

/-- Does an offset hold a copy of a register? -/
def isReg (off base n st : Nat) : Bool := (idxOf off base n st).isSome

/-! ### Windows (R512) -/

/-- The record word that a data register of a window shows: its kind, record and word. -/
def State.windowAt (s : State) (off : Nat) : Option (RecKind × Nat × Nat) :=
  let at_ (k : RecKind) (base n i : Nat) : Option (RecKind × Nat × Nat) := (idxOf off base n 4).map (fun w => (k, i, w))
  if off < 0x150000 then none
  else if off < 0x156000 then
    let p := off / 0x20 % 64
    let x := s.reg (Reg.EGR_GCL_IDX p)
    if 0x154000 ≤ off then at_ .gcl (Reg.EGR_GCL_DATA0 p) 2 (gclIndex p (bit x 8) (fld x 7 0)) else none
  else if off < 0x160000 then at_ .ctx Reg.EGR_CTX_DATA0 2 (s.regF Reg.EGR_CTX_IDX 11 0)
  else if off < 0x170000 then none
  else if off < 0x180000 then
    let x := s.reg Reg.CTL_GIDX
    (at_ .stream (Reg.CTL_SDATA 0) 4 (s.regF Reg.CTL_SIDX 17 0)).or <|
    (at_ .filter (Reg.CTL_FDATA 0) 2 (s.regF Reg.CTL_FIDX 11 0)).or <|
    (at_ .sgate (Reg.CTL_GDATA 0) 2 (sgIndex (fld x 9 0) (bit x 14) (fld x 13 10))).or <|
    (at_ .meter (Reg.CTL_MDATA 0) 5 (s.regF Reg.CTL_MIDX 11 0)).or <|
    (at_ .frer (Reg.CTL_RDATA 0) 3 (s.regF Reg.CTL_RIDX 15 0)).or <|
    at_ .adapt (Reg.CTL_ADATA 0) 12 (s.regF Reg.CTL_AIDX 13 0)
  else if off < 0x190000 then
    (at_ .harvest (Reg.SIG_HV_DATA 0) 4 (s.regF Reg.SIG_HV_IDX 15 0)).or <|
    (at_ .vote (Reg.SIG_VG_DATA 0) 8 (s.regF Reg.SIG_VG_IDX 15 0)).or <|
    (at_ .pub (Reg.SIG_PUB_DATA 0) 8 (s.regF Reg.SIG_PUB_IDX 11 0)).or <|
    at_ .svc (Reg.SIG_SVC_DATA 0) 8 (s.regF Reg.SIG_SVC_IDX 3 0)
  else if off < 0x1A0000 then
    (at_ .policy (Reg.PEAT_P_DATA 0) 4 (s.regF Reg.PEAT_P_IDX 7 0)).or <|
    (at_ .peat (Reg.PEAT_S_DATA 0) 8 (s.regF Reg.PEAT_S_IDX 11 0)).or <|
    at_ .client (Reg.PEAT_CL_DATA 0) 8 (s.regF Reg.PEAT_CL_IDX 5 0)
  else none

/-- A window's data register as read: its staged value, or the committed word. -/
def State.windowRead (s : State) (off : Nat) (x : RecKind × Nat × Nat) : Word :=
  (s.staged? off).getD
    (if x.1 = .harvest then s.hvWord x.2.1 x.2.2
    else if x.1 = .adapt then nth 0 (s.adaptWords x.2.1) x.2.2
    else s.recW x.1 x.2.1 x.2.2)

/-! ### What registers show, block by block -/

/-- MGT (0x000_0000). -/
def State.readMgt (s : State) (off : Nat) : Word :=
  if off = Reg.MGT_REV then s.fuses.rev
  else if off = Reg.MGT_SECURE then s.fuses.secure
  else if off = Reg.MGT_MODE then s.modeWord
  else if off = Reg.MGT_MODE_CMD then s.modeCmdWord
  else if off = Reg.MGT_SWAP_STATUS then s.swapStatus
  else if off = Reg.MGT_HB_STAT then s.hbStat
  else if off = Reg.MGT_ABORT_STAT then s.abortStat
  else if off = Reg.MGT_DLCK_STATUS then wd (s.dlockHwm * 65536 + s.dlocks.length)
  else if 0x1000 ≤ off ∧ off < 0x5000 then s.chanWord (1024 + (off - 0x1000) / 64) (off % 64) false
  else s.reg off

/-- RAS (0x001_0000). -/
def State.readRas (s : State) (off : Nat) : Word :=
  if off = Reg.RAS_STATUS then s.rasStatus
  else match idxOf off (Reg.RAS_LOG 0) 5 4, idxOf off (Reg.RAS_LOST_DATA 0) 5 4 with
    | some i, _ => s.rasWord i
    | _, some i =>
      match Sparse.get (fun _ => none) s.pt.lost (s.regF Reg.RAS_LOST_IDX 11 0) with
      | none => 0
      | some (g, old, new) =>
        nth 0 [wd (2 ^ 31 + g), wd (old % 2 ^ 32), wd (old / 2 ^ 32), wd (new % 2 ^ 32), wd (new / 2 ^ 32)] i
    | _, _ => s.reg off

/-- TICK and PTP (0x002_0000, 0x003_0000). The remainder of a slew shows in whole ns, rounded toward 0. -/
def State.readTime (s : State) (off : Nat) : Word :=
  let bt := s.tk.btime
  let ovr := s.tk.log.head?
  let ts := s.tb.txts.head?
  if off = Reg.TICK_STATUS then
    (s.reg off &&& 0x70#32) ||| wd ((if s.tk.holdover then 8 else 0) + s.tk.active)
  else if off = Reg.TICK_NUMBER_LO then s.tick32
  else if off = Reg.TICK_NUMBER_HI then wd (s.tick / 2 ^ 32)
  else if off = Reg.TICK_BTIME_LO then lo32 bt
  else if off = Reg.TICK_BTIME_HI then hi32 bt
  else if off = Reg.TICK_OVR_LOG0 then (match ovr with | some r => wd (2 ^ 31 + r.item * 2 ^ 16 + r.tick % 2 ^ 16) | none => 0)
  else if off = Reg.TICK_OVR_LOG1 then (match ovr with | some r => wd (r.object % 2 ^ 16) | none => 0)
  else if off = Reg.PTP_TIME_LO then lo32 s.tb.now
  else if off = Reg.PTP_TIME_HI then hi32 s.tb.now
  else if off = Reg.PTP_PADJ then BitVec.ofInt 32 (Int.tdiv s.tb.slew (2 ^ 40))
  else if off = Reg.PTP_STATUS then (s.reg off &&& 1#32) ||| wd (if s.tb.slew = 0 then 0 else 2)
  else if off = Reg.PTP_TXTS_META then
    (match ts with | some r => wd (2 ^ 31 + r.domain * 2 ^ 29 + r.port * 2 ^ 23 + r.msgType * 2 ^ 16 + r.seqId) | none => 0)
  else if off = Reg.PTP_TXTS_LO then (match ts with | some r => lo32 r.time | none => 0)
  else if off = Reg.PTP_TXTS_HI then (match ts with | some r => hi32 r.time | none => 0)
  else s.reg off

/-- CHN (0x004_0000). -/
def State.readChn (s : State) (off : Nat) : Word :=
  let c := s.cn
  let b (x : Bool) (i : Nat) : Nat := if x then 2 ^ i else 0
  if off = Reg.CHN_STATUS then
    wd (b c.addr.isSome 31 + b c.head 30 + b c.segHead 29 + b c.inLink 28 + b c.ovf 27 + b c.addrErr 26 + c.count * 2 ^ 8
      + s.chainAddr.toNat)
  else if off = Reg.CHN_TX_STAT then wd (b (c.out.any (fun m => m.host)) 31 + c.out.length * 2 ^ 16 + c.status)
  else if off = Reg.CHN_REPL_LOG then
    (match c.replLog with | r :: _ => wd (2 ^ 31 + r.1.toNat * 2 ^ 16 + r.2.toNat) | [] => 0)
  else s.reg off

/-- BLK and CLK (0x005_0000, 0x006_0000). -/
def State.readBlk (s : State) (off : Nat) : Word :=
  if off = Reg.BLK_STATUS then s.blkStatus
  else if off = Reg.CLK_STATUS then s.clkStatus
  else match idxOf off Reg.BLK_VIOL0 3 4, idxOf off (Reg.BLK_CH_STAT 0) 8 0x40 with
    | some i, _ => s.violWord i
    | _, some c => s.bulkStat c
    | _, _ => s.reg off

/-- DBG (0x007_0000). -/
def State.readDbg (s : State) (off : Nat) : Word :=
  if off = Reg.DBG_STATUS then s.dbgStatus
  else if off = Reg.DBG_TCTL then
    wd (s.thr s.dbgThread).tctl
  else if off = Reg.DBG_TSTAT then s.dbgTstat
  else if off = Reg.DBG_TREG_DATA then s.tregRead s.dbgThread (s.regF Reg.DBG_TREG_IDX 7 0)
  else if off = Reg.DBG_CSTAT then flag (s.core s.dbgCore).patched
  else match idxOf off (Reg.DBG_BP 0) 8 4 with
    | some i => s.recW .dbg s.dbgCore i
    | none => s.reg off

/-- DSP (0x012_0000). -/
def State.readDsp (s : State) (off : Nat) : Word :=
  if off = Reg.DSP_SLOW_STAT then
    wd ((if s.regB Reg.DSP_SLOW_CFG 16 && !s.slowRingUp then 2 ^ 16 else 0) + s.sw.slowQ.length)
  else match idxOf off (Reg.DSP_QLVL 0) 16 4 with
    | some f => wd (Sparse.get (fun _ => 0) s.sw.dispHwm f * 2 ^ 16 + (s.dispQ f).length)
    | none => s.reg off

/-- SWC (0x013_0000). -/
def State.readSwc (s : State) (off : Nat) : Word :=
  let q := s.regF Reg.SWC_QSEL 15 0
  if off = Reg.SWC_SHARED_USE then wd s.sharedUse
  else if off = Reg.SWC_CTRL_USE then wd s.ctrlUse
  else if off = Reg.SWC_INJ_USE then wd s.injUse
  else if off = Reg.SWC_QCFG then wd (s.outq q).profile
  else match idxOf off (Reg.SWC_QSTAT0) 3 4 with
    | some i => nth 0 [wd (s.qDepth q), wd (s.outq q).pushouts, wd (s.outq q).hwm] i
    | none =>
      if off = Reg.SWC_MCG_DATA then s.recW .mcg (s.regF Reg.SWC_MCG_IDX 13 0) 0
      else if off = Reg.SWC_MCM_DATA then s.recW .mcm (s.regF Reg.SWC_MCM_IDX 15 0) 0
      else if off = Reg.SWC_MC_RES then wd (s.sw.residueHwm * 2 ^ 16 + s.sw.residue.length)
      else s.reg off

/-- BPM (0x014_0000). -/
def State.readBpm (s : State) (off : Nat) : Word :=
  match idxOf off (Reg.BPM_CFG 0) 64 0x40, idxOf off (Reg.BPM_STAT 0) 64 0x40 with
  | some n, _ => setBit (setBit (s.reg off) 31 (s.pool n).valid) 24 (s.poolQuota n)
  | _, some n =>
    let p := s.pool n
    if p.valid then (s.reg off &&& 0x80000000#32) ||| wd (p.level * 2 ^ 24 + s.poolFree n) else s.reg off &&& 0x80000000#32
  | _, _ =>
    if off = Reg.BPM_TOTAL then wd (((upTo 64).map (fun n => if (s.pool n).valid then s.poolCount n else 0)).sum) else s.reg off

/-- EGR (0x015_0000). -/
def State.readEgr (s : State) (off : Nat) : Word :=
  match idxOf off (Reg.EGR_GCL_CTRL 0) 64 0x20 with
  | some p => setBit (s.reg off) 8 (s.port p).gateBank
  | none => s.reg off

/-- PORT pages (0x020_0000). -/
def State.readPort (s : State) (off : Nat) : Word :=
  let p := (off - 0x200000) / 0x1000
  let x := s.port p
  if off = Reg.PORT_STATUS p then wd ((if x.pactive then 8 else 0) + x.vstate * 2 + (if x.link then 1 else 0)) else s.reg off

/-- TBL (0x016_0000). -/
def State.readTbl (s : State) (off : Nat) : Word :=
  if off = Reg.TBL_RHS_STUCK 0 then wd (s.stuckCount 0)
  else if off = Reg.TBL_RHS_STUCK 1 then wd (s.stuckCount 1)
  else if off = Reg.TBL_AGE then
    (s.reg off &&& 0xFFFF#32) ||| wd (Sparse.get (fun _ => 0) s.tbl.cursor (s.regF Reg.TBL_CMD 30 30) * 2 ^ 16)
  else s.reg off

/-- CTL (0x017_0000). -/
def State.readCtl (s : State) (off : Nat) : Word :=
  let r := s.frer (s.regF Reg.CTL_RIDX 15 0)
  let a := s.adapt (s.regF Reg.CTL_AIDX 13 0)
  if off = Reg.CTL_GCTL then
    let g := s.sgate (s.regF Reg.CTL_GIDX 9 0)
    let b (x : Bool) (i : Nat) : Nat := if x then 2 ^ i else 0
    wd (g.mult * 2 ^ 28 + b g.pending 27 + b g.bankB 26 + b g.invrx 25 + b g.invrxEn 24 + g.lenB * 2 ^ 16 + g.lenA)
  else if off = Reg.CTL_ASTAT then
    wd (((upTo 4).map (fun j => (if nth false a.noalt j then 2 ^ (8 + j) else 0) + nth 0 a.active j * 4 ^ j)).sum)
  else match idxOf off (Reg.CTL_FCNT 0) 5 4, idxOf off (Reg.CTL_RDATA 3) 5 4 with
    | some j, _ => wd (Sparse.get (fun _ => 0) s.ct.fcnt (s.regF Reg.CTL_FIDX 11 0 * 8 + j))
    | _, some i => if i = 0 then wd (r.recov + (if r.takeAny then 2 ^ 16 else 0)) else BitVec.extractLsb' (32 * (i - 1)) 32 r.hist
    | _, _ =>
      match idxOf off (Reg.CTL_RCNT 0) 8 4, idxOf off (Reg.CTL_MEAS 0 0) 16 4 with
      | some j, _ => wd (nth 0 r.counts j)
      | _, some i =>
        let m := nth (Meas.reset, 0, 0) a.shown (i / 4)
        nth 0 [wd m.1.frames, wd (min m.1.dups 65535 + min m.1.rogues 65535 * 2 ^ 16), BitVec.ofInt 32 (m.1.late.getD 0),
          wd (m.2.1 + m.2.2 * 2 ^ 16)] (i % 4)
      | _, _ => s.reg off

/-- SIG (0x018_0000). -/
def State.readSig (s : State) (off : Nat) : Word :=
  if off = Reg.SIG_VG_STATE then
    let x := s.vgState (s.regF Reg.SIG_VG_IDX 15 0)
    wd (x.drun * 2 ^ 16 + (if x.reported then 8 else 0) + x.good)
  else s.reg off

/-- PEAT (0x019_0000). -/
def State.readPeat (s : State) (off : Nat) : Word :=
  let x := s.pstream (s.regF Reg.PEAT_S_IDX 11 0)
  if off = Reg.PEAT_FIFO then wd s.pt.fifo.length
  else if off = Reg.PEAT_FIFO_HWM then wd s.pt.hwm
  else match idxOf off (Reg.PEAT_S_STAT 0) 4 4 with
    | some i => nth 0 [if x.opened then wd (x.flags * 2 ^ 16 + x.recs.length) else 0, wd (x.seq % 2 ^ 32), wd (x.seq / 2 ^ 32), x.committed] i
    | none => s.reg off

/-- CHK (0x01A_0000). -/
def State.readChk (s : State) (off : Nat) : Word :=
  match idxOf off Reg.CHK_MLOG0 6 4, s.ck.log with
  | some i, r :: _ => nth 0 [setBit r.head 31 true, lo32 r.expected, hi32 r.expected, lo32 r.actual, hi32 r.actual, r.tick] i
  | some _, [] => 0
  | none, _ => s.reg off

/-- DRC (0x01B_0000). -/
def State.readDrc (s : State) (off : Nat) : Word :=
  if off = Reg.DRC_STATUS then s.drcStatus
  else if off = Reg.DRC_RETIRE then s.drcRetired
  else match idxOf off (Reg.DRC_CH_STATUS 0) 8 0x2000 with
    | some c => s.chStatus c
    | none => s.reg off

/-- Does a thread of core c, with key k, run from I-RAM (R121)? No thread runs on page 16's core. -/
def State.coreFetches (s : State) (k c : Nat) : Bool :=
  decide (c < 16) && !(s.frond (k / 16)).gated && s.mode.threadsRun &&
    (coreTids k).any (fun t => decide ((s.thr t).run = .running) && !(s.thr t).halted && !(s.thr t).inBuffer)

/-- CORE_IPGATE of core c of frond f (R121): the core cycles (2.5 GHz) of the tick where no thread of the core fetched in it, and otherwise a
free number of them, since the model times no single fetch. -/
def State.ipGateCycles (s : State) (f c : Nat) : Word :=
  match s.tk.ipBase with
  | none => 0
  | some b =>
    let n := min s.tk.ipCycles 0xFFFFFFFF
    if (s.frond f).fetchedLast.contains c then wd ((Config.freeWord (b + f * 17 + c)).toNat % (n + 1)) else wd n

/-- A core page (page c, offset o in it). Page 16 shows the spare, and after a spare-in the failed core (chapter 05). -/
def State.readCore (s : State) (f c o off : Nat) : Word :=
  let k := s.core (f * 16 + c)
  if o = 0x18 then s.ipGateCycles f c
  else if o ≠ 0 then s.reg off
  else if c = 16 then (if (upTo 16).any (fun c => (s.core (f * 16 + c)).spareIn) then 16 else 0)
  else wd ((if k.fenced then 16 else 0) + (if k.spareIn then 8 else 0) + (if k.bankB then 2 else 0) + (if k.elastic then 1 else 0))

/-- A frond block (0x100_0000). -/
def State.readFrd (s : State) (off : Nat) : Word :=
  let f := (off - 0x1000000) / 0x100000
  let o := off % 0x100000
  let fr := s.frond f
  if 0x40000 ≤ o then s.readCore f ((o - 0x40000) / 0x800) (o % 0x800) off
  else if o = 0x1000 then wd (fr.lockHwm * 65536 + fr.locks.length)
  else if 0x2000 ≤ o ∧ o < 0x3000 then s.chanWord (f * 64 + (o - 0x2000) / 64) (o % 64) false
  else match idxOf off (Reg.FRD_TSK_LVL f 0) 32 4, idxOf off (Reg.FRD_CQ_LVL f 0) 5 4, idxOf off (Reg.FRD_CQ_HTAG f 0) 16 4 with
    | some l, _, _ => wd ((Sparse.get (fun _ => ([] : List Nat)) fr.ready l).length)
    | _, some k, _ => wd (Sparse.get (fun _ => 0) fr.qHwm k * 65536 + s.queued f k)
    | _, _, some i => s.hostTagWord f i
    | _, _, _ =>
      if off = Reg.FRD_CQ_ORPHAN f then (s.reg off &&& 0xFFFFFE00#32) ||| wd (s.orphans f) else s.reg off

/-- Is the port page at an offset that of a lane other than the first of a port in service (R506)? -/
def State.laneOfOther (s : State) (off : Nat) : Bool :=
  let p := (off - 0x200000) / 0x1000
  decide (0x200000 ≤ off ∧ off < 0x240000) && (upTo 64).any (fun b =>
    s.portOn b && decide (b < p ∧ p < b + modeLanes (s.regF (Reg.PORT_CFG b) 3 0)))

/-- The value of the register at an offset: 0 where none lies (R425), and for the other lanes' pages of a port (R506). -/
def State.regWord (s : State) (off : Nat) : Word :=
  match s.windowAt off with
  | some x => s.windowRead off x
  | none =>
    if off < 0x10000 then s.readMgt off
    else if off < 0x20000 then s.readRas off
    else if off < 0x40000 then s.readTime off
    else if off < 0x50000 then s.readChn off
    else if off < 0x70000 then s.readBlk off
    else if off < 0x80000 then s.readDbg off
    else if off < 0x120000 then s.reg off
    else if off < 0x130000 then s.readDsp off
    else if off < 0x140000 then s.readSwc off
    else if off < 0x150000 then s.readBpm off
    else if off < 0x160000 then s.readEgr off
    else if off < 0x170000 then s.readTbl off
    else if off < 0x180000 then s.readCtl off
    else if off < 0x190000 then s.readSig off
    else if off < 0x1A0000 then s.readPeat off
    else if off < 0x1B0000 then s.readChk off
    else if off < 0x1C0000 then s.readDrc off
    else if off < 0x1000000 then
      (if s.laneOfOther off ∧ off % 0x1000 ≠ 0 then 0 else s.readPort off)
    else s.readFrd off

/-! ### Latches and side effects (R511, R514) -/

/-- Is a register the LO half of a pair that holds one 64-bit value (R3)? The HI half lies 4 bytes above it. -/
def isLo (off : Nat) : Bool :=
  [Reg.MGT_LD_ADDR_LO, Reg.MGT_LD_RPT_LO, Reg.MGT_SWAP_TICK_LO, Reg.MGT_KEEP_BASE_LO, Reg.MGT_ABORT_LO, Reg.RAS_PORTHOLD_LO,
    Reg.RAS_LOST_DATA 1, Reg.RAS_LOST_DATA 3, Reg.TICK_NUMBER_LO, Reg.TICK_BTIME_LO, Reg.PTP_TIME_LO, Reg.PTP_STEP_LO, Reg.PTP_PPSIN_LO,
    Reg.PTP_TXTS_LO, Reg.DBG_TEL_TICK_LO, Reg.PEAT_S_STAT 1, Reg.CHK_HJ_W 0, Reg.CHK_HJ_W 4, Reg.CHK_HJ_RES_LO].contains off
  || isReg off (Reg.SWC_MIR_RING_LO 0) 16 0x20 || isReg off (Reg.BPM_BASE_LO 0) 64 0x40 || isReg off (Reg.BPM_EPUSE_LO 0) 256 8
  || isReg off (Reg.CHK_CH_SEED_LO 0) 64 0x10 || isReg off (Reg.DRC_CH_ELOG1 0) 8 0x2000 || isReg off (Reg.BLK_CH_ADDR_LO 0) 8 0x40
  || isReg off (Reg.BLK_CH_HOST_LO 0) 8 0x40 || isReg off (Reg.BLK_RNG_BASE_LO 0) 16 0x20 || isReg off (Reg.BLK_RNG_WB_LO 0) 16 0x20

/-- The key of a party's latch of a HI register. -/
def latchKey (p : Party) (hi : Nat) : Nat := 4 * hi + (match p with | .host => 0 | .jtag => 1 | .service => 2)

/-- A party's latched half of a HI register, if it has read LO since the last reset of the register's class. -/
def State.latched (s : State) (p : Party) (hi : Nat) : Option Word := Sparse.get (fun _ => none) s.latch (latchKey p hi)

/-- A read of LO latches HI for the reader. -/
def State.latchHi (s : State) (p : Party) (lo : Nat) : State :=
  { s with latch := Sparse.set (fun _ => none) s.latch (latchKey p (lo + 4)) (some (s.regWord (lo + 4))) }

/-- What a party reads: the half it latched, else the value of the register. -/
def State.valueFor (s : State) (p : Party) (off : Nat) : Word :=
  if isLo (off - 4) ∧ 4 ≤ off then (s.latched p off).getD (s.regWord off) else s.regWord off

/-- The side effect of a read (Table 23-3). -/
def State.readEffect (s : State) (off : Nat) : State :=
  if off = Reg.TICK_OVR_LOG1 then { s with tk.log := s.tk.log.drop 1 }
  else if off = Reg.PTP_TXTS_HI then { s with tb.txts := s.tb.txts.drop 1 }
  else if off = Reg.CHK_MLOG1 4 then { s with ck.log := s.ck.log.drop 1 }
  else if off = Reg.RAS_LOG 4 then s.rasPop
  else if off = Reg.BLK_VIOL2 then { s with host.viol := s.host.viol.drop 1 }
  else if off = Reg.CHN_REPL_LOG then { s with cn.replLog := s.cn.replLog.drop 1 }
  else if off < 0x1000000 then
    (match idxOf off (Reg.DRC_CH_ELOG2 0) 8 0x2000 with | some c => s.elogRead c | none => s)
  else
    let f := (off - 0x1000000) / 0x100000
    match idxOf off (Reg.CORE_FAULT_LAST1 f 0) 17 0x800, idxOf off (Reg.FRD_CQ_HTAG f 0) 16 4 with
    | some c, _ => s.setReg (Reg.CORE_FAULT_LAST0 f c) (setBit (s.reg (Reg.CORE_FAULT_LAST0 f c)) 31 false)
    | _, some i => s.hostTagTake f i
    | _, _ => s

/-- The registers that adjust the time base, which the time service alone writes while it runs (R23). -/
def adjustRegs : List Nat := [Reg.PTP_FADJ, Reg.PTP_PADJ, Reg.PTP_STEP_LO, Reg.PTP_STEP_HI]

/-- May a party reach an offset: the host every register, JTAG the DBG and RAS blocks (R494), the time service, while it runs, the
registers that adjust the time base (R23)? -/
def State.reaches (s : State) (p : Party) (off : Nat) : Bool :=
  match p with
  | .host => true
  | .service => s.regB Reg.PTP_CTRL 0 && adjustRegs.contains off
  | .jtag => !s.jtagShut p && (decide (0x10000 ≤ off ∧ off < 0x20000) || decide (0x70000 ≤ off ∧ off < 0x80000))

/-- An access to a frond's registers restarts its clock (R507). -/
def State.wakeReg (s : State) (off : Nat) : State :=
  if 0x1000000 ≤ off then s.wakeFrond ((off - 0x1000000) / 0x100000) else s

/-- IPGATED of a CORE_STATUS is what the core cycle of the read shows (R121): 1 while no thread of the core runs from I-RAM, and otherwise
free, since the model times no single fetch. -/
def State.ipGated (s : State) (off : Nat) (v : Word) : State × Word :=
  if 0x1000000 ≤ off ∧ 0x40000 ≤ off % 0x100000 ∧ off % 0x800 = 0 ∧ off % 0x100000 < 0x48800 then
    let c := (off % 0x100000 - 0x40000) / 0x800
    if s.coreFetches ((off - 0x1000000) / 0x100000 * 16 + c) c then
      let r := s.draw
      (r.2, v ||| (r.1 &&& 4#32))
    else (s, v ||| 4#32)
  else (s, v)

/-- A read of the register at an offset by a party: the value goes out, a LO half latches its HI half, and the side effects follow. A party
that DBGACC does not let reach the register reads 0; an access that is not word-aligned is completed as Unsupported Request (R425) and
recorded, with a free value since nothing was written. -/
def State.readReg (s : State) (p : Party) (off : Nat) : State :=
  if s.mode = .keep then s
  else if off % 4 ≠ 0 then
    let r := s.draw
    (r.2.violate 1 off r.1).emit .unsupported
  else if !s.reaches p off then s.emit (.readData p 0)
  else
    let s := s.wakeReg off
    let r := s.ipGated off (s.valueFor p off)
    let s : State := if isLo off then r.1.latchHi p off else r.1
    (s.readEffect off).emit (.readData p r.2)

end Sys2Proof.Machine
end

