-- ==== Sys2Proof/Machine/TickSource.lean ====
section
/-! DEFINITION. The time base and the tick sources (R21 to R31, R45, R527): adjustments of the time base, which source is in use, and which
event of a source makes a boundary. -/

namespace Sys2Proof.Machine

/-! ### The time base (R21, R22) -/

/-- PTP_FADJ as a write leaves it: clamped to ±549,755,814. -/
def clampFadj (v : Word) : Word :=
  if 549755814 < v.toInt then 549755814 else if v.toInt < -549755814 then BitVec.ofInt 32 (-549755814) else v

/-- A write of PTP_PADJ (R22): a slew over the signed ns in the register begins, in place of one in progress. -/
def State.padjWrite (s : State) (v : Word) : State := { s with tb.slew := v.toInt * 2 ^ 40 }

/-- The boundaries expected every TICK_PERIOD that a time step to `t` jumps over: those after the present instant and before `t` (R29). -/
def State.jumped (s : State) (t : Nat) : Nat :=
  match s.tk.last with
  | none => 0
  | some b =>
    let next := b.toNat + (1 + s.tk.ahead) * s.periodNs
    if s.now < next ∧ next < t then ceilDiv (t - next) (max 1 s.periodNs) else 0

/-- The time base takes a step of d ns (R21). The boundaries it jumps over do not occur (R29). DESIGN CHOICE (log entry 37): the span in
which a first boundary is awaited (R527) moves with the step, as no time passes in it. -/
def State.stepBy (s : State) (d : Int) : State :=
  let t := (s.tb.now.toNat : Int) + d
  { s with
    tb.now := BitVec.ofInt 64 t
    tk := { s.tk with
      ahead := s.tk.ahead + s.jumped t.toNat
      started := s.tk.started.map (fun x => BitVec.ofInt 64 ((x.toNat : Int) + d)) } }

/-- A write of PTP_STEP_HI in LOAD (R21): the time base takes the step, unless it would leave its range. -/
def State.stepHi (s : State) (v : Word) : State :=
  let s := s.setReg Reg.PTP_STEP_HI v
  let d := (pair (s.reg Reg.PTP_STEP_LO) v).toInt
  let t := (s.tb.now.toNat : Int) + d
  if t < 0 ∨ 2 ^ 64 ≤ t then s.refuse Reg.PTP_STEP_HI v else s.stepBy d

/-- One time-base clock (R21): 1 ns, corrected by PTP_FADJ and by the slew in progress. -/
def State.clock (s : State) : State :=
  let d := s.slewStep
  let f := ((s.tb.frac + 2 ^ 40 : Nat) : Int) + (s.reg Reg.PTP_FADJ).toInt + d
  { s with tb := { s.tb with
    now := s.tb.now + BitVec.ofNat 64 (f.toNat / 2 ^ 40)
    frac := f.toNat % 2 ^ 40
    slew := s.tb.slew - d } }

/-- A write of one of the registers that adjust the time base (R21 to R23): the time service alone writes them while it owns them. -/
def State.adjust (s : State) (p : Party) (off : Nat) (v : Word) : State :=
  if s.regB Reg.PTP_CTRL 0 ∧ p ≠ .service then s.refuse off v
  else if off = Reg.PTP_STEP_HI then s.stepHi v
  else if off = Reg.PTP_FADJ then s.setReg off (clampFadj v)
  else if off = Reg.PTP_PADJ then s.padjWrite v
  else s.setReg off v

/-- SLEW_END (R22): an instant by which the slew in progress is absorbed at its rate. Where it is not, no slew ends there and nothing
happens. -/
def execSlewEnd (at_ : DWord) (s : State) : Host.Outcome State Fault Refusal :=
  let u := s.advanceTo at_
  done (if s.tb.slew ≠ 0 ∧ u.tb.slew = 0 then u else s)

/-! ### Pulse pins (R45) -/

/-- PPS_IN (R45): a rising edge is timestamped. -/
def execPpsIn (at_ : DWord) (s : State) : Host.Outcome State Fault Refusal :=
  done (((s.advanceTo at_).setReg Reg.PTP_PPSIN_LO (lo32 at_)).setReg Reg.PTP_PPSIN_HI (hi32 at_))

/-- PPS_OUT (R45): while it is enabled the pin rises at the next whole second of the time base. -/
def execPpsOut (s : State) : Host.Outcome State Fault Refusal :=
  let t := BitVec.ofNat 64 (ceilDiv s.now 1000000000 * 1000000000)
  done (if s.regB Reg.PTP_CTRL 4 ∧ s.tb.ppsHigh.isNone then
      ({ s.advanceTo t with tb.ppsHigh := some t }).emit (.pin "PPS_OUT" true)
    else s)

/-- PPS_OUT_PULSE_END (R45): the pin falls PPSOUT_W µs after it rose. -/
def execPpsOutPulseEnd (s : State) : Host.Outcome State Fault Refusal :=
  done (match s.tb.ppsHigh with
    | none => s
    | some t =>
      let e := t + BitVec.ofNat 64 (s.regF Reg.PTP_PPSOUT_W 19 0 * 1000)
      ({ s.advanceTo e with tb.ppsHigh := none }).emit (.pin "PPS_OUT" false))

/-- TICK_OUT at a boundary (R45): while it is enabled the pin rises at every TICKOUT_DIV-th. -/
def State.tickOut (s : State) (t : DWord) : State :=
  let n := s.tk.outCount + 1
  let due := decide (s.regF Reg.TICK_OUT_CTRL 31 16 ≤ n)
  let s := { s with tk.outCount := if due then 0 else n }
  if due ∧ s.regB Reg.TICK_OUT_CTRL 0 ∧ s.tb.tickHigh.isNone then
    ({ s with tb.tickHigh := some t }).emit (.pin "TICK_OUT" true)
  else s

/-- TICK_OUT_PULSE_END (R45): the pin falls TICKOUT_W µs after it rose. -/
def execTickOutPulseEnd (s : State) : Host.Outcome State Fault Refusal :=
  done (match s.tb.tickHigh with
    | none => s
    | some t =>
      let e := t + BitVec.ofNat 64 (s.regF Reg.TICK_OUT_CTRL 15 1 * 1000)
      ({ s.advanceTo e with tb.tickHigh := none }).emit (.pin "TICK_OUT" false))

/-! ### Writes of the tick controller -/

/-- A write of TICK_CTRL in LOAD (R24, R31, R527): SRC_PRI 3 is refused and the field keeps its value; EN turning on starts the controller,
turning off stops it; another selection takes new sources as valid and does not restart it. -/
def State.tickCtrl (s : State) (v : Word) : State :=
  let old := s.reg Reg.TICK_CTRL
  let bad := decide (fld v 3 2 = 3)
  let new := (if bad then setFld v 3 2 (fld old 3 2) else v) &&& 0x3D#32
  let s := if bad then s.refuse Reg.TICK_CTRL v else s
  let known (c : Nat) : Option Source := if fld old 3 2 = c then some s.tk.pri else if fld old 5 4 = c then some s.tk.fb else none
  let s := s.setReg Reg.TICK_CTRL new
  if !bit new 0 then { s with tk := { s.tk with started := none, last := none, ahead := 0, holdover := false } }
  else if !bit old 0 then s.tickStart
  else
    let s := { s with tk := { s.tk with
      pri := (known s.srcPri).getD (s.newSource s.srcPri)
      fb := (known s.srcFb).getD (s.newSource s.srcFb) } }
    if s.srcChoice = s.tk.active then s
    else if (known s.srcChoice).isSome ∧ s.srcChoice ≠ 3 then s.awaitSource else s.useSource s.srcChoice

/-- TICK_CONTROLLER_START (R527): TICK_CTRL.EN is written 1, the selection kept. -/
def execTickControllerStart (s : State) : Host.Outcome State Fault Refusal :=
  let v := setBit (s.reg Reg.TICK_CTRL) 0 true
  done (if s.mode = .load then s.tickCtrl v else s.violate 2 Reg.TICK_CTRL v)

/-- A write of TICK_NUMBER_HI in LOAD (R29): the number of the next boundary is set, unless a swap is armed. -/
def State.tickNumberHi (s : State) (v : Word) : State :=
  if s.swapArm.isSome ∨ s.ct.swapAt.isSome ∨ s.sw.ports.any (fun (e : Nat × Port) => e.2.armed.isSome) then s.refuse Reg.TICK_NUMBER_HI v
  else { s with tk.setTo := some (BitVec.ofNat 48 (fld v 15 0 * 2 ^ 32 + (s.reg Reg.TICK_NUMBER_LO).toNat)) }

/-- TICK_NUMBER_HI (R29). -/
def execTickNumberHi (v : Word) (s : State) : Host.Outcome State Fault Refusal :=
  done (if s.mode = .load then s.tickNumberHi v else s.violate 2 Reg.TICK_NUMBER_HI v)

/-! ### Events of the sources (R25 to R28) -/

/-- The first instant from `t` on that meets the condition of Table 02-1 for PTP. -/
def State.gridFrom (s : State) (t : Nat) : Nat :=
  let p := max 1 s.periodNs
  let ph := (s.reg Reg.TICK_PHASE).toNat % p
  t + (p - (t + (p - ph)) % p) % p

/-- Is an instant at least half a period after the last boundary (R28, R31)? -/
def State.halfAfter (s : State) (t : Nat) : Bool :=
  match s.tk.last with
  | none => true
  | some b => decide (b.toNat + s.periodNs / 2 ≤ t)

/-- Where the next boundary is expected after a boundary at `b` (R25, R27): one TICK_PERIOD on, past those that a step jumped over (R29). -/
def State.expected (s : State) (b : DWord) : Nat := b.toNat + (1 + s.tk.ahead) * s.periodNs

/-- Does an instant lie in the span from the controller's start in which the first event is awaited (R527)? -/
def State.inSpan (s : State) (t : Nat) : Bool :=
  match s.tk.started with
  | none => false
  | some b => decide (b.toNat ≤ t) && decide (t ≤ b.toNat + s.periodNs + s.windowNs)

/-- Does an instant lie in the window around the expected boundary (R25), or, before the first, in the span from the start (R527)? -/
def State.inWindow (s : State) (t : Nat) : Bool :=
  match s.tk.last with
  | none => s.inSpan t
  | some b => decide (s.expected b ≤ t + s.windowNs) && decide (t ≤ s.expected b + s.windowNs)

/-- An event of a lost source (R28): after 8 consecutive ones at the period, within the window, it counts as restored. -/
def Source.requalify (x : Source) (t period window : Nat) : Source :=
  let ok : Bool := match x.last with
    | some l => decide (l.toNat + period ≤ t + window) && decide (t ≤ l.toNat + period + window)
    | none => false
  let n := if ok then x.good + 1 else 1
  if 8 ≤ n then ⟨false, 0, some (BitVec.ofNat 64 t)⟩ else ⟨true, n, some (BitVec.ofNat 64 t)⟩

/-- An event outside the window is counted, but for one in the span from the start (R25, R527). -/
def State.stray (s : State) (t : Nat) : State := if s.inSpan t then s else s.bump Reg.TICK_STRAY

/-- An event of source c at an instant: the state, and whether a boundary occurs there (R25 to R29). The source in use gives one in its
window. The one to be taken over gives one half a period after the last at the earliest; its earlier event is skipped, and its following
one ends the tick (R28). PTP repeats no boundary after a step back; an event that falls on the boundary just made is that boundary. PTP
stays lost while LOCKED is clear (Table 02-1). -/
def State.srcEvent (s : State) (c t : Nat) : State × Bool :=
  if !s.tickRuns ∨ (s.srcPri ≠ c ∧ s.srcFb ≠ c) ∨ (c = 1 ∧ s.cn.head) then (s, false)
  else if (s.source c).lost then
    (if c = 0 ∧ !s.regB Reg.PTP_STATUS 0 then s else s.setSource c ((s.source c).requalify t s.periodNs s.windowNs), false)
  else
    let s := s.setSource c ⟨false, 0, some (BitVec.ofNat 64 t)⟩
    if s.tk.active = c ∧ !s.tk.leaving then
      if c = 0 then (s, s.halfAfter t)
      else if s.inWindow t then (s, true)
      else (s.stray t, false)
    else if s.srcChoice ≠ c then (s, false)
    else if s.tk.last.map (fun b => b.toNat) = some t then (s.useSource c, false)
    else if s.halfAfter t then (s.useSource c, true)
    else ({ s with tk.leaving := true }, false)

/-- The instant at which the window of the awaited source closes (R25, R527): that of the boundary expected of the source in use. DESIGN
CHOICE (log entry 37): a source still to be taken over fails where neither it nor a boundary came for a period and the window. -/
def State.windowClose (s : State) : Nat :=
  match s.tk.last with
  | none => (s.tk.started.getD 0).toNat + s.periodNs + s.windowNs
  | some b =>
    if !s.tk.leaving ∧ s.tk.active = s.awaited then s.expected b + s.windowNs
    else max (s.expected b) (((s.source s.awaited).last.getD 0).toNat + s.periodNs) + s.windowNs

/-- The instant of the next boundary in holdover (R27, R527). -/
def State.holdoverAt (s : State) : Nat :=
  match s.tk.last with
  | some b => s.expected b
  | none => s.gridFrom s.now

/-- The next instant of source PTP. -/
def State.ptpAt (s : State) : Nat :=
  s.gridFrom (if (s.source 0).last = some s.tb.now ∨ s.tk.last = some s.tb.now then s.now + 1 else s.now)

/-- The time service's servo is locked or not (R23): PTP_STATUS.LOCKED follows while the service runs; when it clears, source PTP is lost. -/
def State.setLocked (s : State) (locked : Bool) : State :=
  if !s.regB Reg.PTP_CTRL 0 then s
  else
    let s := s.setRegF Reg.PTP_STATUS 0 0 (if locked then 1 else 0)
    if !locked ∧ s.tickRuns ∧ (s.srcPri = 0 ∨ s.srcFb = 0) then s.loseSource 0 else s

end Sys2Proof.Machine
end

