-- ==== Sys2Proof/Machine/Responder.lean ====
section
/-! DEFINITION. The resident responder (R365) and what it shares with the trend service: slow-path records, service addresses, replies. -/

namespace Sys2Proof.Machine

/-! ### Slow-path records (R250) and the frames they stand for -/

/-- A slow-path record with the frame it refers to, and where that has its outermost VLAN tag. -/
structure SlowRec where
  words : List Word
  frame : List Byte
  tagOff : Option Nat
  deriving DecidableEq, Repr

/-- The pool of the slow path. -/
def State.slowPool (s : State) : Nat := s.regF Reg.DSP_SLOW_CFG 15 10

/-- The record of a channel message. -/
def State.slowRec (s : State) (m : List Word) : SlowRec :=
  let pool := s.slowPool
  let f := s.bytes (s.elemAddr pool (fld (nth 0 m 0) 18 0)) (min (fld (nth 0 m 1) 14 0) (s.poolSize pool))
  ⟨m, f, ((tagsOf s.parseCfg f).find? (fun t => s.parseCfg.isVlan t.2.1)).map (fun t => t.1)⟩

/-- Frees the element of a record. -/
def State.freeRec (s : State) (r : SlowRec) : State :=
  (s.freeElem s.slowPool (fld (nth 0 r.words 0) 18 0 * s.poolSize s.slowPool)).1

/-- IN_LPORT of a record. -/
def SlowRec.lport (r : SlowRec) : Nat := fld (nth 0 r.words 1) 27 16
/-- Is a record truncated? -/
def SlowRec.trunc (r : SlowRec) : Bool := bit (nth 0 r.words 11) 28
/-- The type field of a record's frame. -/
def SlowRec.etype (r : SlowRec) : Nat := beAt r.frame (fld (nth 0 r.words 8) 7 0) 2
/-- The offset of the L3 header. -/
def SlowRec.l3 (r : SlowRec) : Nat := fld (nth 0 r.words 8) 15 8
/-- The offset of the L4 header. -/
def SlowRec.l4 (r : SlowRec) : Nat := fld (nth 0 r.words 8) 23 16
/-- The VID of a record's outermost VLAN tag; 0 without one. -/
def SlowRec.vid (r : SlowRec) : Nat := match r.tagOff with | some o => beAt r.frame (o + 2) 2 % 4096 | none => 0
/-- The outermost VLAN tag of a record's frame, if it has one. -/
def SlowRec.tag (r : SlowRec) : List Byte := match r.tagOff with | some o => slice r.frame o 4 | none => []
/-- n bytes of a record's frame. -/
def SlowRec.at_ (r : SlowRec) (o n : Nat) : List Byte := slice r.frame o n

/-- The oldest message of a channel is received (R183). -/
def State.takeMsg (s : State) (k : Nat) : Option (List Word × State) :=
  let ch := s.chan k
  match ch.msgs with
  | [] => none
  | m :: rest => some (m, s.setChan k { ch with msgs := rest, recv := ch.recv + 1 })

/-! ### Service addresses (R364) -/

/-- Is service address k valid? -/
def State.svcValid (s : State) (k : Nat) : Bool := decide (s.recF .svc k 0 0 0 = 1)
/-- Its IPv4 address is enabled. -/
def State.svc4 (s : State) (k : Nat) : Bool := s.svcValid k && decide (s.recF .svc k 0 1 1 = 1)
/-- Its IPv6 address is enabled. -/
def State.svc6 (s : State) (k : Nat) : Bool := s.svcValid k && decide (s.recF .svc k 0 2 2 = 1)
/-- Its MAC address in network order. -/
def State.svcMac (s : State) (k : Nat) : List Byte := beBytes 6 ((s.recW .svc k 1).toNat + s.recF .svc k 2 15 0 * 2 ^ 32)
/-- Its IPv4 address in network order. -/
def State.svcIp4 (s : State) (k : Nat) : List Byte := beBytes 4 (s.recW .svc k 3).toNat
/-- Its IPv6 address in network order. -/
def State.svcIp6 (s : State) (k : Nat) : List Byte := (upTo 4).flatMap (fun i => leBytes 4 (s.recW .svc k (4 + i)).toNat)
/-- Did a frame arrive with the address's VID, or untagged where it is not tagged? -/
def State.svcTag (s : State) (k : Nat) (r : SlowRec) : Bool :=
  if s.recF .svc k 0 3 3 = 1 then r.tagOff.isSome && decide (r.vid = s.recF .svc k 0 15 4) else r.tagOff.isNone

/-! ### Frames -/

/-- An ARP frame of operation op. -/
def arpFrame (dst src tag : List Byte) (op : Nat) (sha spa tha tpa : List Byte) : List Byte :=
  padTo 60 (dst ++ src ++ tag ++ [0x08, 0x06, 0, 1, 0x08, 0x00, 6, 4] ++ beBytes 2 op ++ sha ++ spa ++ tha ++ tpa)

/-- An IPv6 header: the class and flow bits, payload length, next header, hop limit, addresses. -/
def ip6Head (flow n nh hop : Nat) (src dst : List Byte) : List Byte :=
  beBytes 4 (6 * 2 ^ 28 + flow % 2 ^ 28) ++ beBytes 2 n ++ [BitVec.ofNat 8 nh, BitVec.ofNat 8 hop] ++ src ++ dst

/-- The checksum of an IPv6 payload under its pseudo header. -/
def sum6 (nh : Nat) (src dst body : List Byte) : Nat :=
  65535 - onesSum (src ++ dst ++ beBytes 4 body.length ++ [0, 0, 0, BitVec.ofNat 8 nh] ++ body)

/-- A Neighbor Advertisement for `ip` at `mac` with flags word `flags`, to `dip` at `dst`; class and flow label are `flow`. -/
def naFrame (dst tag : List Byte) (mac ip dip : List Byte) (flags flow : Nat) : List Byte :=
  let body : List Byte := [136, 0, 0, 0] ++ beBytes 4 flags ++ ip ++ [2, 1] ++ mac
  let body := patch body 2 (beBytes 2 (sum6 58 ip dip body))
  padTo 60 (dst ++ mac ++ tag ++ [0x86, 0xDD] ++ ip6Head flow body.length 58 255 ip dip ++ body)

/-- Sends a frame as EMIT does, where the injection threshold and the queue allow it; tells whether it did. -/
def State.sendSelf (s : State) (q : Nat) (bs : List Byte) : State × Bool :=
  if s.emitFull (cellsOf bs.length) || (s.queuePort q).isNone then (s, false) else (s.injectFrame bs q false, true)

/-! ### The responder (R365) -/

/-- Bit `b` of the services loaded on frond f is set (R169). -/
def State.service (s : State) (f b : Nat) : Bool := (s.frond f).services.testBit b
/-- Is a service loaded on some frond? -/
def State.serviceUp (s : State) (b : Nat) : Bool := (upTo 16).any (fun f => s.service f b)

/-- What the responder answers a record with: the reply, and whether it is an ARP reply. -/
def State.answer (s : State) (r : SlowRec) (flow : Nat) : Option (List Byte × Bool) :=
  let l3 := r.l3
  if r.etype = 0x0806 ∧ l3 ≠ 0 ∧ beAt r.frame (l3 + 6) 2 = 1 then
    match (upTo 16).find? (fun k => s.svc4 k && s.svcTag k r && decide (s.svcIp4 k = r.at_ (l3 + 24) 4)) with
    | some k =>
      let sha := r.at_ (l3 + 8) 6
      some (arpFrame sha (s.svcMac k) r.tag 2 (s.svcMac k) (s.svcIp4 k) sha (r.at_ (l3 + 14) 4), true)
    | none => none
  else if r.etype = 0x86DD ∧ l3 ≠ 0 ∧ r.l4 ≠ 0 ∧ byteAt r.frame (l3 + 6) = 58 ∧ byteAt r.frame (l3 + 7) = 255
      ∧ byteAt r.frame r.l4 = 135 ∧ byteAt r.frame (r.l4 + 1) = 0 then
    match (upTo 16).find? (fun k => s.svc6 k && decide (s.svcIp6 k = r.at_ (r.l4 + 8) 16)) with
    | some k =>
      let src := r.at_ (l3 + 8) 16
      let anon := src.all (fun b => b == 0)
      let allNodes : List Byte := [0xFF, 2, 0, 0, 0, 0, 0, 0, 0, 0, 0, 0, 0, 0, 0, 1]
      some (if anon then naFrame [0x33, 0x33, 0, 0, 0, 1] r.tag (s.svcMac k) (s.svcIp6 k) allNodes (2 ^ 29) flow
        else naFrame (r.at_ 6 6) r.tag (s.svcMac k) (s.svcIp6 k) src (2 ^ 29 + 2 ^ 30) flow, false)
    | none => none
  else none

/-- A record that is no request the responder answers: forwarded, or dropped and counted. -/
def State.forwardRec (s : State) (r : SlowRec) : State :=
  let cfg := s.reg Reg.SIG_SVC_CFG
  let sent := if bit cfg 16 then s.commitMsg (1024 + fld cfg 15 8) r.words else (s, false)
  if sent.2 then sent.1.bump (Reg.SIG_SVC_CNT 2) else (sent.1.freeRec r).bump (Reg.SIG_SVC_CNT 3)

/-- RESPONDER_RECORD (R365): the responder handles the oldest record of the slow-path channel; it waits while its reply finds the
injection threshold reached. -/
def State.respond (s : State) : State :=
  let cfg := s.reg Reg.DSP_SLOW_CFG
  let f := fld cfg 3 0
  if !s.service f 2 || !s.mode.threadsRun then s
  else match s.takeMsg (f * 64 + fld cfg 9 4) with
    | none => s
    | some (m, s') =>
      let r := s'.slowRec m
      let d := s'.draw
      match d.2.answer r d.1.toNat with
      | none => s'.forwardRec r
      | some (bs, arp) =>
        let t := d.2.sendSelf (512 + r.lport * 8 + d.2.regF Reg.SIG_SVC_CFG 19 17) bs
        if t.2 then (t.1.freeRec r).bump (Reg.SIG_SVC_CNT (if arp then 0 else 1)) else s

/-- The logical ports in use: those of configured ports, and the extended ports of valid map entries. -/
def State.lportsUp (s : State) : List Nat :=
  (upTo 64).filter (fun p => s.portOn p)
    ++ (s.regs.filterMap (fun e => idxOf e.1 (Reg.EGR_XP_L 64) 4032 4)).filterMap (fun i =>
      if (s.queuePort (512 + (64 + i) * 8)).isSome then some (64 + i) else none)

/-- ANNOUNCE (R365): one gratuitous ARP, a reply since the responder never sends a request, and one unsolicited Neighbor Advertisement for each
valid address. The spec gives neither the logical port, any of those in use, nor the PCP of an announcement's tag, the class and flow label or
the target hardware address: they are free. -/
def State.announce (s : State) : State :=
  (upTo 16).foldl (fun s k =>
    if !s.svcValid k then s
    else
      let d := s.draw
      let e := d.2.draw
      let h := e.2.draw64
      let s := h.2
      let l := s.lportsUp
      let q := 512 + nth 0 l (fld d.1 11 0 % l.length) * 8 + s.regF Reg.SIG_SVC_CFG 19 17
      let tag : List Byte := if s.recF .svc k 0 3 3 = 1 then [0x81, 0x00] ++ beBytes 2 (fld d.1 14 12 * 8192 + s.recF .svc k 0 15 4) else []
      let mac := s.svcMac k
      let ip := s.svcIp4 k
      let s := (s.sendSelf q (arpFrame (List.replicate 6 0xFF) mac tag 2 mac ip (beBytes 6 h.1.toNat) ip)).1
      (s.sendSelf q (naFrame [0x33, 0x33, 0, 0, 0, 1] tag mac (s.svcIp6 k)
        [0xFF, 2, 0, 0, 0, 0, 0, 0, 0, 0, 0, 0, 0, 0, 0, 1] (2 ^ 29) e.1.toNat)).1) s

end Sys2Proof.Machine
end

