-- ==== Sys2Proof/Machine/Trend.lean ====
section
/-! DEFINITION. The trend service and the Trend Read Protocol (R381 to R388). -/

namespace Sys2Proof.Machine

/-! ### The client table (R382) -/

/-- Word w of client entry i. -/
def State.clW (s : State) (i w : Nat) : Word := s.recW .client i w

/-- The bits of each word of a client entry that Table 15-8 gives a field; the reserved bits are not written (R509). -/
def clientMask : List Word := [0x00FFFFFF, 0x07FF0FFF, 0xFFFFFFFF, 0xFFFF, 0xFFFFFFFF, 0xFFFFFFFF, 0xFFFFFFFF, 0xFFFFFFFF]

/-- A write of PEAT_CL_DATA7 commits the client entry at PEAT_CL_IDX. -/
def State.clientCommit (s : State) (v : Word) : State :=
  let i := s.regF Reg.PEAT_CL_IDX 5 0
  let w := (s.windowWords .client i (Reg.PEAT_CL_DATA 0) 7) ++ [v]
  let s := s.clearStage (Reg.PEAT_CL_DATA 0) 8
  let w0 := nth 0 w 0
  let w1 := nth 0 w 1
  let mtu := fld w1 26 16
  if fld w0 23 16 ≤ (if bit w0 1 then 128 else 32) ∧ 576 ≤ mtu ∧ mtu ≤ 2000
      ∧ ((upTo 8).any (fun tc => (s.queuePort (512 + fld w1 11 0 * 8 + tc)).isSome)) then
    (s.setRecs .client i 0 (List.zipWith (fun x m => x &&& m) w clientMask)).peatWstat 2 0
  else s.peatWstat 2 1

/-- Do the first n bits of two addresses agree? -/
def prefixEq (n : Nat) (a b : List Byte) : Bool :=
  decide (beNat a / 2 ^ (8 * a.length - n) = beNat b / 2 ^ (8 * a.length - n))

/-- The entry that a request from a source address is served under: the longest prefix, then the lowest entry. -/
def State.client (s : State) (v6 : Bool) (src : List Byte) : Option Nat :=
  let l := (upTo 64).filter (fun i =>
    let w0 := s.clW i 0
    let a := if v6 then (upTo 4).flatMap (fun k => leBytes 4 (s.clW i (4 + k)).toNat) else leBytes 4 (s.clW i 4).toNat
    bit w0 0 && decide (bit w0 1 = v6) && prefixEq (fld w0 23 16) a src)
  argMax (fun i => fld (s.clW i 0) 23 16) l

/-! ### Requests -/

/-- A request: its service address, client entry, version, source address, source port, payload, and how many bytes of payload it
has; a payload shorter than a header stands with free bytes up to it. -/
structure TrpReq where
  svc : Nat
  client : Nat
  v6 : Bool
  src : List Byte
  port : Nat
  data : List Byte
  len : Nat
  lport : Nat
  deriving DecidableEq, Repr

/-- The UDP datagram of a record that R381 calls a request: service address, IP version, source address and port, payload. -/
def State.trpDatagram (s : State) (r : SlowRec) : Option (Nat × Bool × List Byte × Nat × List Byte) :=
  let v6 := decide (r.etype = 0x86DD)
  let src := if v6 then r.at_ (r.l3 + 8) 16 else r.at_ (r.l3 + 12) 4
  let dst := if v6 then r.at_ (r.l3 + 24) 16 else r.at_ (r.l3 + 16) 4
  let proto := if v6 then 17 else byteAt r.frame (r.l3 + 9)
  let data := r.at_ (r.l4 + 8) (beAt r.frame (r.l4 + 4) 2 - 8)
  let mask := s.regF Reg.PEAT_TRP_CFG0 31 16
  if r.trunc ∨ (r.etype ≠ 0x0800 ∧ !v6) ∨ r.l3 = 0 ∨ r.l4 = 0 ∨ proto ≠ 17
      ∨ !(bit (nth 0 r.words 10) 24) ∨ beAt r.frame (r.l4 + 2) 2 ≠ s.regF Reg.PEAT_TRP_CFG0 15 0 ∨ leAt data 0 2 ≠ 0x5254 then none
  else
    match (upTo 16).find? (fun k => mask.testBit k
        && (if v6 then s.svc6 k && decide (s.svcIp6 k = dst) else s.svc4 k && decide (s.svcIp4 k = dst))) with
    | some k => some (k, v6, src, beAt r.frame r.l4 2, data)
    | none => none

/-- Header fields of a request (Table 15-9). -/
def TrpReq.type (q : TrpReq) : Nat := byteAt q.data 3
/-- COUNT. -/
def TrpReq.count (q : TrpReq) : Nat := leAt q.data 6 2
/-- TOKEN. -/
def TrpReq.token (q : TrpReq) : Nat := leAt q.data 12 4
/-- The body. -/
def TrpReq.body (q : TrpReq) : List Byte := q.data.drop 16

/-- The length of the body of a request (Table 15-10). -/
def trpBodyLen (type count : Nat) : Nat :=
  if type = 1 then 4 * count else if type = 2 then 32 else if type = 3 then 40 else if type = 4 then 4 else 0

/-- The size of an item of a response. -/
def trpItemSize (type : Nat) : Nat := nth 1 [1, 24, 20, 40, 24, 32] type
/-- The size of a response's preamble. -/
def trpPreamble (type : Nat) : Nat := if type = 2 ∨ type = 3 then 8 else 0

/-- Does a stream hold a signal, by its record? -/
def State.peatHolds (s : State) (i n : Nat) : Bool :=
  let w := s.peatRec i
  decide (psFirst w ≤ n) && decide (n < psFirst w + psCount w)

/-- The stream that READ_RAW or READ_AGG of a signal reads (R385). -/
def State.trpStream (s : State) (n want : Nat) : Option Nat :=
  if want = 0xFFFF then
    s.peatStreams.find? (fun i =>
      let k := s.polKind (psPolicy (s.peatRec i))
      decide (1 ≤ k ∧ k ≤ 3) && s.peatHolds i n)
  else if want < 4096 ∧ s.peatValid want then
    let k := s.polKind (psPolicy (s.peatRec want))
    if k = 0 ∨ s.peatHolds want n then some want else none
  else none

/-- The signals a READ_LATEST names. -/
def trpSignals (body : List Byte) : List Nat := (upTo (body.length / 4)).map (fun k => leAt body (4 * k) 4)

/-- The checks of R387 on a new request: its status. -/
def State.trpCheck (s : State) (q : TrpReq) : Nat :=
  let t := q.type
  let b := q.body
  if byteAt q.data 2 ≠ 1 then 1
  else if t = 0 ∨ 5 < t then 2
  else if bit (s.clW q.client 0) 2 ∧ t ≠ 1 ∧ t ≠ 5 then 9
  else if q.len ≠ 16 + (if q.token = 0 then trpBodyLen t q.count else 0) then 3
  else if q.token ≠ 0 then (if q.count = 0 then 0 else 4)
  else if t = 1 then
    if q.count = 0 ∨ 256 < q.count then 4
    else if (trpSignals b).any (fun n => decide (524287 < n)) then 5 else 0
  else if t = 2 ∨ t = 3 then
    if q.count ≠ 1 then 4
    else if 524287 < leAt b 0 4 then 5
    else if (s.trpStream (leAt b 0 4) (leAt b 4 2)).isNone then 6
    else if leAt b 16 8 ≤ leAt b 8 8 ∨ leAt b 24 4 = 0 ∨ (t = 3 ∧ leAt b 32 8 = 0) then 7 else 0
  else if q.count ≠ 0 then 4
  else if t = 4 ∧ 4095 < leAt b 0 2 then 11 else 0

/-! ### Items (R384, R385) -/

/-- Item L of a signal. -/
def State.itemL (s : State) (n : Nat) : List Byte :=
  let e := s.sig n
  leBytes 4 n ++ [if e.valid then e.quality else 0x01, BitVec.ofNat 8 (e.type + (if e.valid then 4 else 0)), 0, 0]
    ++ leBytes 8 (if e.valid then e.value.toNat else 0) ++ leBytes 8 e.ts.toNat

/-- Is page q of a stream readable: in service, without an uncorrectable error (`bad` lists the pages that have one), and its checks
pass? -/
def State.pageReadable (s : State) (bad : List Nat) (i q : Nat) : Bool :=
  let w := (s.pstream i).run
  !s.dramRetired (pageAddr w q) && !bad.contains (pageAddr w q) && s.pageGood w i q

/-- A record found in a page: page, place, time, its bytes. -/
structure TrpFound where
  page : Nat
  idx : Nat
  time : Nat
  bytes : List Byte
  deriving DecidableEq, Repr

/-- The records of page q of stream i. -/
def State.pageRecs (s : State) (i q : Nat) : List TrpFound :=
  let bs := s.bytes (pageAddr (s.pstream i).run q) 4096
  (upTo (min 252 (leAt bs 40 2))).map (fun k =>
    let r := slice bs (64 + 16 * k) 16
    ⟨q, k, leAt bs 32 8 + byteAt r 3 + leAt r 4 4 * 256, r⟩)

/-- The records of a signal in a stream's readable pages with t0 ≤ time < t1, in page and record order; whether a page had to be
skipped. -/
def State.trpRecords (s : State) (bad : List Nat) (i n t0 t1 : Nat) : List TrpFound × Bool :=
  let qs := (s.pstream i).retained
  let l := (qs.filter (fun q => s.pageReadable bad i q)).flatMap (fun q => s.pageRecs i q)
  (l.filter (fun x => decide (leAt x.bytes 0 4 % 2 ^ 20 = n ∧ t0 ≤ x.time ∧ x.time < t1)), qs.any (fun q => !s.pageReadable bad i q))

/-- The time of the oldest retained record of a stream. -/
def State.oldestTime (s : State) (bad : List Nat) (i : Nat) : Option Nat :=
  (((s.pstream i).retained.filter (fun q => s.pageReadable bad i q)).flatMap (fun q => (s.pageRecs i q).take 1)).head?.map (fun x => x.time)

/-- Item R of a record. -/
def itemR (x : TrpFound) : List Byte := leBytes 8 x.time ++ slice x.bytes 8 8 ++ [BitVec.ofNat 8 (byteAt x.bytes 2 / 16), 0, 0, 0]

/-- Item A of an interval from `a` on, over the samples in it (R385). -/
def State.itemA (s : State) (ty a : Nat) (l : List TrpFound) : State × List Byte :=
  let good := l.filter (fun x => decide (byteAt x.bytes 2 / 16 % 4 = 0 ∧ byteAt x.bytes 2 / 64 ≠ 0))
  let r := good.foldl (fun (acc : State × PSig) x =>
    acc.1.addSample ty acc.2 (BitVec.ofNat 64 (leAt x.bytes 8 8)) (byteAt x.bytes 2 / 64)) (s, PSig.reset)
  let g := r.2
  let m := r.1.windowMean ty g
  (m.1, leBytes 8 a ++ leBytes 8 g.lo.toNat ++ leBytes 8 g.hi.toNat ++ leBytes 8 m.2.toNat ++ leBytes 4 g.n
    ++ [if g.notGood then 1 else 0, 0, 0, 0])

/-- Item S of a stream. -/
def State.itemS (s : State) (i : Nat) : List Byte :=
  let w := s.peatRec i
  let x := s.pstream i
  let t := if x.has ∧ x.run = w then leAt (s.bytes (pageAddr w x.oldest + 32) 8) 0 8 else 0
  leBytes 2 i ++ [BitVec.ofNat 8 (s.polKind (psPolicy w)), BitVec.ofNat 8 (psPolicy w)] ++ leBytes 4 (psFirst w) ++ leBytes 4 (psCount w)
    ++ leBytes 4 (psPages w) ++ leBytes 8 t

/-- Item T. -/
def State.itemT (s : State) : List Byte :=
  let lost := satAdd 0xFFFFFFFF (s.reg Reg.PEAT_DROP).toNat (s.reg Reg.PEAT_SKIP).toNat
  let chain := match s.cn.addr with | some a => a.toNat | none => 0
  let st := (if s.mode = .island then 1 else 0) + (if s.tk.holdover then 2 else 0) + (if s.regB Reg.PTP_STATUS 0 then 4 else 0)
  leBytes 8 s.now ++ leBytes 8 s.tick ++ leBytes 2 (s.regF Reg.TICK_PERIOD 15 0) ++ [BitVec.ofNat 8 chain, BitVec.ofNat 8 st]
    ++ leBytes 2 s.peatStreams.length ++ [0, 0] ++ leBytes 4 lost
    ++ leBytes 4 ((s.reg (Reg.PEAT_TRP_CNT 0)).toNat + (s.reg (Reg.PEAT_TRP_CNT 1)).toNat)

/-- A part of a response: preamble, items, its FLAGS without MORE, and where the next part resumes, if items remain. -/
structure TrpPart where
  preamble : List Byte
  items : List (List Byte)
  flags : Nat
  next : Option TrpPos
  deriving DecidableEq, Repr

/-- The first place of a request. -/
def trpStart (type : Nat) (b : List Byte) : TrpPos :=
  ⟨if type = 1 then trpSignals b else [], 0, 0, if type = 4 then leAt b 0 2 else 0, if type = 2 ∨ type = 3 then leAt b 24 4 else 0⟩

/-- The part of a response of at most `cap` items that begins at a place (R385, R386). -/
def State.trpPart (s : State) (bad : List Nat) (type : Nat) (b : List Byte) (at_ : TrpPos) (first : Bool) (cap : Nat) : State × TrpPart :=
  if type = 1 then
    let rest := at_.signals.drop cap
    (s, ⟨[], (at_.signals.take cap).map (fun n => s.itemL n), 0, if rest.isEmpty then none else some { at_ with signals := rest }⟩)
  else if type = 4 then
    let l := s.peatStreams.filter (fun i => decide (at_.k ≤ i))
    (s, ⟨[], (l.take cap).map (fun i => s.itemS i), 0, (l.drop cap).head?.map (fun i => { at_ with k := i })⟩)
  else if type = 5 then (s, ⟨[], [s.itemT], 0, none⟩)
  else
    let n := leAt b 0 4
    let i := (s.trpStream n (leAt b 4 2)).getD 0
    let t0 := leAt b 8 8
    let t1 := leAt b 16 8
    let ty := (s.sig n).type
    let pre := leBytes 4 n ++ leBytes 2 i ++ [BitVec.ofNat 8 ty, 0]
    let r := s.trpRecords bad i n t0 t1
    let early := match s.oldestTime bad i with | some t => decide (t0 < t) | none => false
    let gone := !first && decide (type = 2) && decide (at_.page < (s.pstream i).oldest)
    let flags := (if r.2 then 2 else 0) + (if early || gone then 4 else 0)
    if type = 2 then
      let l := r.1.filter (fun x => first || gone || decide (at_.page < x.page) || (decide (x.page = at_.page) && decide (at_.idx ≤ x.idx)))
      let m := min cap at_.left
      let out := l.take m
      let more := !(l.drop m).isEmpty && decide (m < at_.left)
      let last := match out.getLast? with | some x => (x.page, x.idx + 1) | none => (at_.page, at_.idx)
      (s, ⟨pre, out.map itemR, flags, if more then some { at_ with page := last.1, idx := last.2, left := at_.left - out.length } else none⟩)
    else
      let iv := leAt b 32 8
      let total := ceilDiv (t1 - t0) iv
      let m := min (min cap at_.left) (total - at_.k)
      let res := (upTo m).foldl (fun (a : State × List (List Byte)) j =>
        let lo := t0 + (at_.k + j) * iv
        let hi := min (lo + iv) t1
        let it := a.1.itemA ty lo (r.1.filter (fun x => decide (lo ≤ x.time ∧ x.time < hi)))
        (it.1, a.2 ++ [it.2])) (s, [])
      let more := decide (at_.k + m < total) && decide (m < at_.left)
      (res.1, ⟨pre, res.2, flags, if more then some { at_ with k := at_.k + m, left := at_.left - m } else none⟩)

/-! ### Replies (R386, R388) -/

/-- A cursor. -/
def State.cursor (s : State) (i : Nat) : Cursor := Sparse.get (fun _ => Cursor.reset) s.pt.cursors i
/-- Writes a cursor. -/
def State.setCursor (s : State) (i : Nat) (c : Cursor) : State :=
  { s with pt.cursors := Sparse.set (fun _ => Cursor.reset) s.pt.cursors i c }
/-- The generation after g: 27 bits, never 0. -/
def nextGen (g : Nat) : Nat := if (g + 1) % 2 ^ 27 = 0 then 1 else (g + 1) % 2 ^ 27

/-- A response's payload. -/
def trpPayload (q : TrpReq) (status flags count token : Nat) (body : List Byte) : List Byte :=
  leBytes 2 0x5254 ++ [1, BitVec.ofNat 8 (q.type + 0x80), BitVec.ofNat 8 status, BitVec.ofNat 8 flags] ++ leBytes 2 count
    ++ slice q.data 8 4 ++ leBytes 4 token ++ body

/-- The reply frame of R388; `tos` is the free type of service or traffic class. -/
def State.trpFrame (s : State) (q : TrpReq) (tos : Nat) (payload : List Byte) : List Byte :=
  let w0 := s.clW q.client 0
  let mac := beBytes 6 ((s.clW q.client 2).toNat + fld (s.clW q.client 3) 15 0 * 2 ^ 32)
  let tc := s.regF Reg.PEAT_TRP_CFG1 18 16
  let tag : List Byte := if bit w0 3 then [0x81, 0x00] ++ beBytes 2 (tc * 8192 + fld w0 15 4) else []
  let src := if q.v6 then s.svcIp6 q.svc else s.svcIp4 q.svc
  let n := 8 + payload.length
  let udp := beBytes 2 (s.regF Reg.PEAT_TRP_CFG0 15 0) ++ beBytes 2 q.port ++ beBytes 2 n ++ [0, 0] ++ payload
  let c := if q.v6 then sum6 17 src q.src udp else 65535 - onesSum (src ++ q.src ++ [0, 17] ++ beBytes 2 n ++ udp)
  let udp := patch udp 6 (beBytes 2 (if c = 0 then 65535 else c))
  let eth := mac ++ s.svcMac q.svc ++ tag
  if q.v6 then padTo 60 (eth ++ [0x86, 0xDD] ++ ip6Head (tos % 256 * 2 ^ 20) n 17 64 src q.src ++ udp)
  else
    let h : List Byte := [0x45, BitVec.ofNat 8 tos] ++ beBytes 2 (20 + n) ++ [0, 0, 0x40, 0, 64, 17, 0, 0] ++ src ++ q.src
    padTo 60 (eth ++ [0x08, 0x00] ++ patch h 10 (beBytes 2 (65535 - onesSum h)) ++ udp)

/-- Sends a reply, or holds it while EMIT answers FULL (R388). -/
def State.trpSend (s : State) (q : TrpReq) (payload : List Byte) : State :=
  let d := s.draw
  let s := d.2
  let f := s.trpFrame q d.1.toNat payload
  let queue := 512 + fld (s.clW q.client 1) 11 0 * 8 + s.regF Reg.PEAT_TRP_CFG1 18 16
  let r := s.sendSelf queue f
  if r.2 then r.1 else { s with pt.reply := some (f, queue) }

/-- An error response; a malformed request, of status 1 to 4, is a partner violation too (Table 21-4). -/
def State.trpError (s : State) (q : TrpReq) (status : Nat) : State :=
  let s := if status ≤ 4 then s.partner 9 q.lport q.lport else s
  ((if status = 10 then s.bump (Reg.PEAT_TRP_CNT 6) else s).bump (Reg.PEAT_TRP_CNT 1)).trpSend q (trpPayload q status 0 0 0 [])

/-- The items that fit a response (R386). -/
def State.trpCap (s : State) (q : TrpReq) : Nat :=
  (fld (s.clW q.client 1) 26 16 - (if q.v6 then 40 else 20) - 8 - 16 - trpPreamble q.type) / trpItemSize q.type

/-- Sends a part with a token. -/
def State.trpReply (s : State) (q : TrpReq) (p : TrpPart) (token : Nat) : State :=
  (s.bump (Reg.PEAT_TRP_CNT 0)).trpSend q
    (trpPayload q 0 (p.flags + (if p.next.isSome then 1 else 0)) p.items.length token (p.preamble ++ p.items.flatten))

/-- Answers a new request that passed its checks. -/
def State.trpNew (s : State) (bad : List Nat) (q : TrpReq) : State :=
  let r := s.trpPart bad q.type q.body (trpStart q.type q.body) true (s.trpCap q)
  match r.2.next with
  | none => r.1.trpReply q r.2 0
  | some pos =>
    match (upTo 32).find? (fun i => !(s.cursor i).used) with
    | none => s.trpError q 10
    | some i =>
      let g := nextGen (s.cursor i).gen
      let s := r.1.setCursor i ⟨true, q.src, q.port, q.type, q.body, g, pos, none, r.1.tb.now⟩
      s.trpReply q r.2 (i * 2 ^ 27 + g)

/-- Answers a continuation (R386). -/
def State.trpMore (s : State) (bad : List Nat) (q : TrpReq) : State :=
  let i := q.token / 2 ^ 27
  let g := q.token % 2 ^ 27
  let c := s.cursor i
  let mine := c.used && decide (c.addr = q.src) && decide (c.port = q.port) && decide (c.type = q.type)
  let s0 := s.bump (Reg.PEAT_TRP_CNT 4)
  if mine ∧ g = c.gen then
    let r := s0.trpPart bad q.type c.body c.pos false (s.trpCap q)
    match r.2.next with
    | none => (r.1.setCursor i { c with used := false }).trpReply q r.2 0
    | some pos =>
      let g' := nextGen g
      (r.1.setCursor i { c with gen := g', pos := pos, prev := some c.pos, issued := r.1.tb.now }).trpReply q r.2 (i * 2 ^ 27 + g')
  else match c.prev with
    | some p =>
      if mine ∧ nextGen g = c.gen then
        let r := s0.trpPart bad q.type c.body p false (s.trpCap q)
        r.1.trpReply q { r.2 with next := some c.pos } (i * 2 ^ 27 + c.gen)
      else s.trpError q 8
    | none => s.trpError q 8

/-- A payload with a whole header: a shorter one is filled up with free bytes, which are what its response echoes of them. -/
def State.padHead (s : State) (data : List Byte) : List Byte × State :=
  if 16 ≤ data.length then (data, s)
  else
    let a := s.draw64
    let b := a.2.draw64
    (data ++ (leBytes 8 a.1.toNat ++ leBytes 8 b.1.toNat).drop data.length, b.2)

/-- TRP_REQUEST (R381, R387): the trend service handles the oldest message of its channel; a reply that EMIT refused is tried again
first. -/
def State.trpRequest (s : State) (bad : List Nat) : State :=
  let cfg := s.reg Reg.PEAT_TRP_CFG1
  if !bit cfg 31 || !s.serviceUp 1 || !s.mode.threadsRun then s
  else match s.pt.reply with
    | some (f, q) =>
      let r := s.sendSelf q f
      if r.2 then { r.1 with pt.reply := none } else s
    | none =>
      match s.takeMsg (1024 + fld cfg 7 0) with
      | none => s
      | some (m, s) =>
        let rec_ := s.slowRec m
        match s.trpDatagram rec_ with
        | none => (s.freeRec rec_).bump (Reg.PEAT_TRP_CNT 3)
        | some (k, v6, src, port, data) =>
          let s := s.freeRec rec_
          match s.client v6 src with
          | none => s.bump (Reg.PEAT_TRP_CNT 2)
          | some c =>
            let d := s.padHead data
            let s := d.2
            let q : TrpReq := ⟨k, c, v6, src, port, d.1, data.length, rec_.lport⟩
            let st := s.trpCheck q
            if st ≠ 0 then s.trpError q st else if q.token ≠ 0 then s.trpMore bad q else s.trpNew bad q

/-- CURSOR_EXPIRY (R386): cursor i is freed TOKTIME seconds after its latest token was issued. -/
def State.cursorExpiry (s : State) (i : Nat) : State :=
  let c := s.cursor i
  if c.used ∧ c.issued.toNat + s.regF Reg.PEAT_TRP_CFG1 15 8 * 1000000000 ≤ s.now then
    (s.setCursor i { c with used := false }).bump (Reg.PEAT_TRP_CNT 5)
  else s

/-- At a boundary a reply still waiting for EMIT is discarded and counted (R388). -/
def State.trpBoundary (s : State) : State :=
  if s.pt.reply.isSome then { s with pt.reply := none }.bump (Reg.PEAT_TRP_CNT 7) else s

end Sys2Proof.Machine
end

