-- ==== Sys2Proof/Machine/RegWrite.lean ====
section
/-! DEFINITION. Writing a register of BAR0 (R4, R425, R506, R509 to R513): the rules of access, and what a write of each register does. -/

namespace Sys2Proof.Machine

/-- A write with no effect but the register's own (R4, R509): RW and RWL fields take the value, W1C fields clear, W1S fields set; a write
of a reserved or RO bit is ignored. -/
def State.plainWrite (s : State) (r : RegRow) (off : Nat) (v : Word) : State :=
  let old := s.reg off
  let m := wd (Nat.lor r.rw r.rwl)
  s.setReg off (((old &&& ~~~m) ||| (v &&& (m ||| wd r.w1s))) &&& ~~~(v &&& wd r.w1c))

/-- A field write that is left out of a plain write: the field keeps its value, the rest takes effect, and the write is logged. -/
def State.writeKeeping (s : State) (r : RegRow) (off hi lo : Nat) (v : Word) : State :=
  (s.plainWrite r off (setFld v hi lo (s.regF off hi lo))).refuse off v

/-- A plain write, unless `bad`: then ignored whole and logged. -/
def State.writeUnless (s : State) (bad : Bool) (r : RegRow) (off : Nat) (v : Word) : State :=
  if bad then s.refuse off v else s.plainWrite r off v

/-- A plain write of an index register, which discards the staging of its window of n data words (R512). -/
def State.writeIndex (s : State) (r : RegRow) (off base n : Nat) (v : Word) : State := (s.plainWrite r off v).clearStage base n

/-! ### MGT, RAS, CHN, BLK, CLK, DBG -/

/-- MGT (0x000_0000). -/
def State.writeMgt (s : State) (r : RegRow) (off : Nat) (v : Word) : State :=
  if off = Reg.MGT_MODE_CMD then s.modeCmd v
  else if off = Reg.MGT_DRAIN_LIMIT then s.writeUnless (decide (fld v 15 0 = 0)) r off v
  else if off = Reg.MGT_RESET then s.resetWrite v
  else if off = Reg.MGT_DP_RESET then s.dpResetWrite v
  else if off = Reg.MGT_HEARTBEAT then s.heartbeat v
  else if off = Reg.MGT_LD_CMD then s.loadCmd v
  else if off = Reg.MGT_ABORT_HI then s.abortHi v
  else s.plainWrite r off v

/-- RAS (0x001_0000). -/
def State.writeRas (s : State) (r : RegRow) (off : Nat) (v : Word) : State :=
  if off = Reg.RAS_REPLACE then s.clearReplace v
  else if off = Reg.RAS_PORTHOLD_LO then s.portRelease off 0 v
  else if off = Reg.RAS_PORTHOLD_HI then s.portRelease off 32 v
  else if off = Reg.RAS_THERM then (s.plainWrite r off v).thermCheck
  else s.plainWrite r off v

/-- CHN (0x004_0000). -/
def State.writeChn (s : State) (r : RegRow) (off : Nat) (v : Word) : State :=
  if off = Reg.CHN_STATUS then
    { s with cn := { s.cn with ovf := s.cn.ovf && !bit v 27, addrErr := s.cn.addrErr && !bit v 26 } }
  else if off = Reg.CHN_CMD then (if !bit v 0 then s else if s.cn.head then s.sendEnum else s.refuse off v)
  else if off = Reg.CHN_MSGTO then s.writeUnless (decide (fld v 15 0 < 80)) r off v
  else if off = Reg.CHN_TX_CMD then (if bit v 0 then s.chainGo else s)
  else s.plainWrite r off v

/-- BLK and CLK (0x005_0000, 0x006_0000). -/
def State.writeBlk (s : State) (r : RegRow) (off : Nat) (v : Word) : State :=
  if off = Reg.BLK_MBX_DB then s.doorbell v
  else if off = Reg.CLK_GATE_IDLE then s.writeUnless (decide (fld v 15 0 < 16)) r off v
  else if off = Reg.CLK_PLLOFF then s.pllOffWrite v
  else match idxOf off (Reg.BLK_CH_ADDR_HI 0) 8 0x40, idxOf off (Reg.BLK_CH_CMD 0) 8 0x40 with
    | some c, _ => s.bulkArm c v
    | _, some c => if fld v 1 0 = 1 ∨ fld v 1 0 = 2 then s.bulkCmd c (fld v 1 0) none else s
    | _, _ =>
      match idxOf off (Reg.BLK_RNG_CFG 0) 16 0x20, idxOf off (Reg.BLK_RNG_RD 0) 16 0x20 with
      | some k, _ => s.ringCfg k v
      | _, some k => s.ringDoor k v
      | _, _ => s.plainWrite r off v

/-- DBG (0x007_0000), by the party that writes. -/
def State.writeDbg (s : State) (p : Party) (r : RegRow) (off : Nat) (v : Word) : State :=
  if off = Reg.DBG_LOCK then s.dbgLock p v
  else if off = Reg.DBG_TCTL then s.dbgTctl p v
  else if off = Reg.DBG_TCMD then s.dbgCmd p v
  else if off = Reg.DBG_TREG_DATA then s.tregData p v
  else if off = Reg.DBG_LKREL_CTL then s.lkrelCtl p v
  else if off = Reg.DBG_CNTCLR then s.cntClr v
  else if off = Reg.DBG_TEL_CTL then s.telCtl v
  else match idxOf off (Reg.DBG_BP 0) 8 4 with
    | some i => s.dbgPoint p off i (wd r.rw) v
    | none => s.plainWrite r off v

/-! ### TICK and PTP -/

/-- TICK and PTP (0x002_0000, 0x003_0000), by the party that writes. -/
def State.writeTime (s : State) (p : Party) (r : RegRow) (off : Nat) (v : Word) : State :=
  if off = Reg.TICK_CTRL then s.tickCtrl v
  else if off = Reg.TICK_PERIOD then s.writeUnless (decide (fld v 15 0 < 10)) r off v
  else if off = Reg.TICK_NUMBER_HI then s.tickNumberHi v
  else if adjustRegs.contains off then s.adjust p off v
  else if off = Reg.PTP_SLEW then s.writeUnless (decide (fld v 6 0 = 0 ∨ 100 < fld v 6 0)) r off v
  else s.plainWrite r off v

/-! ### The data plane -/

/-- PRS and CLS (0x010_0000, 0x011_0000). -/
def State.writeCls (s : State) (r : RegRow) (off : Nat) (v : Word) : State :=
  if off = Reg.PRS_CTRL then s.writeUnless (decide (fld v 8 0 < 64 ∨ 256 < fld v 8 0)) r off v
  else if off = Reg.CLS_RULE_CMD then
    match fld v 25 24 with
    | 1 => s.ruleWrite (fld v 11 0)
    | 2 => s.ruleRead (fld v 11 0)
    | 3 => s.ruleInvalidate (fld v 11 0)
    | _ => s.plainWrite r off v
  else if isReg off (Reg.CLS_RANGE0 0) 256 8 then
    if [0, 4, 5, 7, 9, 16, 17, 23].contains (fld v 4 0) then s.plainWrite r off v else s.writeKeeping r off 4 0 v
  else s.plainWrite r off v

/-- DSP (0x012_0000). -/
def State.writeDsp (s : State) (r : RegRow) (off : Nat) (v : Word) : State :=
  match idxOf off (Reg.DSP_QLVL 0) 16 4 with
  | some f => if bit v 31 then { s with sw.dispHwm := Sparse.set (fun _ => 0) s.sw.dispHwm f (s.dispQ f).length } else s
  | none => s.plainWrite r off v

/-- SWC (0x013_0000). -/
def State.writeSwc (s : State) (r : RegRow) (off : Nat) (v : Word) : State :=
  if off = Reg.SWC_QSEL then
    let q := fld v 15 0
    let s := s.plainWrite r off v
    s.setOutq q { s.outq q with hwm := s.qDepth q }
  else if off = Reg.SWC_QCFG then
    let q := s.regF Reg.SWC_QSEL 15 0
    s.setOutq q { s.outq q with profile := fld v 3 0 }
  else if off = Reg.SWC_MCG_DATA then s.setRec .mcg (s.regF Reg.SWC_MCG_IDX 13 0) 0 (v &&& wd r.rw)
  else if off = Reg.SWC_MCM_DATA then s.setRec .mcm (s.regF Reg.SWC_MCM_IDX 15 0) 0 (v &&& wd r.rw)
  else if isReg off (Reg.SWC_MIR_CFG 0) 16 0x20 then
    (if fld v 2 1 = 3 then s.writeKeeping r off 2 1 v else s.plainWrite r off v)
  else if isReg off (Reg.SWC_RXF_CFG 0) 64 0x10 then
    (if fld v 1 0 = 3 then s.writeKeeping r off 1 0 v else s.plainWrite r off v)
  else if off = Reg.SWC_GLB_XOFF ∨ off = Reg.SWC_GLB_XON then (s.plainWrite r off v).accounts
  else match idxOf off (Reg.SWC_IPT 0 0) 512 4 with
    | some k => (s.plainWrite r off v).accountOf k
    | none => s.plainWrite r off v

/-- BPM_HALLOC (R279): the host allocates an element; the answer shows in the register. -/
def State.hostAlloc (s : State) (n : Nat) : State :=
  let a := s.allocElem n .host
  a.1.setReg Reg.BPM_HALLOC (match a.2 with | some i => wd (2 ^ 31 + i) | none => 0xC0000000)

/-- BPM_HFREE (R278): the host frees an element by its index; the outcome shows in BPM_HSTATUS, and a failure is logged as a RAS error whose
code and objects, which Table 21-3 does not give, are free. -/
def State.hostFree (s : State) (n i : Nat) : State :=
  let a := s.freeElem n (i * s.poolSize n)
  let s := a.1.setReg Reg.BPM_HSTATUS (wd a.2)
  if a.2 = 0 then s
  else
    let c := s.draw
    let d := c.2.draw64
    d.2.rasEvent (c.1.toNat % 256) (lo32 d.1) (hi32 d.1) 1

/-- BPM (0x014_0000). -/
def State.writeBpm (s : State) (r : RegRow) (off : Nat) (v : Word) : State :=
  if off = Reg.BPM_HALLOC then s.hostAlloc (fld v 5 0)
  else if off = Reg.BPM_HFREE then s.hostFree (fld v 29 24) (fld v 22 0)
  else match idxOf off (Reg.BPM_CFG 0) 64 0x40 with
    | some n => if bit v 31 then s.poolConfig n v else (s.plainWrite r off v).poolOff n
    | none =>
      let s := s.plainWrite r off v
      let n := (off - Reg.BPM_CFG 0) / 0x40
      let o := off % 0x40
      if off < Reg.BPM_CFG 64 ∧ 0x14 ≤ o ∧ o ≤ 0x20 ∧ (s.pool n).valid then s.poolLevel n else s

/-- EGR_GCL_LEN (R292): the length of the active bank is refused and logged, as is one outside 1–256. -/
def State.gclLenWrite (s : State) (p : Nat) (v : Word) : State :=
  let off := Reg.EGR_GCL_LEN p
  let b := (s.port p).gateBank
  let bad (x old : Nat) (active : Bool) : Bool := decide (x ≠ old) && (active || decide (x = 0) || decide (256 < x))
  let la := fld v 8 0
  let lb := fld v 24 16
  let ba := bad la (s.regF off 8 0) (!b)
  let bb := bad lb (s.regF off 24 16) b
  let s' := s.setReg off (wd ((if bb then s.regF off 24 16 else lb) * 2 ^ 16 + (if ba then s.regF off 8 0 else la)))
  if ba ∨ bb then s'.refuse off v else s'

/-- EGR (0x015_0000). -/
def State.writeEgr (s : State) (r : RegRow) (off : Nat) (v : Word) : State :=
  let p := off / 0x20 % 64
  if off < 0x154000 then
    let s := s.syncPort ((off - 0x150000) / 0x100)
    (if off % 16 = 0 ∧ fld v 1 0 = 3 then s.writeKeeping r off 1 0 v else s.plainWrite r off v)
  else if off < 0x156000 then
    if off = Reg.EGR_GCL_LEN p then s.gclLenWrite p v
    else if off = Reg.EGR_GCL_CTRL p then (s.syncPort p).plainWrite r off v
    else if off = Reg.EGR_GCL_IDX p then s.writeIndex r off (Reg.EGR_GCL_DATA0 p) 2 v
    else if off = Reg.EGR_GCL_DATA0 p then s.setStaged off (some v)
    else if off = Reg.EGR_GCL_DATA1 p then s.gclCommit p v
    else if off = Reg.EGR_GCL_SWSTAT p then
      (if bit v 1 then s.gclCancel p else if bit v 0 then s.gclArm p else s)
    else s.plainWrite r off v
  else if off = Reg.EGR_CTX_IDX then s.writeIndex r off Reg.EGR_CTX_DATA0 2 v
  else if off = Reg.EGR_CTX_DATA0 then s.setStaged off (some v)
  else if off = Reg.EGR_CTX_DATA1 then s.ctxCommit v
  else match idxOf off (Reg.EGR_XP_L 64) 4032 4 with
    | some i => s.xpWrite (64 + i) v
    | none => s.plainWrite r off v

/-- TBL (0x016_0000). -/
def State.writeTbl (s : State) (r : RegRow) (off : Nat) (v : Word) : State :=
  if off = Reg.TBL_CMD then
    (if fld v 3 0 = 0 then s.plainWrite r off v else if 10 < fld v 3 0 then s.refuse off v else s.tblWrite (fld v 3 0) v none)
  else if off = Reg.TBL_LRN_CFG then
    (if fld v 20 16 < 4 ∨ 16 < fld v 20 16 then s.writeKeeping r off 20 16 v else s.plainWrite r off v)
  else match idxOf off (Reg.TBL_RHS 0) 2 4 with
    | some t => s.rhsWrite t v
    | none => s.plainWrite r off v

/-! ### Windows of CTL, SIG, PEAT -/

/-- A write of data word i of a window whose last word commits. -/
def State.windowData (s : State) (off i last : Nat) (v : Word) (commit : State → Word → State) : State :=
  if i < last then s.setStaged off (some v) else commit s v

/-- CTL (0x017_0000). -/
def State.writeCtl (s : State) (r : RegRow) (off : Nat) (v : Word) : State :=
  if off = Reg.CTL_SIDX then s.writeIndex r off (Reg.CTL_SDATA 0) 4 v
  else if off = Reg.CTL_FIDX then s.writeIndex r off (Reg.CTL_FDATA 0) 2 v
  else if off = Reg.CTL_GIDX then s.writeIndex r off (Reg.CTL_GDATA 0) 2 v
  else if off = Reg.CTL_MIDX then s.writeIndex r off (Reg.CTL_MDATA 0) 5 v
  else if off = Reg.CTL_RIDX then s.writeIndex r off (Reg.CTL_RDATA 0) 8 v
  else if off = Reg.CTL_AIDX then s.writeIndex r off (Reg.CTL_ADATA 0) 12 v
  else if off = Reg.CTL_GCTL then s.gctlWrite v
  else if off = Reg.CTL_GSWSTAT then (if bit v 1 then s.sgateCancel else if bit v 0 then s.sgateArm else s)
  else if off = Reg.CTL_ADMIT then (if bit v 0 then s.runAdmit.1 else s)
  else match idxOf off (Reg.CTL_SDATA 0) 4 4, idxOf off (Reg.CTL_FDATA 0) 2 4, idxOf off (Reg.CTL_GDATA 0) 2 4 with
    | some i, _, _ => s.windowData off i 3 v State.streamCommit
    | _, some i, _ => s.windowData off i 1 v State.filterCommit
    | _, _, some i => s.windowData off i 1 v State.sgateCommit
    | _, _, _ =>
      match idxOf off (Reg.CTL_MDATA 0) 5 4, idxOf off (Reg.CTL_RDATA 0) 3 4, idxOf off (Reg.CTL_ADATA 0) 12 4 with
      | some i, _, _ => s.windowData off i 4 v State.meterCommit
      | _, some i, _ => s.windowData off i 2 v State.frerCommit
      | _, _, some i => s.windowData off i 11 v State.adaptCommit
      | _, _, _ => s.plainWrite r off v

/-- A write of SIG_CFG (R530): a SWEEP outside 7–16 keeps the field; EN turning on begins the OLD pass. -/
def State.sigCfg (s : State) (r : RegRow) (v : Word) : State :=
  let was := s.regB Reg.SIG_CFG 31
  let bad := decide (fld v 3 0 < 7)
  let s : State := if bad then s.writeKeeping r Reg.SIG_CFG 3 0 v else s.plainWrite r Reg.SIG_CFG v
  if bit v 31 ∧ !was then s.oldPass else s

/-- SIG (0x018_0000). -/
def State.writeSig (s : State) (r : RegRow) (off : Nat) (v : Word) : State :=
  if off = Reg.SIG_CFG then s.sigCfg r v
  else if off = Reg.SIG_HV_IDX then s.writeIndex r off (Reg.SIG_HV_DATA 0) 4 v
  else if off = Reg.SIG_VG_IDX then s.writeIndex r off (Reg.SIG_VG_DATA 0) 8 v
  else if off = Reg.SIG_PUB_IDX then s.writeIndex r off (Reg.SIG_PUB_DATA 0) 8 v
  else if off = Reg.SIG_SVC_IDX then s.writeIndex r off (Reg.SIG_SVC_DATA 0) 8 v
  else if off = Reg.SIG_SVC_CFG then
    let s := s.plainWrite { r with w1s := 0 } off v
    if bit v 20 then s.announce else s
  else match idxOf off (Reg.SIG_HV_DATA 0) 4 4, idxOf off (Reg.SIG_VG_DATA 0) 8 4 with
    | some i, _ => s.windowData off i 3 v State.hvCommit
    | _, some i => s.windowData off i 7 v State.vgCommit
    | _, _ =>
      match idxOf off (Reg.SIG_PUB_DATA 0) 7 4, idxOf off (Reg.SIG_SVC_DATA 0) 8 4 with
      | some i, _ => s.windowData off i 6 v State.pubCommit
      | _, some i => s.windowData off i 7 v State.svcCommit
      | _, _ => s.plainWrite r off v

/-- PEAT (0x019_0000). -/
def State.writePeat (s : State) (r : RegRow) (off : Nat) (v : Word) : State :=
  if off = Reg.PEAT_P_IDX then s.writeIndex r off (Reg.PEAT_P_DATA 0) 4 v
  else if off = Reg.PEAT_S_IDX then s.writeIndex r off (Reg.PEAT_S_DATA 0) 8 v
  else if off = Reg.PEAT_CL_IDX then s.writeIndex r off (Reg.PEAT_CL_DATA 0) 8 v
  else if off = Reg.PEAT_FIFO_HWM then (if bit v 31 then { s with pt.hwm := s.pt.fifo.length } else s)
  else if off = Reg.PEAT_TRP_CFG1 then
    (if fld v 15 8 = 0 then s.writeKeeping r off 15 8 v else s.plainWrite r off v)
  else match idxOf off (Reg.PEAT_P_DATA 0) 4 4, idxOf off (Reg.PEAT_S_DATA 0) 8 4, idxOf off (Reg.PEAT_CL_DATA 0) 8 4 with
    | some i, _, _ => s.windowData off i 3 v State.policyCommit
    | _, some i, _ => s.windowData off i 7 v State.peatCommit
    | _, _, some i => s.windowData off i 7 v State.clientCommit
    | _, _, _ => s.plainWrite r off v

/-! ### CHK, DRC, PORT and fronds -/

/-- CHK and DRC (0x01A_0000, 0x01B_0000). -/
def State.writeChk (s : State) (r : RegRow) (off : Nat) (v : Word) : State :=
  if off = Reg.CHK_HJ_CMD then (if fld v 1 0 ≠ 0 then s.hjWrite (fld v 1 0) v else s.plainWrite r off v)
  else if off = Reg.DRC_CFG then s.drcCfg v
  else if off = Reg.DRC_KEEP then s.drcKeep v
  else if off = Reg.DRC_RETIRE then s.drcRetire v
  else s.plainWrite r off v

/-- A core page: the role register changes the core's slot mode and shares; a share above its cap is ignored whole. -/
def State.writeCore (s : State) (r : RegRow) (f c o off : Nat) (v : Word) : State :=
  if o = 4 then
    let s := s.plainWrite r off v
    if c < 16 then s.setCore (f * 16 + c) { s.core (f * 16 + c) with elastic := bit v 0, dynamic := bit v 1 } else s
  else if o = 0x1C then s.writeUnless (decide (8 < fld v 15 12 ∨ 8 < fld v 11 8 ∨ 16 < fld v 4 0)) r off v
  else s.plainWrite r off v

/-- A frond block (0x100_0000). -/
def State.writeFrd (s : State) (r : RegRow) (off : Nat) (v : Word) : State :=
  let f := (off - 0x1000000) / 0x100000
  let o := off % 0x100000
  if 0x40000 ≤ o then s.writeCore r f ((o - 0x40000) / 0x800) (o % 0x800) off v
  else if off = Reg.FRD_TSK_READY f then
    let a := s.tready f (fld v 9 0)
    a.1.setReg off (wd (a.2.toNat % 16 * 2 ^ 16 + fld v 9 0))
  else if off = Reg.FRD_CQ_HSUB f then s.hostSubmit f v
  else match idxOf off (0x1005000 + f * 0x100000) 5 4, idxOf off (Reg.FRD_CQ_LVL f 0) 5 4 with
    | some _, _ => s.writeUnless (decide (8 < fld v 12 9 ∨ fld v 8 0 = 0 ∨ 256 < fld v 8 0)) r off v
    | _, some k =>
      if bit v 31 then s.modFrond f (fun fr => { fr with qHwm := Sparse.set (fun _ => 0) fr.qHwm k (s.queued f k) }) else s
    | _, _ => s.plainWrite r off v

/-- What a write of a register does, once the rules of access let it through. -/
def State.writeAt (s : State) (p : Party) (r : RegRow) (off : Nat) (v : Word) : State :=
  if off < 0x10000 then s.writeMgt r off v
  else if off < 0x20000 then s.writeRas r off v
  else if off < 0x40000 then s.writeTime p r off v
  else if off < 0x50000 then s.writeChn r off v
  else if off < 0x70000 then s.writeBlk r off v
  else if off < 0x80000 then s.writeDbg p r off v
  else if off < 0x120000 then s.writeCls r off v
  else if off < 0x130000 then s.writeDsp r off v
  else if off < 0x140000 then s.writeSwc r off v
  else if off < 0x150000 then s.writeBpm r off v
  else if off < 0x160000 then s.writeEgr r off v
  else if off < 0x170000 then s.writeTbl r off v
  else if off < 0x180000 then s.writeCtl r off v
  else if off < 0x190000 then s.writeSig r off v
  else if off < 0x1A0000 then s.writePeat r off v
  else if off < 0x1C0000 then s.writeChk r off v
  else if off < 0x1000000 then
    (if off = Reg.PORT_CFG ((off - 0x200000) / 0x1000) then s.portCfg ((off - 0x200000) / 0x1000) v else s.plainWrite r off v)
  else s.writeFrd r off v

/-- Is a register one of a unit that is BUSY (R311, R420, R513)? -/
def State.busyReg (s : State) (off : Nat) : Bool :=
  (s.tblBusy && (decide (off = Reg.TBL_CMD ∨ off = Reg.TBL_INDEX ∨ off = Reg.TBL_WALK ∨ off = Reg.TBL_AGE) || isReg off (Reg.TBL_ENTRY 0) 8 4))
  || (s.ck.job.isSome && isReg off (Reg.CHK_HJ_W 0) 7 4)

/-- The channel whose CH_STATUS stands at an offset of BAR0 (R184). -/
def statusChan (off : Nat) : Option Nat :=
  let o := off % 0x100000
  if off % 64 ≠ 0 then none
  else if 0x1000 ≤ off ∧ off < 0x5000 then some (1024 + (off - 0x1000) / 64)
  else if 0x1000000 ≤ off ∧ 0x2000 ≤ o ∧ o < 0x3000 then some ((off - 0x1000000) / 0x100000 * 64 + (o - 0x2000) / 64)
  else none

/-- A write of the register at an offset by a party (R4, R425, R441, R494, R506, R510, R513): an access that is not word-aligned is dropped;
an offset that holds no register ignores it; RWL registers change only in LOAD; a busy unit's registers not at all. -/
def State.writeReg (s : State) (p : Party) (off : Nat) (v : Word) : State :=
  if s.mode = .keep ∨ !s.reaches p off then s
  else if off % 4 ≠ 0 then s.violate 1 off v
  else match regRow off with
    | none => (match statusChan off with | some k => (s.wakeReg off).chanStatus k v | none => s.wakeReg off)
    | some r =>
      let s := s.wakeReg off
      if s.laneOfOther off ∧ off % 0x1000 ≠ 0 then s.violate 9 off v
      else if r.rwl ≠ 0 ∧ s.mode ≠ .load then s.violate 2 off v
      else if s.busyReg off then s.violate 9 off v
      else s.writeAt p r off v

end Sys2Proof.Machine
end

