-- ==== Sys2Proof/Machine/ChainRows.lean ====
section
/-! DEFINITION. The rows of the rhizoid chain (R444 to R453) but for TICK: frames that arrive, frames the device sends, break and return of
the input. -/

namespace Sys2Proof.Machine

/-- A frame of a type other than TICK arrives: its copies, then what an accepted one does. -/
def State.chainArrive (s : State) (f : ChainFrame) (good : List Bool) (at_ : DWord) (act : State → State) : State :=
  let s := s.advanceTo at_
  let r := s.chainTake f good s.tb.now
  if r.2 then act r.1 else r.1

/-- ENUMERATE ends at the head when ENUM has returned, at another device when it holds an address (R446, R447, Table 20-2). -/
def State.enumerated (s : State) : State := if s.mode = .enumerate then s.enterMode .load 0 else s

/-- ENUM (R446). -/
def execEnum (f : ChainFrame) (good : List Bool) (at_ : DWord) (s : State) : Host.Outcome State Fault Refusal :=
  done (s.chainArrive f good at_ (fun s =>
    let s := s.chainEnumIn f
    if s.cn.addr.isSome then s.enumerated else s))

/-- ENUM_COMMAND (R446): a write of CHN_CMD.ENUM. -/
def execEnumCommand (s : State) : Host.Outcome State Fault Refusal := done (s.writeReg .host Reg.CHN_CMD 1)

/-- ENUM_RESEND (R446): 1 ms after the last ENUM of a head to which none has returned; the first one leaves at once. -/
def execEnumResend (s : State) : Host.Outcome State Fault Refusal :=
  done (match s.cn.enumAt with
    | some t => if s.cn.head ∧ s.mode ≠ .keep then (s.advanceTo (t + 1000000)).sendEnum else s
    | none => if s.cn.head ∧ s.mode = .enumerate then s.sendEnum else s)

/-- A device in ENUMERATE that holds an address goes to LOAD, its management core being ready (Table 20-2); a head has sent ENUM by then. -/
def State.leaveEnumerate (s : State) : State :=
  if s.mode ≠ .enumerate ∨ s.cn.addr.isNone then s
  else (if s.cn.head ∧ s.cn.enumAt.isNone then s.sendEnum else s).enumerated

/-- What happens with no command waiting: one clock of the time base, the end of ENUMERATE, and the next abort that waits. -/
def State.idle (s : State) : State := s.clock.leaveEnumerate.abortNext

/-- ABORT (R452, R480): its payload is a write of MGT_ABORT, for this device where ALLDEV is set or DEV is its address; in KEEP too,
where the abort is refused. -/
def execAbort (f : ChainFrame) (good : List Bool) (at_ : DWord) (s : State) : Host.Outcome State Fault Refusal :=
  done (s.chainArrive f good at_ (fun s => s.chainNoticeIn .abort f (fun s =>
    let hi := wd (leAt f.payload 4 4)
    if bit hi 13 ∨ fld hi 12 8 = s.chainAddr.toNat then s.chainAbort f.payload else s)))

/-- MSG (R450, R451). -/
def execMsg (f : ChainFrame) (good : List Bool) (at_ : DWord) (s : State) : Host.Outcome State Fault Refusal :=
  done (s.chainArrive f good at_ (fun s => s.chainMsgIn f))

/-- WAKE (R452, R466): it wakes a device in KEEP; `fail` and `ok` as for WAKE_N. -/
def execWake (f : ChainFrame) (good : List Bool) (at_ : DWord) (fail : BitVec 16) (ok : Bool) (s : State) :
    Host.Outcome State Fault Refusal :=
  done (s.chainArrive f good at_ (fun s => s.chainNoticeIn .wake f (fun s => s.wakeReq ⟨fail, ok, false⟩)))

/-- REPLACE (R452). -/
def execReplace (f : ChainFrame) (good : List Bool) (at_ : DWord) (s : State) : Host.Outcome State Fault Refusal :=
  done (s.chainArrive f good at_ (fun s => s.chainNoticeIn .replace f (fun s => s.chainReplIn f)))

/-- HEARTBEAT (R445): the next device removes it. -/
def execHeartbeat (f : ChainFrame) (good : List Bool) (at_ : DWord) (s : State) : Host.Outcome State Fault Refusal :=
  done (s.chainArrive f good at_ (fun s => s.heartbeatIn f))

/-- ACK (R450, R451). -/
def execAck (f : ChainFrame) (good : List Bool) (at_ : DWord) (s : State) : Host.Outcome State Fault Refusal :=
  done (s.chainArrive f good at_ (fun s => s.chainAckIn f))

/-- Sends a HEARTBEAT; its DST, BCAST and TAG are not stated: free values. -/
def State.sendHeartbeat (s : State) : State :=
  let s := { s with cn.flying := if s.cn.flying.contains (CType.heartbeat.code, 0) then s.cn.flying else s.cn.flying ++ [(CType.heartbeat.code, 0)] }
  let r := s.draw
  r.2.chainSend .heartbeat (r.2.chainFrame (r.1.truncate 5) (bit r.1 5) 0 (BitVec.ofNat 16 (fld r.1 31 16)) [])

/-- CHAIN_HEARTBEAT_SEND (R445): after 1 µs without a frame on the output, from a device with an address (R447). -/
def execChainHeartbeatSend (at_ : DWord) (s : State) : Host.Outcome State Fault Refusal :=
  let s := s.advanceTo at_
  done (if s.cn.addr.isSome ∧ s.cn.lastTx.toNat + 1000 ≤ s.now then s.sendHeartbeat else s)

/-- A write of CHN_TX_CMD.GO with CHN_TX_HDR of one type (R449, R452). -/
def State.txGo (s : State) (type : Nat) : State :=
  if s.regF Reg.CHN_TX_HDR 2 0 = type then s.writeReg .host Reg.CHN_TX_CMD 1 else s

/-- TX_MSG (R449): the host's message. -/
def execTxMsg (s : State) : Host.Outcome State Fault Refusal := done (s.txGo 0)
/-- TX_ABORT (R452). -/
def execTxAbort (s : State) : Host.Outcome State Fault Refusal := done (s.txGo 1)
/-- TX_WAKE (R452). -/
def execTxWake (s : State) : Host.Outcome State Fault Refusal := done (s.txGo 2)

/-- THREAD_MESSAGE (R449). -/
def execThreadMessage (s : State) : Host.Outcome State Fault Refusal := done s.chainThreadMsg

/-- MESSAGE_TIMEOUT (R451): CHN_MSGTO µs after the first copy of an outstanding message. -/
def execMessageTimeout (tag : Half) (at_ : DWord) (s : State) : Host.Outcome State Fault Refusal :=
  let s := s.advanceTo at_
  done (match s.cn.out.find? (fun m => decide (m.tag = tag)) with
    | none => s
    | some m =>
      if s.now < m.start.toNat + s.regF Reg.CHN_MSGTO 15 0 * 1000 then s
      else
        let s := (s.chainEnd m 4).bump Reg.CHN_CNT_TIMEOUT
        { s with cn.expired := s.cn.expired ++ [tag] })

/-- The input is declared down (R453): the break is counted and logged, the device becomes the head of those downstream, source CHAIN is
lost. -/
def State.inputDown (s : State) : State :=
  let s := { s with cn := { s.cn with segHead := true, inLink := false, upSince := none } }
  let s := (s.bump Reg.CHN_CNT_BREAKS).rasEvent 13 (wd s.chainAddr.toNat) 0 1
  if s.tickRuns && (decide (s.srcPri = 1) || decide (s.srcFb = 1)) && !s.cn.head then s.loseSource 1 else s

/-- RING_BREAK (R453): 8 µs without an accepted frame, or 1 µs without symbol lock, declares the input down. -/
def execRingBreak (at_ : DWord) (lock : Bool) (s : State) : Host.Outcome State Fault Refusal :=
  let s := s.advanceTo at_
  let heard := lock && decide (s.now < s.cn.lastRx.toNat + 8000)
  done (if s.cn.segHead || heard then s else s.inputDown)

/-- INPUT_UP (R453): after 100 µs of accepted frames. -/
def execInputUp (at_ : DWord) (s : State) : Host.Outcome State Fault Refusal :=
  let s := s.advanceTo at_
  done (match s.cn.upSince with
    | none => s
    | some t => if s.now < t.toNat + 100000 ∨ s.cn.lastRx.toNat + 8000 ≤ s.now then s else { s with cn := { s.cn with segHead := false, inLink := true } })

end Sys2Proof.Machine
end

