-- ==== Sys2Proof/Machine/Control.lean ====
section
/-! DEFINITION. Control flow, loops, repeat prefixes, event return and WAIT (R53 to R55, R62 to R73, R90 to R93, R137, R138). -/

namespace Sys2Proof.Machine

/-- BR: unconditional branch. -/
def execBr (t : Tid) (f : Form) (s : State) : Host.Outcome State Fault Refusal :=
  done (s.issue t (formLen f) (fun s =>
    if !formLegal f then .fault .illegal else .jump s (branchTarget (s.thr t).pc f)))

/-- A conditional branch ( x -- ): taken where `p` holds of x. -/
def State.branchIf (s : State) (t : Tid) (f : Form) (p : Word → Bool) : Res :=
  if !formLegal f then .fault .illegal
  else s.stackOp t 1 0 (fun l =>
    let s' := s.setTop t 1 []
    if p (nth 0 l 0) then .jump s' (branchTarget (s.thr t).pc f) else .next s')

/-- BZ: branches if x = 0. -/
def execBz (t : Tid) (f : Form) (s : State) : Host.Outcome State Fault Refusal :=
  done (s.issue t (formLen f) (fun s => s.branchIf t f (fun x => decide (x = 0))))

/-- BNZ: branches if x ≠ 0. -/
def execBnz (t : Tid) (f : Form) (s : State) : Host.Outcome State Fault Refusal :=
  done (s.issue t (formLen f) (fun s => s.branchIf t f (fun x => decide (x ≠ 0))))

/-- The device address of the call record of depth d of a thread (R55). -/
def callRecord (t : Tid) (d : Nat) : Nat := dmemBase (tidF t) (tidC t) + 0xD400 + tidT t * 0x240 + d * 72

/-- The locals a save mask names. -/
def maskLocals (m : Half) : List Nat := (upTo 16).filter (fun i => m.getLsbD i)

/-- The procedure table entry p of the image a thread runs (R53). -/
def State.procEntry (s : State) (t : Tid) (p : Nat) : Option Pc :=
  ((s.bankImage (coreKey t) (s.thr t).bank).map (fun im => im.proc)).bind (fun l => l[p]?)

/-- CALL p,mask: the call record is written, the depth advances, and the thread goes on at the procedure (R53, R55). -/
def execCall (t : Tid) (a : Byte) (x : Half) (s : State) : Host.Outcome State Fault Refusal :=
  done (s.issue t 2 (fun s =>
    let th := s.thr t
    if 8 ≤ th.callDepth then .fault .callDepth
    else match s.procEntry t a.toNat with
      | none => .fault .illegal
      | some p =>
        let r := callRecord t th.callDepth
        let s := s.setWord r (wd ((th.pc.toNat + 2) % 8192 + x.toNat * 65536))
        let s := (maskLocals x).foldl (fun s i => s.setWord (r + 4 + 4 * i) (th.local_ i)) s
        let s := s.setWord (r + 68) 0
        .call (s.modThr t (fun th => { th with callDepth := th.callDepth + 1 })) p.toNat
          (3 + ceilDiv (maskLocals x).length 2)))

/-- RET: the masked locals come back from the record of depth − 1, and the thread goes on at the return address (R54). -/
def execRet (t : Tid) (a : Byte) (s : State) : Host.Outcome State Fault Refusal :=
  done (s.issue t 1 (fun s =>
    let th := s.thr t
    if a ≠ 0 then .fault .illegal
    else if th.callDepth = 0 then .fault .callDepth
    else
      let r := callRecord t (th.callDepth - 1)
      let w := s.word r
      let m : Half := (w >>> 16).truncate 16
      let s := s.modThr t (fun th =>
        let th := (maskLocals m).foldl (fun th i => th.setLocal i (s.word (r + 4 + 4 * i))) th
        { th with callDepth := th.callDepth - 1 })
      let s := if th.callDepth = 1 ∧ th.task.isSome then s.repreempt t else s
      .seq s (fld w 12 0) (3 + ceilDiv (maskLocals m).length 2)))

/-- Starts a loop level of `count` iterations over a body of `len` halfwords at `start` (R62). A body that fits is fetched into the loop
buffer, unless the buffer holds the body of a loop around it (R119, R120). -/
def Thread.pushLoop (th : Thread) (count start len : Nat) : Thread :=
  let l : Loop := ⟨count - 1, BitVec.ofNat 13 start, start + len⟩
  { th with
    loops := l :: th.loops
    held := if l.short && !holdsOne th.held th.loops then some ⟨l.start, l.stop, false⟩ else th.held }

/-- LOOP count,len (R62). -/
def execLoop (t : Tid) (a : Byte) (x : Half) (s : State) : Host.Outcome State Fault Refusal :=
  done (s.issue t 2 (fun s =>
    let th := s.thr t
    if x.toNat / 4096 ≠ 0 ∨ 2 ≤ th.loops.length then .fault .illegal
    else .next (s.modThr t (fun th => th.pushLoop (x.toNat + 1) (th.pc.toNat + 2) (a.toNat + 1)))))

/-- LOOPL n,max,len: the count is Ln clamped to max; a count of 0 skips the body (R63). -/
def execLoopl (t : Tid) (a : Byte) (x : Half) (s : State) : Host.Outcome State Fault Refusal :=
  done (s.issue t 2 (fun s =>
    let th := s.thr t
    let v := (th.local_ (x.toNat / 4096)).toNat
    let max := x.toNat % 4096 + 1
    if v = 0 then .skip s (th.pc.toNat + 2 + (a.toNat + 1)) 3
    else if 2 ≤ th.loops.length then .fault .illegal
    else .next (s.modThr t (fun th => th.pushLoop (min v max) (th.pc.toNat + 2) (a.toNat + 1)))))

/-- Is the instruction whose first halfword is h repeatable (Table 03-7)? -/
def repeatable (h : Half) : Bool :=
  let o := h.toNat / 256
  decide (1 ≤ o ∧ o ≤ 0x0B) || decide (o = 0xC2) || decide (0x10 ≤ o ∧ o ≤ 0x12) || decide (o = 0x15)
    || decide (0x17 ≤ o ∧ o ≤ 0x1A) || decide (0x20 ≤ o ∧ o ≤ 0x27) || decide (o = 0x38) || decide (o = 0x39)
    || decide (o = 0x3C) || decide (o = 0x3D)

/-- A repeat prefix: the next instruction, read from I-RAM, must be repeatable (R67, R69). -/
def State.prefix_ (s : State) (t : Tid) (n : Nat) : Res :=
  let th := s.thr t
  if !repeatable (s.code t (th.pc + 1)) then .fault .repMisuse
  else .seq (s.modThr t (fun th => { th with repc := n, repact := true })) (th.pc.toNat + 1) 1

/-- REP n: REPC = n + 1. -/
def execRep (t : Tid) (a : Byte) (s : State) : Host.Outcome State Fault Refusal :=
  done (s.issue t 1 (fun s => s.prefix_ t (a.toNat + 1)))

/-- REPL n: REPC = Ln clamped to 255. -/
def execRepl (t : Tid) (a : Byte) (s : State) : Host.Outcome State Fault Refusal :=
  done (s.issue t 1 (fun s =>
    if 16 ≤ a.toNat then .fault .illegal else s.prefix_ t (min 255 ((s.thr t).local_ a.toNat).toNat)))

/-- An idle thread begins at a spore that waits in one of its slots, if any (R93): where one waits in each, at the one dispatched first. -/
def State.beginWaiting (s : State) (t : Tid) : State :=
  let th := s.thr t
  if th.run ≠ .idle then s
  else if th.spore0.isSome ∧ th.spore1.isSome then s.beginSpore t th.older
  else if th.spore0.isSome then s.beginSpore t false
  else if th.spore1.isSome then s.beginSpore t true
  else s

/-- The return of a handler to what it interrupted (R137). -/
def State.restoreFrame (s : State) (t : Tid) (fr : HFrame) (fault : Bool) : State :=
  let s := (s.charge t 4).modThr t (fun th => { th with
    pc := fr.pc, callDepth := fr.callDepth, loops := fr.loops, repc := fr.repc, repact := fr.repact
    run := if fr.idle then .idle else .running
    faultFrame := none
    frame := if fault then th.frame else none
    handler := if fault then th.handler else none })
  s.beginWaiting t

/-- EVRET: the depth check, then the return, or the tail-chain into a pending event (R137, R138). -/
def execEvret (t : Tid) (a : Byte) (s : State) : Host.Outcome State Fault Refusal :=
  done (s.issue t 1 (fun s =>
    let th := s.thr t
    let fault := th.faultFrame.isSome
    match (if fault then th.faultFrame else th.frame) with
    | none => .fault .illegal
    | some fr =>
      if a ≠ 0 then .fault .illegal
      else if th.stack.length ≠ fr.depth then .fault .evretDepth
      else match th.pendingEvent with
        | some n =>
          if fault ∧ th.frame.isSome then .own ((s.restoreFrame t fr true).boundary t)
          else
            let s := s.modThr t (fun th => { th.clearLoops with
              evpend := th.evpend &&& ~~~(1#16 <<< n), handler := some n, frame := some fr, faultFrame := none
              pc := s.vector t n })
            .own ((s.charge t 2).boundary t)
        | none => .own ((s.restoreFrame t fr fault).boundary t)))

/-- TRAP c: halts the thread at the boundary after it where trap halts are enabled (R91, R497). -/
def execTrap (t : Tid) (a : Byte) (s : State) : Host.Outcome State Fault Refusal :=
  done (s.issue t 1 (fun s =>
    .next (if (s.thr t).tctl.testBit 0 then
        s.modThr t (fun th => { th with haltReq := true, haltReason := 4, trapCode := a })
      else s)))

/-- YIELD: gives up the next guaranteed slot (R91). -/
def execYield (t : Tid) (a : Byte) (s : State) : Host.Outcome State Fault Refusal :=
  done (s.issue t 1 (fun s => if a ≠ 0 then .fault .illegal else .next s 2))

/-- Does a WAIT with this mask end the thread's run (R93)? -/
def Thread.endsRun (th : Thread) (mask : Half) : Bool :=
  decide (th.role = .packet) && mask.getLsbD 8 && th.cur.isNone && decide (th.callDepth = 0) && !th.inHandler

/-- WAIT mask ( -- x ), or the end of a PACKET run (R92, R93). -/
def execWait (t : Tid) (a : Byte) (x : Half) (s : State) : Host.Outcome State Fault Refusal :=
  done (s.issue t 2 (fun s =>
    let th := s.thr t
    if a ≠ 0 then .fault .illegal
    else if th.endsRun x then
      .own ((((s.charge t 1).modThr t (fun th => { th with run := .idle })).beginWaiting t).boundary t)
    else s.stackOp t 0 1 (fun _ =>
      let m := x &&& 0xFFFE
      if th.evpend &&& m ≠ 0 then .next (s.setTop t 0 [(th.evpend &&& m).setWidth 32])
      else s.beginWait t 2 0 1 (.event m))))

/-- WAIT_END: a waiting WAIT resumes once a named event is pending and pushes EVPEND AND mask (R92). -/
def execWaitEnd (t : Tid) (s : State) : Host.Outcome State Fault Refusal :=
  let th := s.thr t
  match th.run with
  | .waiting (.event m) =>
    if th.evpend &&& m ≠ 0 then done (s.finishWait t [(th.evpend &&& m).setWidth 32]) else done s
  | _ => done s

end Sys2Proof.Machine
end

