-- ==== Sys2Proof/Machine/CoprocOps.lean ====
section
/-! DEFINITION. Coprocessor instructions (R100 to R102, Table 04-9) and buffers (R104, R278, R279). -/

namespace Sys2Proof.Machine

/-- CQS ( p k -- t ): submits a coprocessor command after the drain (R101, R204). -/
def execCqs (t : Tid) (a : Byte) (s : State) : Host.Outcome State Fault Refusal :=
  done (s.issue t 1 (fun s =>
    if a ≠ 0 then .fault .illegal
    else s.stackOp t 2 1 (fun l =>
      let k := nth 0 l 0
      let p := nth 0 l 1
      if 4 < k.toNat then .fault .illegal
      else if p.toNat % 32 ≠ 0 ∨ viewRange p.toNat ≠ some .shared then .fault .access p
      else s.drainOp t 1 2 2 (.cqs p k))))

/-- A tag operand of CQW or CQP (R102): in use, else CQ_BADTAG. -/
def State.tagOp (s : State) (t : Tid) (a : Byte) (f : Nat → TagState → Res) : Res :=
  if a ≠ 0 then .fault .illegal
  else s.stackOp t 1 1 (fun l =>
    let g := (nth 0 l 0).toNat
    if 16 ≤ g ∨ (s.thr t).tag g = .free then .fault .cqBadtag else f g ((s.thr t).tag g))

/-- Collects the code of a completed command: the tag is free again. -/
def State.collect (s : State) (t : Tid) (g : Nat) (code : Byte) : Res :=
  .next ((s.modThr t (fun th => th.setTag g .free)).setTop t 1 [code.setWidth 32])

/-- CQW ( t -- s ): waits for the command's completion and collects its code. -/
def execCqw (t : Tid) (a : Byte) (s : State) : Host.Outcome State Fault Refusal :=
  done (s.issue t 1 (fun s => s.tagOp t a (fun g st =>
    match st with
    | .done code => s.collect t g code
    | _ => s.beginWait t 1 1 1 (.cq g))))

/-- CQP ( t -- s ): the code of a completed command, or PENDING. -/
def execCqp (t : Tid) (a : Byte) (s : State) : Host.Outcome State Fault Refusal :=
  done (s.issue t 1 (fun s => s.tagOp t a (fun g st =>
    match st with
    | .done code => s.collect t g code
    | _ => .next (s.setTop t 1 [11]))))

/-- Does pool n serve the threads of frond f: configured, with the frond in USERS (R104, R277)? -/
def State.poolServes (s : State) (n f : Nat) : Bool := (s.pool n).valid && (s.poolUsers n).testBit f

/-- BALLOC p ( -- x s ): an element and OK, or 0 and EMPTY. -/
def execBalloc (t : Tid) (a : Byte) (s : State) : Host.Outcome State Fault Refusal :=
  done (s.issue t 1 (fun s =>
    let n := a.toNat
    if 64 ≤ n then .fault .illegal
    else s.stackOp t 0 2 (fun _ =>
      if !s.poolServes n (tidF t) then .next ((s.bump (Reg.BPM_EMPTY n)).setTop t 0 [3, 0]) 2
      else
        let r := s.allocElem n (.thread t)
        match r.2 with
        | some i => .next (r.1.setTop t 0 [0, wd (s.elemView n i)]) 2
        | none => .next (r.1.setTop t 0 [3, 0]) 2)))

/-- The offset of a thread's pointer from a pool's base: an index for a pool in DRAM, else a thread-view address; a pointer below
the pool gives an offset beyond it. -/
def State.elemOffset (s : State) (n : Nat) (x : Word) : Nat :=
  if s.poolLoc n = 2 then x.toNat * s.poolSize n
  else if x.toNat < s.poolView n then 2 ^ 48 else x.toNat - s.poolView n

/-- BFREE p ( x -- ): frees an element after the checks of R278. -/
def execBfree (t : Tid) (a : Byte) (s : State) : Host.Outcome State Fault Refusal :=
  done (s.issue t 1 (fun s =>
    let n := a.toNat
    if 64 ≤ n then .fault .illegal
    else s.stackOp t 1 0 (fun l =>
      let x := nth 0 l 0
      if !s.poolServes n (tidF t) then .fault .access x
      else
        let r := s.freeElem n (s.elemOffset n x)
        if r.2 = 0 then .next (r.1.setTop t 1 []) 2 else .faultIn r.1 .access x)))

end Sys2Proof.Machine
end

