-- ==== Sys2Proof/Machine/EngineRows.lean ====
section
/-! DEFINITION. The rows of engines that work between boundaries: the sweep, publication queueing, the peat engine, the responder, the trend
service and the timers of sequence recovery. -/

namespace Sys2Proof.Machine

/-- PUBLICATION_QUEUE (R264, R362). -/
def execPublicationQueue (s : State) : Host.Outcome State Fault Refusal := done s.pubQueue

/-- SWEEP (R347, R530): the sweep of the tick in progress, once a tick and only with SIG_CFG.EN. -/
def execSweep (s : State) : Host.Outcome State Fault Refusal :=
  done (if s.regB Reg.SIG_CFG 31 ∧ !s.sg.swept then { s.sweepTick with sg.swept := true } else s)

/-- PEAT_COMMIT (R377): up to `scan` signals are scanned, then up to n records written. -/
def execPeatCommit (scan n : Nat) (s : State) : Host.Outcome State Fault Refusal := done (s.peatWork scan n)

/-- RESPONDER_RECORD (R365). -/
def execResponderRecord (s : State) : Host.Outcome State Fault Refusal := done s.respond

/-- TRP_REQUEST (R387); `bad` lists the device addresses of the pages whose read ends with an uncorrectable error (R385). -/
def execTrpRequest (s : State) (bad : List DWord := []) : Host.Outcome State Fault Refusal :=
  done (s.trpRequest (bad.map (fun a => a.toNat)))

/-- CURSOR_EXPIRY (R386). -/
def execCursorExpiry (i : Fin 32) (at_ : DWord) (s : State) : Host.Outcome State Fault Refusal :=
  done ((s.advanceTo at_).cursorExpiry i.val)

/-! ### Timers of sequence recovery (R331, R334) -/

/-- FRER_RESET (R331): after RESET ticks that ended without a passed frame, recovery of a record starts anew. -/
def execFrerReset (r : Half) (s : State) : Host.Outcome State Fault Refusal :=
  let k := r.toNat
  let x := s.frer k
  done (if x.exist ∧ s.recF .frer k 0 31 16 ≤ x.idle then s.setFrer k x.restart else s)

/-- The latent error test of a record (R334), and the restart of its counts every LATENT_RESET ticks. -/
def State.latentTest (s : State) (k : Nat) : State :=
  let x := s.frer k
  let d := ((x.discarded : Int) - (x.passed : Int) * ((s.recF .frer k 0 11 9 : Int) - 1)).natAbs
  let x := { x with latAge := 0 }
  let err := decide (s.recF .frer k 1 15 0 < d)
  let x := if err then x.count 7 else x
  let x := if s.recF .frer k 2 15 0 ≤ x.resetAge then { x with passed := 0, discarded := 0, resetAge := 0 } else x
  let s := s.setFrer k x
  if err then s.postEvent 10 0 (wd k) (wd d) else s

/-- LATENT_PERIOD (R334): at the end of LATENT_PERIOD ticks. -/
def execLatentPeriod (r : Half) (s : State) : Host.Outcome State Fault Refusal :=
  let k := r.toNat
  let x := s.frer k
  done (if x.exist ∧ s.recF .frer k 0 8 8 = 1 ∧ s.recF .frer k 1 31 16 ≤ x.latAge then s.latentTest k else s)

/-- What the end of a tick does to the timers of one record. With LATENT_EN, counts whose LATENT_RESET ends while no period ends start over;
where a period ends too, the test comes first. -/
def State.frerTick (s : State) (k : Nat) : State :=
  let x := s.frer k
  let x := { x with idle := if x.seen then 0 else x.idle + 1, seen := false }
  let x := if s.recF .frer k 0 8 8 = 1 then
      let x := { x with latAge := x.latAge + 1, resetAge := x.resetAge + 1 }
      if s.recF .frer k 2 15 0 ≤ x.resetAge ∧ x.latAge < s.recF .frer k 1 31 16 then { x with passed := 0, discarded := 0, resetAge := 0 }
      else x
    else x
  s.setFrer k x

/-- The end of a tick for every record that exists. -/
def State.frerTicks (s : State) : State :=
  (s.ct.frer.filterMap (fun (e : Nat × Frer) => if e.2.exist then some e.1 else none)).foldl (fun s k => s.frerTick k) s

end Sys2Proof.Machine
end

