-- ==== Sys2Proof/Machine/Memory.lean ====
section
/-! DEFINITION. Memory instructions (R59, R60, R85 to R89, Table 04-6), FENCE, and the store buffer's own events (R124, R126). -/

namespace Sys2Proof.Machine

/-- A load ( a -- x ) or ( a -- lo hi ): range check, store-buffer check, then the value (R125, R130). -/
def State.loadOp (s : State) (t : Tid) (f : Form) (k : LoadKind) : Res :=
  if !formLegal f then .fault .illegal
  else s.stackOp t 1 (if k = .d then 2 else 1) (fun l =>
    let ea := nth 0 l 0 + formDisp f k.size
    match accessFail t false ea k.size with
    | some a => .fault .access a
    | none =>
      let c := s.loadCost ea
      match c.2.loadBytes t ea k.size with
      | some bs => .next (((c.2.watch t ea.toNat k.size false).noteLate t ea.toNat k.size).setTop t 1 (k.push bs)) c.1
      | none => c.2.memWait t (formLen f) 1 c.1 (.clear (viewDev t ea.toNat) k.size) (.load k ea))

/-- A store ( x a -- ) or ( lo hi a -- ) of `size` bytes (R123, R124). -/
def State.storeOp (s : State) (t : Tid) (f : Form) (size : Nat) : Res :=
  let need := if size = 8 then 3 else 2
  if !formLegal f then .fault .illegal
  else s.stackOp t need 0 (fun l =>
    let ea := nth 0 l 0 + formDisp f size
    let v := if size = 8 then (nth 0 l 2).toNat + 2 ^ 32 * (nth 0 l 1).toNat else (nth 0 l 1).toNat
    let bs := leBytes size v
    match accessFail t true ea size with
    | some a => .fault .access a
    | none =>
      let buf := (s.thr t).storeBuf
      if passesBuffer ea && !buf.isEmpty then s.memWait t (formLen f) need 1 .drain (.store ea bs)
      else if !passesBuffer ea && decide (4 ≤ buf.length) then s.memWait t (formLen f) need 1 .room (.store ea bs)
      else .next ((s.setTop t need []).viewStore t ea bs))

/-- The check of XADD and CAS: aligned (R60), in range for a store, and not in the special window (R58); the failing address. -/
def atomicFail (t : Tid) (ea : Word) : Option Word :=
  if ea.toNat % 4 ≠ 0 ∨ viewRange ea.toNat = some .special then some ea else accessFail t true ea 4

/-- The cost of XADD and CAS: one slot more than a load (Table 04-1). -/
def State.atomicCost (s : State) (ea : Word) : Nat × State := let c := s.loadCost ea; (c.1 + 1, c.2)

/-- LDB: loads a zero-extended byte. -/
def execLdb (t : Tid) (f : Form) (s : State) : Host.Outcome State Fault Refusal :=
  done (s.issue t (formLen f) (fun s => s.loadOp t f .b))

/-- LDBS: loads a sign-extended byte. -/
def execLdbs (t : Tid) (f : Form) (s : State) : Host.Outcome State Fault Refusal :=
  done (s.issue t (formLen f) (fun s => s.loadOp t f .bs))

/-- LDH: loads a zero-extended halfword. -/
def execLdh (t : Tid) (f : Form) (s : State) : Host.Outcome State Fault Refusal :=
  done (s.issue t (formLen f) (fun s => s.loadOp t f .h))

/-- LDHS: loads a sign-extended halfword. -/
def execLdhs (t : Tid) (f : Form) (s : State) : Host.Outcome State Fault Refusal :=
  done (s.issue t (formLen f) (fun s => s.loadOp t f .hs))

/-- LDW: loads a word. -/
def execLdw (t : Tid) (f : Form) (s : State) : Host.Outcome State Fault Refusal :=
  done (s.issue t (formLen f) (fun s => s.loadOp t f .w))

/-- LDD: loads a 64-bit pair. -/
def execLdd (t : Tid) (f : Form) (s : State) : Host.Outcome State Fault Refusal :=
  done (s.issue t (formLen f) (fun s => s.loadOp t f .d))

/-- STB: stores a byte. -/
def execStb (t : Tid) (f : Form) (s : State) : Host.Outcome State Fault Refusal :=
  done (s.issue t (formLen f) (fun s => s.storeOp t f 1))

/-- STH: stores a halfword. -/
def execSth (t : Tid) (f : Form) (s : State) : Host.Outcome State Fault Refusal :=
  done (s.issue t (formLen f) (fun s => s.storeOp t f 2))

/-- STW: stores a word. -/
def execStw (t : Tid) (f : Form) (s : State) : Host.Outcome State Fault Refusal :=
  done (s.issue t (formLen f) (fun s => s.storeOp t f 4))

/-- STD: stores a 64-bit pair. -/
def execStd (t : Tid) (f : Form) (s : State) : Host.Outcome State Fault Refusal :=
  done (s.issue t (formLen f) (fun s => s.storeOp t f 8))

/-- XADD ( x a -- old ): drains, then adds at the memory (R88). -/
def execXadd (t : Tid) (f : Form) (s : State) : Host.Outcome State Fault Refusal :=
  done (s.issue t (formLen f) (fun s =>
    if !formLegal f then .fault .illegal
    else s.stackOp t 2 1 (fun l =>
      let ea := nth 0 l 0 + formDisp f 4
      match atomicFail t ea with
      | some a => .fault .access a
      | none => let c := s.atomicCost ea; c.2.drainOp t (formLen f) 2 c.1 (.xadd ea (nth 0 l 1)))))

/-- CAS ( exp new a -- old ): drains, then compares and swaps at the memory (R88). -/
def execCas (t : Tid) (f : Form) (s : State) : Host.Outcome State Fault Refusal :=
  done (s.issue t (formLen f) (fun s =>
    if !formLegal f then .fault .illegal
    else s.stackOp t 3 1 (fun l =>
      let ea := nth 0 l 0 + formDisp f 4
      match atomicFail t ea with
      | some a => .fault .access a
      | none => let c := s.atomicCost ea; c.2.drainOp t (formLen f) 3 c.1 (.cas ea (nth 0 l 2) (nth 0 l 1)))))

/-- FENCE ( -- ): drains (R89). -/
def execFence (t : Tid) (a : Byte) (s : State) : Host.Outcome State Fault Refusal :=
  done (s.issue t 1 (fun s => if a ≠ 0 then .fault .illegal else s.drainOp t 1 0 1 .fence))

/-- STORE_LEAVE: the head entry of a thread's store buffer is written to memory and becomes visible; an instruction that waited
for a free entry, or for overlapping entries to leave, performs (R124, R125). -/
def execStoreLeave (t : Tid) (s : State) : Host.Outcome State Fault Refusal :=
  match (s.thr t).storeBuf with
  | [] => done s
  | e :: rest =>
    let s := (s.setBytes e.dev e.bytes).modThr t (fun th => { th with storeBuf := rest })
    match (s.thr t).run with
    | .waiting (.mem .drain _) => done s
    | _ => done (s.endMemWait t)

/-- DRAIN_END: a draining instruction proceeds once the store buffer is empty (R126). -/
def execDrainEnd (t : Tid) (s : State) : Host.Outcome State Fault Refusal :=
  match (s.thr t).run with
  | .waiting (.mem .drain _) => done (s.endMemWait t)
  | _ => done s

end Sys2Proof.Machine
end

