-- ==== Sys2Proof/Machine/RegRows.lean ====
section
/-! DEFINITION. The rows that are one access to one register (R509 to R514): the meaning of each is what that write or read does. -/

namespace Sys2Proof.Machine

/-! ### Writes of the host -/

/-- PTP_PADJ (R22, R23): a write of the host or, while it runs, of the time service. -/
def execPtpPadj (v : Word) (s : State) (p : Party := .host) : Host.Outcome State Fault Refusal := done (s.writeReg p Reg.PTP_PADJ v)
/-- PTP_STEP_HI (R21, R23): a write of the host or, while it runs, of the time service. -/
def execPtpStepHi (v : Word) (s : State) (p : Party := .host) : Host.Outcome State Fault Refusal := done (s.writeReg p Reg.PTP_STEP_HI v)
/-- BPM_HALLOC (R279). -/
def execBpmHalloc (v : Word) (s : State) : Host.Outcome State Fault Refusal := done (s.writeReg .host Reg.BPM_HALLOC v)
/-- BPM_HFREE (R278). -/
def execBpmHfree (v : Word) (s : State) : Host.Outcome State Fault Refusal := done (s.writeReg .host Reg.BPM_HFREE v)
/-- BPM_CFG_VALID (R276): a write of BPM_CFG with VALID set. -/
def execBpmCfgValid (n : Fin 64) (v : Word) (s : State) : Host.Outcome State Fault Refusal := done (s.writeReg .host (Reg.BPM_CFG n.val) (setBit v 31 true))
/-- SWC_MCG_DATA (R269). -/
def execSwcMcgData (v : Word) (s : State) : Host.Outcome State Fault Refusal := done (s.writeReg .host Reg.SWC_MCG_DATA v)
/-- SWC_MCM_DATA (R269). -/
def execSwcMcmData (v : Word) (s : State) : Host.Outcome State Fault Refusal := done (s.writeReg .host Reg.SWC_MCM_DATA v)
/-- RULE_WRITE (R237). -/
def execRuleWrite (i : Fin 4096) (s : State) : Host.Outcome State Fault Refusal := done (s.writeReg .host Reg.CLS_RULE_CMD (wd (0x1000000 + i.val)))
/-- RULE_READ (R237). -/
def execRuleRead (i : Fin 4096) (s : State) : Host.Outcome State Fault Refusal := done (s.writeReg .host Reg.CLS_RULE_CMD (wd (0x2000000 + i.val)))
/-- INVALIDATE (R237). -/
def execInvalidate (i : Fin 4096) (s : State) : Host.Outcome State Fault Refusal := done (s.writeReg .host Reg.CLS_RULE_CMD (wd (0x3000000 + i.val)))
/-- EGR_GCL_DATA1 (R292). -/
def execEgrGclData1 (p : Fin 64) (v : Word) (s : State) : Host.Outcome State Fault Refusal := done (s.writeReg .host (Reg.EGR_GCL_DATA1 p.val) v)
/-- GATE_ARM (R292). -/
def execGateArm (p : Fin 64) (s : State) : Host.Outcome State Fault Refusal := done (s.writeReg .host (Reg.EGR_GCL_SWSTAT p.val) 1)
/-- GATE_CANCEL (R292). -/
def execGateCancel (p : Fin 64) (s : State) : Host.Outcome State Fault Refusal := done (s.writeReg .host (Reg.EGR_GCL_SWSTAT p.val) 2)
/-- EGR_CTX_DATA1 (R297). -/
def execEgrCtxData1 (v : Word) (s : State) : Host.Outcome State Fault Refusal := done (s.writeReg .host Reg.EGR_CTX_DATA1 v)
/-- EGR_XP_L (R287): the entry of extended port 64 + i. -/
def execEgrXpL (i : Fin 4032) (v : Word) (s : State) : Host.Outcome State Fault Refusal := done (s.writeReg .host (Reg.EGR_XP_L (64 + i.val)) v)
/-- PORT_CFG (R284). -/
def execPortCfg (p : Fin 64) (v : Word) (s : State) : Host.Outcome State Fault Refusal := done (s.writeReg .host (Reg.PORT_CFG p.val) v)
/-- CTL_SDATA3 (R324). -/
def execCtlSdata3 (v : Word) (s : State) : Host.Outcome State Fault Refusal := done (s.writeReg .host (Reg.CTL_SDATA 3) v)
/-- CTL_FDATA1 (R326). -/
def execCtlFdata1 (v : Word) (s : State) : Host.Outcome State Fault Refusal := done (s.writeReg .host (Reg.CTL_FDATA 1) v)
/-- CTL_GDATA1 (R328). -/
def execCtlGdata1 (v : Word) (s : State) : Host.Outcome State Fault Refusal := done (s.writeReg .host (Reg.CTL_GDATA 1) v)
/-- STREAM_GATE_ARM (R328). -/
def execStreamGateArm (s : State) : Host.Outcome State Fault Refusal := done (s.writeReg .host Reg.CTL_GSWSTAT 1)
/-- STREAM_GATE_CANCEL (R328). -/
def execStreamGateCancel (s : State) : Host.Outcome State Fault Refusal := done (s.writeReg .host Reg.CTL_GSWSTAT 2)
/-- CTL_MDATA4 (R329). -/
def execCtlMdata4 (v : Word) (s : State) : Host.Outcome State Fault Refusal := done (s.writeReg .host (Reg.CTL_MDATA 4) v)
/-- CTL_RDATA2 (R531). -/
def execCtlRdata2 (v : Word) (s : State) : Host.Outcome State Fault Refusal := done (s.writeReg .host (Reg.CTL_RDATA 2) v)
/-- CTL_ADATA11 (R341). -/
def execCtlAdata11 (v : Word) (s : State) : Host.Outcome State Fault Refusal := done (s.writeReg .host (Reg.CTL_ADATA 11) v)
/-- CTL_ADMIT (R342). -/
def execCtlAdmit (s : State) : Host.Outcome State Fault Refusal := done (s.writeReg .host Reg.CTL_ADMIT 1)
/-- SIG_ENABLE (R530): SIG_CFG with EN set. -/
def execSigEnable (s : State) : Host.Outcome State Fault Refusal := done (s.writeReg .host Reg.SIG_CFG (setBit (s.reg Reg.SIG_CFG) 31 true))
/-- SIG_HV_DATA3 (R353). -/
def execSigHvData3 (v : Word) (s : State) : Host.Outcome State Fault Refusal := done (s.writeReg .host (Reg.SIG_HV_DATA 3) v)
/-- SIG_VG_DATA7 (R356). -/
def execSigVgData7 (v : Word) (s : State) : Host.Outcome State Fault Refusal := done (s.writeReg .host (Reg.SIG_VG_DATA 7) v)
/-- SIG_PUB_DATA6 (R359). -/
def execSigPubData6 (v : Word) (s : State) : Host.Outcome State Fault Refusal := done (s.writeReg .host (Reg.SIG_PUB_DATA 6) v)
/-- SIG_SVC_DATA7 (R364). -/
def execSigSvcData7 (v : Word) (s : State) : Host.Outcome State Fault Refusal := done (s.writeReg .host (Reg.SIG_SVC_DATA 7) v)
/-- ANNOUNCE (R365). -/
def execAnnounce (s : State) : Host.Outcome State Fault Refusal := done (s.writeReg .host Reg.SIG_SVC_CFG (setBit (s.reg Reg.SIG_SVC_CFG) 20 true))
/-- PEAT_P_DATA3 (R366). -/
def execPeatPData3 (v : Word) (s : State) : Host.Outcome State Fault Refusal := done (s.writeReg .host (Reg.PEAT_P_DATA 3) v)
/-- PEAT_S_DATA7 (R367). -/
def execPeatSData7 (v : Word) (s : State) : Host.Outcome State Fault Refusal := done (s.writeReg .host (Reg.PEAT_S_DATA 7) v)
/-- PEAT_CL_DATA7 (R382). -/
def execPeatClData7 (v : Word) (s : State) : Host.Outcome State Fault Refusal := done (s.writeReg .host (Reg.PEAT_CL_DATA 7) v)
/-- CHECK (R152). -/
def execCheck (s : State) : Host.Outcome State Fault Refusal := done (s.writeReg .host Reg.MGT_LD_CMD 1)
/-- CHECK_AND_COMMIT (R153). -/
def execCheckAndCommit (s : State) : Host.Outcome State Fault Refusal := done (s.writeReg .host Reg.MGT_LD_CMD 2)
/-- ARM_SWAP (R166). -/
def execArmSwap (s : State) : Host.Outcome State Fault Refusal := done (s.writeReg .host Reg.MGT_LD_CMD 3)
/-- CANCEL_SWAP (R167). -/
def execCancelSwap (s : State) : Host.Outcome State Fault Refusal := done (s.writeReg .host Reg.MGT_LD_CMD 4)
/-- LOAD_RESIDENT (R169). -/
def execLoadResident (services : BitVec 3) (s : State) : Host.Outcome State Fault Refusal := done (s.writeReg .host Reg.MGT_LD_CMD (wd (5 + 256 * services.toNat)))
/-- BLK_CH_ADDR_HI (R428). -/
def execBlkChAddrHi (c : Fin 8) (v : Word) (s : State) : Host.Outcome State Fault Refusal := done (s.writeReg .host (Reg.BLK_CH_ADDR_HI c.val) v)
/-- BLK_RNG_RD (R434). -/
def execBlkRngRd (r : Fin 16) (v : Word) (s : State) : Host.Outcome State Fault Refusal := done (s.writeReg .host (Reg.BLK_RNG_RD r.val) v)
/-- BLK_RNG_CFG (R435). -/
def execBlkRngCfg (r : Fin 16) (v : Word) (s : State) : Host.Outcome State Fault Refusal := done (s.writeReg .host (Reg.BLK_RNG_CFG r.val) v)
/-- MGT_HEARTBEAT (R439). -/
def execMgtHeartbeat (v : Word) (s : State) : Host.Outcome State Fault Refusal := done (s.writeReg .host Reg.MGT_HEARTBEAT v)
/-- DRC_CFG (R401). -/
def execDrcCfg (v : Word) (s : State) : Host.Outcome State Fault Refusal := done (s.writeReg .host Reg.DRC_CFG v)
/-- DRC_RETIRE (R408). -/
def execDrcRetire (v : Word) (s : State) : Host.Outcome State Fault Refusal := done (s.writeReg .host Reg.DRC_RETIRE v)
/-- DRC_KEEP (R409). -/
def execDrcKeep (v : Word) (s : State) : Host.Outcome State Fault Refusal := done (s.writeReg .host Reg.DRC_KEEP v)
/-- BLK_MBX_DB (R438): event 14 becomes pending on a thread; `merged` tells that the pulse merged with one before it (R477). -/
def execBlkMbxDb (v : Word) (merged : Bool) (s : State) : Host.Outcome State Fault Refusal :=
  done ((s.writeReg .host Reg.BLK_MBX_DB v).cdcMerged 0 merged)
/-- Does an access of a party come over a PCI Express link that is up? -/
def State.hostSees (s : State) (p : Party) : Bool := decide (p = .host) && s.host.link && decide (s.mode ≠ .keep)

/-- REGISTER_WRITE (R509): a write of any register by a party; the configuration space and BAR4 are the host's (R423, R424). -/
def execRegisterWrite (p : Party) (at_ : Place) (v : Word) (s : State) : Host.Outcome State Fault Refusal :=
  done (match at_ with
    | .bar0 off => s.writeReg p off.toNat v
    | .bar4 dw => if s.hostSees p then s.bar4Write dw.toNat v else s
    | .config i => if s.hostSees p then s.configWrite i v else s)

/-! ### Reads -/

/-- PTP_TXTS_HI (R42). -/
def execPtpTxtsHi (s : State) : Host.Outcome State Fault Refusal := done (s.readReg .host Reg.PTP_TXTS_HI)
/-- TICK_OVR_LOG1 (R36). -/
def execTickOvrLog1 (s : State) : Host.Outcome State Fault Refusal := done (s.readReg .host Reg.TICK_OVR_LOG1)
/-- FRD_CQ_HTAG (R222). -/
def execFrdCqHtag (f : Fin 16) (i : Fin 16) (s : State) : Host.Outcome State Fault Refusal := done (s.readReg .host (Reg.FRD_CQ_HTAG f.val i.val))
/-- CHK_MLOG5 (R514). -/
def execChkMlog5 (s : State) : Host.Outcome State Fault Refusal := done (s.readReg .host (Reg.CHK_MLOG1 4))
/-- RAS_LOG4 (R486). -/
def execRasLog4 (p : Party) (s : State) : Host.Outcome State Fault Refusal := done (s.readReg p (Reg.RAS_LOG 4))
/-- BLK_VIOL2 (R441). -/
def execBlkViol2 (s : State) : Host.Outcome State Fault Refusal := done (s.readReg .host Reg.BLK_VIOL2)
/-- CHN_REPL_LOG (R452). -/
def execChnReplLog (s : State) : Host.Outcome State Fault Refusal := done (s.readReg .host Reg.CHN_REPL_LOG)
/-- CORE_FAULT_LAST1 (R514). -/
def execCoreFaultLast1 (f : Fin 16) (c : Fin 17) (s : State) : Host.Outcome State Fault Refusal := done (s.readReg .host (Reg.CORE_FAULT_LAST1 f.val c.val))
/-- DRC_CH_ELOG2 (R404). -/
def execDrcChElog2 (c : Fin 8) (s : State) : Host.Outcome State Fault Refusal := done (s.readReg .host (Reg.DRC_CH_ELOG2 c.val))
/-- LATCHING_PAIR_READ (R3, R511): a read of a register by a party; of the LO half of a pair, it latches HI for that party. -/
def execLatchingPairRead (p : Party) (at_ : Place) (s : State) : Host.Outcome State Fault Refusal :=
  done (match at_ with
    | .bar0 off => s.readReg p off.toNat
    | .bar4 dw => if s.hostSees p then s.emit (.readData p (s.bar4Read dw.toNat)) else s
    | .config i => if s.hostSees p then s.emit (.readData p (s.configRead i)) else s)

end Sys2Proof.Machine
end

