-- ==== Sys2Proof/Machine/SporeOps.lean ====
section
/-! DEFINITION. Spore release and frame emission (R94 to R99, Table 04-8). -/

namespace Sys2Proof.Machine

/-- A release: encoding and stack checks, then the drain, then the checks of R96. -/
def State.releaseOp (s : State) (t : Tid) (legal : Bool) (need : Nat) (d : Word → Decision) (ts : Bool) : Res :=
  if !legal then .fault .illegal
  else s.stackOp t need 1 (fun l => s.drainOp t 1 need 2 (.release (d (nth 0 l 0)) ts))

/-- FWD ( q -- s ): releases the spore to output queue q. -/
def execFwd (t : Tid) (a : Byte) (s : State) : Host.Outcome State Fault Refusal :=
  done (s.issue t 1 (fun s => s.releaseOp t (decide (a.toNat < 2)) 1 .fwd (a.getLsbD 0)))

/-- FWDM ( g -- s ): releases the spore to multicast group g. -/
def execFwdm (t : Tid) (a : Byte) (s : State) : Host.Outcome State Fault Refusal :=
  done (s.issue t 1 (fun s => s.releaseOp t (decide (a.toNat < 2)) 1 .fwdm (a.getLsbD 0)))

/-- DROPPKT ( -- s ): releases the spore as a drop. -/
def execDroppkt (t : Tid) (a : Byte) (s : State) : Host.Outcome State Fault Refusal :=
  done (s.issue t 1 (fun s => s.releaseOp t (decide (a = 0)) 0 (fun _ => .drop) false))

/-- TOSLOW ( r -- s ): releases the spore to the slow path with software reason r. -/
def execToslow (t : Tid) (a : Byte) (s : State) : Host.Outcome State Fault Refusal :=
  done (s.issue t 1 (fun s => s.releaseOp t (decide (a = 0)) 1 .toslow false))

/-- Marks a held spore for mirror session m (R98): the state and the status. -/
def State.markMirror (s : State) (t : Tid) (m : Word) (ts : Bool) : State × Word :=
  match (s.thr t).curSpore with
  | none => (s, 9)
  | some i =>
    match s.spore i with
    | none => (s, 9)
    | some x =>
      if 15 < m.toNat then (s, 10)
      else (s.setSpore i (some { x.setW 12 (setFld (x.w 12) 20 16 (16 + m.toNat)) with mirrTs := ts }), 0)

/-- MIRR ( m -- s ). -/
def execMirr (t : Tid) (a : Byte) (s : State) : Host.Outcome State Fault Refusal :=
  done (s.issue t 1 (fun s =>
    if 2 ≤ a.toNat then .fault .illegal
    else s.stackOp t 1 1 (fun l =>
      let r := s.markMirror t (nth 0 l 0) (a.getLsbD 0)
      .next (r.1.setTop t 1 [r.2]))))

/-- May EMIT read n bytes at a: wholly in D-RAM, frond shared memory or common memory (R99)? -/
def emitSourceOk (t : Tid) (a n : Word) : Bool :=
  viewSpanOk t false a.toNat n.toNat && decide (viewRange a.toNat ≠ some .special)

/-- The cost of an EMIT that sends (Table 04-8). -/
def emitCost (a n : Word) : Nat :=
  2 + ceilDiv n.toNat 64 + (if viewRange a.toNat = some .common then 12 else 0)

/-- EMIT ( a n q -- s ): the operand ranges, the source, the injection threshold, then the copy (R99). -/
def execEmit (t : Tid) (a : Byte) (s : State) : Host.Outcome State Fault Refusal :=
  done (s.issue t 1 (fun s =>
    if 2 ≤ a.toNat then .fault .illegal
    else s.stackOp t 3 1 (fun l =>
      let q := nth 0 l 0
      let n := nth 0 l 1
      let src := nth 0 l 2
      if n.toNat < 60 ∨ 2048 < n.toNat ∨ (s.queuePort q.toNat).isNone then .next (s.setTop t 3 [10]) 2
      else if !emitSourceOk t src n then .fault .access src
      else if s.emitFull (cellsOf n.toNat) then .next (s.setTop t 3 [2]) 2
      else
        let c : MemCond := .clear (viewDev t src.toNat) n.toNat
        if c.met (s.thr t).storeBuf then .next ((s.emitFrom t src n q (a.getLsbD 0)).setTop t 3 [0]) (emitCost src n)
        else s.memWait t 1 3 (emitCost src n) c (.emit src n q (a.getLsbD 0)))))

end Sys2Proof.Machine
end

