-- ==== Sys2Proof/Machine/Stack.lean ====
section
/-! DEFINITION. Stack, constant and local instructions (R52, R81, Table 04-3). -/

namespace Sys2Proof.Machine

/-- DUP ( x -- x x ). -/
def execDup (t : Tid) (a : Byte) (s : State) : Host.Outcome State Fault Refusal :=
  done (s.issue t 1 (fun s => s.compute t (decide (a = 0)) 1 2 (fun l => [nth 0 l 0, nth 0 l 0])))

/-- DROP ( x -- ). -/
def execDrop (t : Tid) (a : Byte) (s : State) : Host.Outcome State Fault Refusal :=
  done (s.issue t 1 (fun s => s.compute t (decide (a = 0)) 1 0 (fun _ => [])))

/-- SWAP ( x y -- y x ). -/
def execSwap (t : Tid) (a : Byte) (s : State) : Host.Outcome State Fault Refusal :=
  done (s.issue t 1 (fun s => s.compute t (decide (a = 0)) 2 2 (fun l => [nth 0 l 1, nth 0 l 0])))

/-- OVER ( x y -- x y x ). -/
def execOver (t : Tid) (a : Byte) (s : State) : Host.Outcome State Fault Refusal :=
  done (s.issue t 1 (fun s => s.compute t (decide (a = 0)) 2 3 (fun l => [nth 0 l 1, nth 0 l 0, nth 0 l 1])))

/-- ROT ( x y z -- y z x ). -/
def execRot (t : Tid) (a : Byte) (s : State) : Host.Outcome State Fault Refusal :=
  done (s.issue t 1 (fun s => s.compute t (decide (a = 0)) 3 3 (fun l => [nth 0 l 2, nth 0 l 0, nth 0 l 1])))

/-- NIP ( x y -- y ). -/
def execNip (t : Tid) (a : Byte) (s : State) : Host.Outcome State Fault Refusal :=
  done (s.issue t 1 (fun s => s.compute t (decide (a = 0)) 2 1 (fun l => [nth 0 l 0])))

/-- PICK k ( xk … x0 -- xk … x0 xk ): needs k + 1 entries. -/
def execPick (t : Tid) (a : Byte) (s : State) : Host.Outcome State Fault Refusal :=
  let k := a.toNat % 16
  done (s.issue t 1 (fun s => s.compute t (decide (a.toNat < 16)) (k + 1) (k + 2) (fun l => nth 0 l k :: l)))

/-- LIT8 ( -- x ), sign-extended. -/
def execLit8 (t : Tid) (a : Byte) (s : State) : Host.Outcome State Fault Refusal :=
  done (s.issue t 1 (fun s => s.compute t true 0 1 (fun _ => [a.signExtend 32])))

/-- LIT16 ( -- x ), zero-extended. -/
def execLit16 (t : Tid) (a : Byte) (x : Half) (s : State) : Host.Outcome State Fault Refusal :=
  done (s.issue t 2 (fun s => s.compute t (decide (a = 0)) 0 1 (fun _ => [x.setWidth 32])))

/-- LITH ( x -- imm << 16 OR (x AND 0xFFFF) ). -/
def execLith (t : Tid) (a : Byte) (x : Half) (s : State) : Host.Outcome State Fault Refusal :=
  done (s.issue t 2 (fun s => s.compute t (decide (a = 0)) 1 1 (fun l => [x ++ (nth 0 l 0).truncate 16])))

/-- LDL n ( -- Ln ). -/
def execLdl (t : Tid) (a : Byte) (s : State) : Host.Outcome State Fault Refusal :=
  done (s.issue t 1 (fun s => s.compute t (decide (a.toNat < 16)) 0 1 (fun _ => [(s.thr t).local_ a.toNat])))

/-- STL n ( x -- ); Ln = x. -/
def execStl (t : Tid) (a : Byte) (s : State) : Host.Outcome State Fault Refusal :=
  done (s.issue t 1 (fun s =>
    if 16 ≤ a.toNat then .fault .illegal
    else s.stackOp t 1 0 (fun l =>
      .next ((s.setTop t 1 []).modThr t (fun th => th.setLocal a.toNat (nth 0 l 0))))))

/-- INCL n,imm ( -- ); Ln = Ln + imm. The short form holds imm in [7:4] and n in [3:0]; the long form n in field A. -/
def execIncl (t : Tid) (f : Form) (s : State) : Host.Outcome State Fault Refusal :=
  let n := match f with | .short a => a.toNat % 16 | .long a _ => a.toNat
  let imm : Word := match f with
    | .short a => (a.extractLsb' 4 4).signExtend 32
    | .long _ x => x.signExtend 32
  done (s.issue t (formLen f) (fun s =>
    if 16 ≤ n then .fault .illegal
    else .next (s.modThr t (fun th => th.setLocal n (th.local_ n + imm)))))

end Sys2Proof.Machine
end

