-- ==== Sys2Proof/Machine/Tick.lean ====
section
/-! DEFINITION. The boundary (R32 to R36, Table 02-2) step by step, and the rows at which one occurs. -/

namespace Sys2Proof.Machine

/-- Does the mode run the tick-phase steps 7 to 9 (Table 20-1)? -/
def Mode.phases : Mode → Bool
  | .run => true
  | .island => true
  | .drain => true
  | _ => false

/-! ### Step 1 (R29, R455) -/

/-- The tick number advances, or takes the value written; the boundary's time is recorded; the mode follows. Returns whether this boundary
completes a DRAIN. -/
def State.step1 (s : State) (t : DWord) : State × Bool :=
  let old := s.tk.number
  let n := s.tk.setTo.getD (old + 1)
  let set := s.tk.setTo.isSome
  let s := { s with tk := { s.tk with
    number := n
    setTo := none
    last := some t
    span := t.toNat - s.tk.btime.toNat
    btime := t
    ahead := 0
    leaving := false
    history := (t, n.toNat) :: s.tk.history } }
  (if set then (s.postEvent 3 5 (n.truncate 32) (old.truncate 32)).oldPass else s).modeStep1

/-! ### Step 2: telemetry, counts and overruns of the tick that ended -/

/-- Is a register one of FRD_TSK_WMAX, FRD_TSK_WMEAN, FRD_TSK_BUSY or DBG_TEL, which show one tick and read 0 where it had nothing? -/
def tickReg (off : Nat) : Bool :=
  let o := off % 0x100000
  (decide (0x1000000 ≤ off) && (decide (0x3200 ≤ o ∧ o < 0x3300) || decide (0x3380 ≤ o ∧ o < 0x33C0)))
    || decide (0x70200 ≤ off ∧ off < 0x70300)

/-- The cores of frond f whose instruction port was not gated throughout the tick that ends (R121): those whose threads fetched in it, those
with a thread that runs from I-RAM, and all where the frond's clock is stopped, since its cores then have no cycles to count. -/
def State.fetchers (s : State) (f : Nat) (l : List Nat) : List Nat :=
  (upTo 17).filter (fun c => (s.frond f).gated || l.contains c || s.coreFetches (f * 16 + c) c)

/-- Latches the scheduler's and the issue statistics of frond f. -/
def State.latchFrond (s : State) (f : Nat) : State :=
  let fr := s.frond f
  let s := fr.lvlStat.foldl (fun (s : State) (e : Nat × LevelStat) =>
    (s.setReg (Reg.FRD_TSK_WMAX f e.1) (wd e.2.longest)).setReg (Reg.FRD_TSK_WMEAN f e.1)
      (wd (if e.2.count = 0 then 0 else e.2.total / e.2.count))) s
  let s := s.modFrond f (fun fr => { fr with fetchedLast := s.fetchers f fr.fetched })
  fr.busy.foldl (fun (s : State) (e : Nat × Nat) => s.setReg (Reg.FRD_TSK_BUSY f e.1) (wd e.2)) s

/-- Latches DBG_TEL of frond f. -/
def State.latchTel (s : State) (f : Nat) : State :=
  let y := s.tele f
  let w : List Word := [wd y.released, wd (min y.worst 0xFFFFFFFF),
    match y.slack with | some x => BitVec.ofInt 32 x | none => 0x7FFFFFFF,
    wd (min y.depth 511 * 65536 + min y.late 65535)]
  (upTo 4).foldl (fun s i => s.setReg (Reg.DBG_TEL f i) (nth 0 w i)) s

/-- The queue that telemetry watch k names, while it is enabled. -/
def State.watched (s : State) (k : Nat) : Option Nat := if s.regB (Reg.DBG_QW k) 31 then some (s.regF (Reg.DBG_QW k) 15 0) else none

/-- Latches DBG_QW of watch k. -/
def State.latchWatch (s : State) (k : Nat) : State :=
  match s.watched k with
  | none => s
  | some q =>
    let d := s.qDepth q
    let hi := if Sparse.get (fun _ => 0xFFFFFFFF) s.sw.qwMin q = 0xFFFFFFFF then d else Sparse.get (fun _ => 0) s.sw.qwMax q
    let lo := min d (Sparse.get (fun _ => 0xFFFFFFFF) s.sw.qwMin q)
    let s := (s.setReg (Reg.DBG_QW_M k 0) (wd hi)).setReg (Reg.DBG_QW_M k 1) (wd lo)
    s.setReg (Reg.DBG_QW_M k 2) (wd (Sparse.get (fun _ => 0) s.sw.qwSent q))

/-- Latches what CTL_MEAS shows of every adaptation record. -/
def State.latchMeas (s : State) : State :=
  (s.ct.adapt.map (fun (e : Nat × Adapt) => e.1)).foldl (fun s a =>
    let x := s.adapt a
    s.setAdapt a { x with shown := (upTo 4).map (fun k => (nth Meas.reset x.last k, nth 0 x.bad k, nth 0 x.good k)) }) s

/-- Telemetry of tick `old` latches, unless DBG_TEL_CTL.FREEZE is set (R503). -/
def State.latchAll (s : State) (old : BitVec 48) : State :=
  if s.regB Reg.DBG_TEL_CTL 0 then s
  else
    let s := { s with regs := Sparse.keep (fun off => !tickReg off) s.regs }
    let s := (s.fronds.map (fun (e : Nat × Frond) => e.1)).foldl (fun s f => s.latchFrond f) s
    let s := (upTo 16).foldl (fun s f => s.latchTel f) s
    let s := (upTo 8).foldl (fun s k => s.latchWatch k) s
    let s : State := { s with
      tk := { s.tk with
        ipBase := some s.draws
        ipCycles := s.tk.span * 5 / 2 }
      draws := s.draws + 272 }
    ((s.setReg Reg.DBG_TEL_TICK_LO (old.truncate 32)).setReg Reg.DBG_TEL_TICK_HI ((old >>> 32).truncate 32)).latchMeas

/-- The statistics of a tick start over. -/
def State.freshStats (s : State) : State :=
  let qs := (upTo 8).filterMap (fun k => s.watched k)
  let s : State := { s with sw := { s.sw with
    tele := (upTo 16).foldl (fun m f => Sparse.set (fun _ => Tele.reset) m f { Tele.reset with depth := (s.dispQ f).length }) []
    qwMax := qs.foldl (fun m q => Sparse.set (fun _ => 0) m q (s.qDepth q)) []
    qwMin := qs.foldl (fun m q => Sparse.set (fun _ => 0xFFFFFFFF) m q (s.qDepth q)) []
    qwSent := [] } }
  (s.fronds.map (fun (e : Nat × Frond) => e.1)).foldl (fun s f => s.modFrond f (fun fr => { fr with lvlStat := [], busy := [], fetched := [] })) s

/-- The notification of the CONTROL spores discarded late in the tick (R38): where none of them had a stream, its handle is a free value. -/
def State.lateNote (s : State) : State :=
  match s.tk.lateFirst with
  | some h => s.postEvent 4 0 (wd h) (wd s.tk.lateCount)
  | none => s.draw.2.postEvent 4 0 s.draw.1 (wd s.tk.lateCount)

/-- The coalesced notifications of the tick (R436). -/
def State.coalesced (s : State) : State :=
  let s := if s.tk.lateCount = 0 then s else s.lateNote
  let s := if s.tk.pushCount = 0 then s else s.postEvent 5 0 (wd s.tk.pushFirst) (wd s.tk.pushCount)
  { s with tk := { s.tk with lateFirst := none, lateCount := 0, pushFirst := 0, pushCount := 0 } }

/-- A mirror session that wrote records posts its completion (R275). -/
def State.mirrorDone (s : State) : State :=
  let s := s.sw.mirCount.foldl (fun (s : State) (e : Nat × Nat) =>
    let m := e.1
    let wr := s.regF (Reg.SWC_MIR_WR m) 19 0
    if s.ringRoom 4 then
      s.ringPost 4 (fun seq => [wd m, wd wr, s.tick32, seq].flatMap (fun w => leBytes 4 w.toNat))
    else s.bump (Reg.BLK_RNG_LOST 4)) s
  { s with sw.mirCount := [] }

/-- One unfinished object of tick `old` (R35, R36). -/
def State.overrun (s : State) (old item object : Nat) : State :=
  let s : State := if s.tk.log.length < 16 then { s with tk.log := s.tk.log ++ [⟨old % 65536, item, object⟩] } else s
  ((s.bump Reg.TICK_OVR_COUNT).setRegF Reg.TICK_STATUS 6 6 1).postEvent 3 4 (wd item) (wd object)

/-- The unfinished tick-phase work of tick `old` and the actions of Table 02-3 but for item 4's stale marks. -/
def State.overruns (s : State) (old : Nat) : State :=
  let s := (s.sg.built.filter (fun b => !b.late)).foldl (fun s b => s.overrun old 1 b.set) s
  let s : State := { s with sg.built := s.sg.built.map (fun (b : Built) => { b with late := true }) }
  let s := s.sg.unbuilt.foldl (fun s i => (s.overrun old 2 i).bump Reg.SIG_PUB_SKIPPED) s
  let s : State := { s with sg.unbuilt := [] }
  let s := s.peatUnfinished.foldl (fun s i => s.overrun old 3 i) s
  match s.sg.voteFrom with
  | some g => s.overrun old 4 g
  | none => s

/-- Step 2. -/
def State.step2 (s : State) (old : BitVec 48) : State :=
  let s := (s.ctlLatch.frerTicks.latchAll old).freshStats
  let s := (s.mirrorDone.coalesced.overruns old.toNat).trpBoundary
  let s := s.pauseTick.errTick.ceTick
  { s with sw.violated := [], tbl := { s.tbl with notified := [], lrnCount := [] }, sg.swept := false }

/-! ### Steps 3 to 5 -/

/-- Step 3: the view advances; what is left of the peat scan is skipped (R346, R377). -/
def State.step3 (s : State) : State := { s.peatSkip with sg.tick16 := BitVec.ofNat 16 s.tick }

/-- Step 4 for one port: the running list up to the boundary, an armed swap, then the gate cycle that starts here (R290, R292). -/
def State.portBoundary (s : State) (p : Nat) (t : DWord) : State :=
  let s := (if s.gclOn p then s.gatesTo p t 256 else s).gclSwap p
  if s.gclOn p then (if s.tick % s.gclMult p = 0 then s.gateCycle p t else s)
  else if (s.port p).cycleStart.isSome then
    let s := s.syncPort p
    s.setPort p { s.port p with cycleStart := none }
  else s

/-- Step 4: gate lists, stream gates, programs, spares. -/
def State.step4 (s : State) (t : DWord) : State :=
  ((upTo 64).foldl (fun s p => s.portBoundary p t) s).sgateSwap.programSwap.spareSwap

/-! ### The deadlock detector (R199, R200) -/

/-- Is a thread considered by the detector? -/
def Thread.considered (th : Thread) : Bool :=
  match th.role with
  | .task => th.task.isSome
  | .packet => th.spore0.isSome || th.spore1.isSome
  | .idle => false

/-- The wait in LOCK or CHR of a thread. -/
def Thread.syncWait (th : Thread) : Option Wait :=
  match th.run with
  | .waiting (.lock a) => some (.lock a)
  | .waiting (.chr k ea) => some (.chr k ea)
  | _ => none

/-- Is a considered thread quiet? -/
def State.quiet (s : State) (t : Tid) : Bool :=
  let th := s.thr t
  th.syncWait.isSome && th.tags.toList.all (fun x => decide (x = .free)) && (decide (th.timer = 0) || !th.evmask.getLsbD 3)
    && decide (s.sporep t < 2 ^ 17) && decide (th.evpend &&& th.evmask = 0)

/-- The deadlock edge of a considered thread: FRD_DL_EDGE0 and FRD_DL_EDGE1. -/
def State.dlEdge (s : State) (f : Nat) (t : Tid) : Word × Word :=
  match (s.thr t).syncWait with
  | some (.lock a) =>
    match s.lockEntry f a with
    | some e => (wd (2 ^ 31 + (if (s.thr e.holder).halted then 2 ^ 29 else 0) + e.holder.toNat * 65536), a)
    | none => (wd (2 ^ 31), a)
  | some (.chr k _) => (wd (2 ^ 31 + 2 ^ 30 + 0x7FF * 65536), wd (if k < 1024 then k % 64 else k - 1024 + 64))
  | _ => (0, 0)

/-- The considered threads of frond f. -/
def State.considered (s : State) (f : Nat) : List Tid :=
  s.threads.filterMap (fun (e : Nat × Thread) =>
    if e.1 / 128 = f ∧ e.2.considered then some (BitVec.ofNat 11 e.1) else none)

/-- What the detector does on a detection in frond f among the threads ts. -/
def State.deadlock (s : State) (f : Nat) (ts : List Tid) : State :=
  let s := s.bump (Reg.FRD_DL_COUNT f)
  if s.regB (Reg.FRD_DL_STATUS f) 31 then s
  else
    let edge (off : Nat) : Bool := decide (Reg.FRD_DL_EDGE0 f 0 ≤ off ∧ off < Reg.FRD_DL_EDGE0 f 128)
    let s := { s with regs := Sparse.keep (fun off => !edge off) s.regs }
    let s := ts.foldl (fun s t =>
      let x := s.dlEdge f t
      let i := t.toNat % 128
      (s.setReg (Reg.FRD_DL_EDGE0 f i) x.1).setReg (Reg.FRD_DL_EDGE1 f i) x.2) s
    let s := (s.setReg (Reg.FRD_DL_STATUS f) (wd (2 ^ 31 + ts.length))).setReg (Reg.FRD_DL_TICK f) s.tick32
    (s.pend (mkTid f 0 0) 12).postEvent 6 0 (wd f) s.tick32

/-- Did an UNLOCK, a grant or a channel commit touch an object in the tick that ends? -/
def State.objTouched (s : State) (o : Nat) : Bool :=
  if o % 2 = 0 then s.touchedLocks.contains (o / 2) else s.touchedChans.contains (o / 2)

/-- The detector of frond f at a boundary. -/
def State.detect (s : State) (f : Nat) : State :=
  let ts := s.considered f
  let fr := s.frond f
  let all := !ts.isEmpty && ts.all (fun t => s.quiet t)
  let moved := fr.waited.any (fun (e : Tid × Nat) => ts.contains e.1 && s.objTouched e.2)
  let s := if all && fr.dlPrev && !moved then s.deadlock f ts else s
  s.modFrond f (fun fr => { fr with dlPrev := all, waited := [] })

/-- The detectors of all fronds, just before step 6. -/
def State.detectAll (s : State) : State :=
  { (upTo 16).foldl (fun s f => s.detect f) s with touchedLocks := [], touchedChans := [] }

/-! ### Step 6 (R195, R197, R32) -/

/-- The threads that are not in their power-on state. -/
def State.liveThreads (s : State) : List Tid := s.threads.map (fun (e : Nat × Thread) => BitVec.ofNat 11 e.1)

/-- Step 6: waits end, the TICK event becomes pending on every thread that has it enabled, sleeping tasks become READY. -/
def State.step6 (s : State) : State :=
  let s := s.liveThreads.foldl (fun s t => s.endWait t true) s
  let s := s.liveThreads.foldl (fun s t => if (s.thr t).evmask.getLsbD 2 then s.pend t 2 else s) s
  (s.fronds.map (fun (e : Nat × Frond) => e.1)).foldl (fun s f => s.wakeSleepers f) s

/-! ### Steps 7 to 9 -/

/-- Step 7: the first `built` of the sets due are built; the others are left, skipped where a late message of the set still waits
(R362, Table 02-3). -/
def State.step7 (s : State) (built : Nat) : State :=
  if !s.regB Reg.SIG_CFG 31 then s
  else
    let due := s.pubsDue s.tick
    let s := (due.take built).foldl (fun s i => s.pubBuild i) s
    let waits (i : Nat) : Bool := s.sg.built.any (fun b => decide (b.set = i) && b.late)
    let rest := due.drop built
    let s' := s.bump Reg.SIG_PUB_SKIPPED (rest.filter waits).length
    { s' with sg.unbuilt := rest.filter (fun i => !waits i) }

/-- Step 9: results of groups left over are marked stale, then the first `voted` groups in use are evaluated (R357, Table 02-3). -/
def State.step9 (s : State) (left : Option Nat) (voted : Nat) : State :=
  if !s.regB Reg.SIG_CFG 31 then s
  else
    let gs := s.voteGroups
    let s : State := match left with
      | some g => (gs.filter (fun i => decide (g ≤ i))).foldl (fun s i => s.voteStale i) s
      | none => s
    let s := (gs.take voted).foldl (fun s g => (s.voteEval g).1) s
    { s with sg.voteFrom := (gs.drop voted).head? }

/-- Steps 7 to 9 in the modes that run them; t and b tell the number and start of the tick that ended. -/
def State.phases (s : State) (old b0 b1 : Nat) (left : Option Nat) (built voted : Nat) : State :=
  if s.mode.phases then (((s.step7 built).peatStep8 old b0 b1).step9 left voted) else s

/-! ### The boundary -/

/-- The TICK frame of the chain head, and of the head of a segment (R448, R453). What R448 and Table 19-1 do not fix in it is free. -/
def State.sendTick (s : State) : State :=
  if !s.cn.head ∧ !s.cn.segHead then s
  else
    let r := s.draw
    let f : ChainFrame := { dst := r.1.truncate 5, bcast := bit r.1 5, src := r.2.chainAddr, seq := BitVec.ofNat 8 (fld r.1 13 6), hops := 1,
                            chan := 0, tag := BitVec.ofNat 16 (fld r.1 29 14), payload := leBytes 8 r.2.tick }
    r.2.chainSendTick f

/-- A boundary at instant t: `built` publication sets are built in its tick, `voted` groups evaluated. -/
def State.boundaryStep (s : State) (t : DWord) (built voted : Nat) : State :=
  let old := s.tk.number
  let b0 := (s.tk.last.getD t).toNat
  let left := s.sg.voteFrom
  let r := s.step1 t
  let s := (r.1.step2 old)
  let s := { s with sg.voteFrom := none }
  let s := ((s.step3.step4 t).adaptAll).detectAll.step6
  let s := s.phases old.toNat b0 t.toNat left built voted
  let s := if r.2 then s.drainEnds else s
  (s.sendTick).tickOut t

/-! ### The rows -/

/-- A boundary of the time base: the next instant of source PTP, or the next boundary of holdover. -/
def State.timeBoundary (s : State) (ptp locked : Bool) (built voted : Nat) : State :=
  let s := s.setLocked locked
  if !s.tickRuns then s
  else if ptp then
    if s.srcPri ≠ 0 ∧ s.srcFb ≠ 0 then s
    else
      let t := s.ptpAt
      let r := (s.advanceTo (BitVec.ofNat 64 t)).srcEvent 0 t
      if r.2 then r.1.boundaryStep (BitVec.ofNat 64 t) built voted else r.1
  else if s.tk.active = 3 ∧ !s.tk.leaving then
    let t := BitVec.ofNat 64 (max s.now s.holdoverAt)
    (s.advanceTo t).boundaryStep t built voted
  else s

/-- TICK_BOUNDARY (R24, R27, R32). -/
def execTickBoundary (ptp locked : Bool) (built voted : Nat) (s : State) : Host.Outcome State Fault Refusal :=
  done (s.timeBoundary ptp locked built voted)

/-- TICK_IN_EDGE (R25): an edge of the pin at an instant. -/
def execTickInEdge (at_ : DWord) (built voted : Nat) (s : State) : Host.Outcome State Fault Refusal :=
  let s := s.advanceTo at_
  let r := s.srcEvent 2 s.now
  done (if r.2 then r.1.boundaryStep s.tb.now built voted else r.1)

/-- TICK_WINDOW_CLOSE (R25, R527): the window of the CHAIN or TICK_IN source that is in use, or is to be taken over, closes without an
event. -/
def execTickWindowClose (built voted : Nat) (s : State) : Host.Outcome State Fault Refusal :=
  let c := s.awaited
  done (if s.tickRuns ∧ (c = 1 ∨ c = 2) then
      let t := BitVec.ofNat 64 (max s.now s.windowClose)
      ((s.advanceTo t).boundaryStep t built voted).loseSource c
    else s)

/-- DRAIN_LIMIT (R461): the boundary at which MGT_DRAIN_LIMIT ticks have passed, DRAIN not complete. -/
def execDrainLimit (ptp locked : Bool) (built voted : Nat) (s : State) : Host.Outcome State Fault Refusal :=
  done (if s.mode = .drain ∧ !s.md.entering ∧ s.md.cmd.isNone ∧ !s.drained ∧ s.regF Reg.MGT_DRAIN_LIMIT 15 0 ≤ s.md.drainTicks + 1 then
      s.timeBoundary ptp locked built voted
    else s)

/-- HEARTBEAT_LAPSE (R439, R459): the boundary at which the heartbeat count reaches MGT_HB_TICKS in RUN. -/
def execHeartbeatLapse (ptp locked : Bool) (built voted : Nat) (s : State) : Host.Outcome State Fault Refusal :=
  let limit := s.regF Reg.MGT_HB_TICKS 15 0
  done (if s.mode = .run ∧ s.md.cmd.isNone ∧ !s.md.hbWritten ∧ limit ≠ 0 ∧ limit ≤ s.host.hbTicks + 1 then
      s.timeBoundary ptp locked built voted
    else s)

/-- A TICK on its way on: HOPS plus 1, the CRC adjusted by that change alone, so that an error in it (free, not 0) stays (R448). -/
def State.tickOn (s : State) (f : ChainFrame) (crcOk : Bool) : State :=
  let f := { f with hops := f.hops + 1 }
  if crcOk then s.chainSendTick f
  else
    let r := s.draw
    let e := if r.1 = 0 then 1#32 else r.1
    let b := chainBytes f .tick
    let n := b.length - 4
    let c := BitVec.ofNat 32 (leAt b n 4) ^^^ e
    { r.2 with cn := { r.2.cn with lastTx := r.2.tb.now } }.emit (.chain (b.take n ++ leBytes 4 c.toNat))

/-- A device that uses source CHAIN compares the tick number carried with its own (R30). -/
def State.tickCheck (s : State) (carried : Nat) : State :=
  if s.tk.active = 1 ∧ s.tickRuns ∧ carried ≠ s.tick then (s.setRegF Reg.TICK_STATUS 5 5 1).postEvent 3 3 1 (wd (carried % 2 ^ 32)) else s

/-- TICK (R30, R445, R448): a TICK frame arrives at an instant. -/
def execTick (f : ChainFrame) (crcOk : Bool) (at_ : DWord) (built voted : Nat) (s : State) : Host.Outcome State Fault Refusal :=
  let s := s.advanceTo at_
  let head := s.cn.head || s.cn.segHead
  done (if !crcOk then
      let s := s.bump Reg.CHN_CNT_TICKBAD
      if head then s else s.tickOn f false
    else
      let s := s.chainHeard s.tb.now
      if 32 < f.hops.toNat ∨ (!head ∧ s.chainOwn f) then s.chainBad f
      else
        let s := if head then s else s.tickOn f true
        let t := s.now - f.hops.toNat * 48 - s.regF Reg.CHN_TICKADJ 15 0
        let r := s.srcEvent 1 t
        let s := if r.2 then r.1.boundaryStep (BitVec.ofNat 64 t) built voted else r.1
        s.tickCheck (leAt f.payload 0 6))

end Sys2Proof.Machine
end

