-- ==== Sys2Proof/Machine/Dispatch.lean ====
section
/-! DEFINITION. What each command does: one arm per constructor, each a direct call of the meaning of that row. -/

namespace Sys2Proof.Machine

/-- The effect of a command on everything but the queue. -/
def exec (i : Instr) (s : State) : Host.Outcome State Fault Refusal :=
  match i with
  | .dup t a => Sys2Proof.Machine.execDup t a s
  | .drop t a => Sys2Proof.Machine.execDrop t a s
  | .swap t a => Sys2Proof.Machine.execSwap t a s
  | .over t a => Sys2Proof.Machine.execOver t a s
  | .rot t a => Sys2Proof.Machine.execRot t a s
  | .nip t a => Sys2Proof.Machine.execNip t a s
  | .pick t a => Sys2Proof.Machine.execPick t a s
  | .lit8 t a => Sys2Proof.Machine.execLit8 t a s
  | .lit16 t a x => Sys2Proof.Machine.execLit16 t a x s
  | .lith t a x => Sys2Proof.Machine.execLith t a x s
  | .ldl t a => Sys2Proof.Machine.execLdl t a s
  | .stl t a => Sys2Proof.Machine.execStl t a s
  | .incl t f => Sys2Proof.Machine.execIncl t f s
  | .add t a => Sys2Proof.Machine.execAdd t a s
  | .sub t a => Sys2Proof.Machine.execSub t a s
  | .mul t a => Sys2Proof.Machine.execMul t a s
  | .mulh t a => Sys2Proof.Machine.execMulh t a s
  | .mulhu t a => Sys2Proof.Machine.execMulhu t a s
  | .neg t a => Sys2Proof.Machine.execNeg t a s
  | .abs t a => Sys2Proof.Machine.execAbs t a s
  | .min t a => Sys2Proof.Machine.execMin t a s
  | .max t a => Sys2Proof.Machine.execMax t a s
  | .minu t a => Sys2Proof.Machine.execMinu t a s
  | .maxu t a => Sys2Proof.Machine.execMaxu t a s
  | .and t a => Sys2Proof.Machine.execAnd t a s
  | .or t a => Sys2Proof.Machine.execOr t a s
  | .xor t a => Sys2Proof.Machine.execXor t a s
  | .not t a => Sys2Proof.Machine.execNot t a s
  | .shl t a => Sys2Proof.Machine.execShl t a s
  | .shr t a => Sys2Proof.Machine.execShr t a s
  | .sar t a => Sys2Proof.Machine.execSar t a s
  | .rol t a => Sys2Proof.Machine.execRol t a s
  | .popc t a => Sys2Proof.Machine.execPopc t a s
  | .clz t a => Sys2Proof.Machine.execClz t a s
  | .bswap t a => Sys2Proof.Machine.execBswap t a s
  | .eq t a => Sys2Proof.Machine.execEq t a s
  | .ne t a => Sys2Proof.Machine.execNe t a s
  | .lt t a => Sys2Proof.Machine.execLt t a s
  | .ltu t a => Sys2Proof.Machine.execLtu t a s
  | .le t a => Sys2Proof.Machine.execLe t a s
  | .leu t a => Sys2Proof.Machine.execLeu t a s
  | .inrange t a => Sys2Proof.Machine.execInrange t a s
  | .extr t a x => Sys2Proof.Machine.execExtr t a x s
  | .insr t a x => Sys2Proof.Machine.execInsr t a x s
  | .dadd t a => Sys2Proof.Machine.execDadd t a s
  | .dsub t a => Sys2Proof.Machine.execDsub t a s
  | .deq t a => Sys2Proof.Machine.execDeq t a s
  | .dltu t a => Sys2Proof.Machine.execDltu t a s
  | .dshl t a => Sys2Proof.Machine.execDshl t a s
  | .dshr t a => Sys2Proof.Machine.execDshr t a s
  | .ldb t f => Sys2Proof.Machine.execLdb t f s
  | .ldbs t f => Sys2Proof.Machine.execLdbs t f s
  | .ldh t f => Sys2Proof.Machine.execLdh t f s
  | .ldhs t f => Sys2Proof.Machine.execLdhs t f s
  | .ldw t f => Sys2Proof.Machine.execLdw t f s
  | .ldd t f => Sys2Proof.Machine.execLdd t f s
  | .stb t f => Sys2Proof.Machine.execStb t f s
  | .sth t f => Sys2Proof.Machine.execSth t f s
  | .stw t f => Sys2Proof.Machine.execStw t f s
  | .std t f => Sys2Proof.Machine.execStd t f s
  | .xadd t f => Sys2Proof.Machine.execXadd t f s
  | .cas t f => Sys2Proof.Machine.execCas t f s
  | .br t f => Sys2Proof.Machine.execBr t f s
  | .bz t f => Sys2Proof.Machine.execBz t f s
  | .bnz t f => Sys2Proof.Machine.execBnz t f s
  | .call t a x => Sys2Proof.Machine.execCall t a x s
  | .ret t a => Sys2Proof.Machine.execRet t a s
  | .loop t a x => Sys2Proof.Machine.execLoop t a x s
  | .loopl t a x => Sys2Proof.Machine.execLoopl t a x s
  | .rep t a => Sys2Proof.Machine.execRep t a s
  | .repl t a => Sys2Proof.Machine.execRepl t a s
  | .evret t a => Sys2Proof.Machine.execEvret t a s
  | .trap t a => Sys2Proof.Machine.execTrap t a s
  | .yield t a => Sys2Proof.Machine.execYield t a s
  | .wait t a x => Sys2Proof.Machine.execWait t a x s
  | .waitEnd t => Sys2Proof.Machine.execWaitEnd t s
  | .fwd t a => Sys2Proof.Machine.execFwd t a s
  | .fwdm t a => Sys2Proof.Machine.execFwdm t a s
  | .droppkt t a => Sys2Proof.Machine.execDroppkt t a s
  | .toslow t a => Sys2Proof.Machine.execToslow t a s
  | .mirr t a => Sys2Proof.Machine.execMirr t a s
  | .emit t a => Sys2Proof.Machine.execEmit t a s
  | .cqs t a => Sys2Proof.Machine.execCqs t a s
  | .cqw t a => Sys2Proof.Machine.execCqw t a s
  | .cqp t a => Sys2Proof.Machine.execCqp t a s
  | .balloc t a => Sys2Proof.Machine.execBalloc t a s
  | .bfree t a => Sys2Proof.Machine.execBfree t a s
  | .lock t a => Sys2Proof.Machine.execLock t a s
  | .trylock t a => Sys2Proof.Machine.execTrylock t a s
  | .unlock t a => Sys2Proof.Machine.execUnlock t a s
  | .chw t a => Sys2Proof.Machine.execChw t a s
  | .chs t a => Sys2Proof.Machine.execChs t a s
  | .chr t f => Sys2Proof.Machine.execChr t f s
  | .tready t a => Sys2Proof.Machine.execTready t a s
  | .tyield t a => Sys2Proof.Machine.execTyield t a s
  | .tsleep t a => Sys2Proof.Machine.execTsleep t a s
  | .taskDispatch t => Sys2Proof.Machine.execTaskDispatch t s
  | .rdsr t a => Sys2Proof.Machine.execRdsr t a s
  | .wrsr t a => Sys2Proof.Machine.execWrsr t a s
  | .fence t a => Sys2Proof.Machine.execFence t a s
  | .time64 t a => Sys2Proof.Machine.execTime64 t a s
  | .tickno t a => Sys2Proof.Machine.execTickno t a s
  | .storeLeave t => Sys2Proof.Machine.execStoreLeave t s
  | .drainEnd t => Sys2Proof.Machine.execDrainEnd t s
  | .eventEntry t => Sys2Proof.Machine.execEventEntry t s
  | .budget t => Sys2Proof.Machine.execBudget t s
  | .budgetHard t => Sys2Proof.Machine.execBudgetHard t s
  | .timer t => Sys2Proof.Machine.execTimer t s
  | .deadline t => Sys2Proof.Machine.execDeadline t s
  | .late k => Sys2Proof.Machine.execLate k s
  | .frameReceive p bytes fcsOk at_ => Sys2Proof.Machine.execFrameReceive p bytes fcsOk at_ s
  | .pauseRepeat p idx => Sys2Proof.Machine.execPauseRepeat p idx s
  | .pauseReceive p pfc enable quanta => Sys2Proof.Machine.execPauseReceive p pfc enable quanta s
  | .pauseWatchdog p tc => Sys2Proof.Machine.execPauseWatchdog p tc s
  | .pauseWatchdogEnd p tc => Sys2Proof.Machine.execPauseWatchdogEnd p tc s
  | .pauseQuantaExpired p tc => Sys2Proof.Machine.execPauseQuantaExpired p tc s
  | .ingressTake p idx bad => Sys2Proof.Machine.execIngressTake p idx s bad
  | .dispatch f => Sys2Proof.Machine.execDispatch f s
  | .orderingPass d => Sys2Proof.Machine.execOrderingPass d s
  | .residueRetry => Sys2Proof.Machine.execResidueRetry s
  | .residueExpiry k => Sys2Proof.Machine.execResidueExpiry k s
  | .slowPathDelivery => Sys2Proof.Machine.execSlowPathDelivery s
  | .linkStateChange p up => Sys2Proof.Machine.execLinkStateChange p up s
  | .verify p ok => Sys2Proof.Machine.execVerify p ok s
  | .transmissionSelect p at_ => Sys2Proof.Machine.execTransmissionSelect p at_ s
  | .transmitComplete p at_ => Sys2Proof.Machine.execTransmitComplete p at_ s
  | .gateEntryChange p at_ => Sys2Proof.Machine.execGateEntryChange p at_ s
  | .frondGate f => Sys2Proof.Machine.execFrondGate f s
  | .frondWake f => Sys2Proof.Machine.execFrondWake f s
  | .apertureWrite c tlp poisoned malformed bad => Sys2Proof.Machine.execApertureWrite c tlp poisoned malformed bad s
  | .apertureRead c off n bad => Sys2Proof.Machine.execApertureRead c off n bad s
  | .pull c => Sys2Proof.Machine.execPull c s
  | .push c bad => Sys2Proof.Machine.execPush c bad s
  | .readCompletion tag bytes bad => Sys2Proof.Machine.execReadCompletion tag bytes bad s
  | .pullTimeout c => Sys2Proof.Machine.execPullTimeout c s
  | .ringSignal r at_ => Sys2Proof.Machine.execRingSignal r at_ s
  | .hostLinkReset down => Sys2Proof.Machine.execHostLinkReset down s
  | .pcieLinkUp speed width bme mps mrrs => Sys2Proof.Machine.execPcieLinkUp speed width bme mps mrrs s
  | .dbgLock p v => Sys2Proof.Machine.execDbgLock p v s
  | .jtagTrstN => Sys2Proof.Machine.execJtagTrstN s
  | .halt p merged => Sys2Proof.Machine.execHalt p merged s
  | .resumeThread p merged => Sys2Proof.Machine.execResumeThread p merged s
  | .step p merged => Sys2Proof.Machine.execStep p merged s
  | .post p merged => Sys2Proof.Machine.execPost p merged s
  | .discard p merged => Sys2Proof.Machine.execDiscard p merged s
  | .dbgTregData p v => Sys2Proof.Machine.execDbgTregData p v s
  | .dbgLkrel p addr ctl => Sys2Proof.Machine.execDbgLkrel p addr ctl s
  | .dbgCntclr p v => Sys2Proof.Machine.execDbgCntclr p v s
  | .dbgTelCtl p v => Sys2Proof.Machine.execDbgTelCtl p v s
  | .threadAbort t => Sys2Proof.Machine.execThreadAbort t s
  | .coreAbort k => Sys2Proof.Machine.execCoreAbort k s
  | .frondAbort f => Sys2Proof.Machine.execFrondAbort f s
  | .coprocessorAbort f k => Sys2Proof.Machine.execCoprocessorAbort f k s
  | .tableEngineAbort q => Sys2Proof.Machine.execTableEngineAbort q s
  | .bulkChannelAbort c => Sys2Proof.Machine.execBulkChannelAbort c s
  | .dramChannelAbort c => Sys2Proof.Machine.execDramChannelAbort c s
  | .portAbort p => Sys2Proof.Machine.execPortAbort p s
  | .dataPlaneAbort => Sys2Proof.Machine.execDataPlaneAbort s
  | .abortFenced cause => Sys2Proof.Machine.execAbortFenced cause s
  | .rasPorthold p hi v => Sys2Proof.Machine.execRasPorthold p hi v s
  | .thermal temp => Sys2Proof.Machine.execThermal temp s
  | .lane l e => Sys2Proof.Machine.execLane l e s
  | .mgtDpReset v => Sys2Proof.Machine.execMgtDpReset v s
  | .training fail => Sys2Proof.Machine.execTraining fail s
  | .retrain j dur due at_ => Sys2Proof.Machine.execRetrain j dur due at_ s
  | .refresh burst full => Sys2Proof.Machine.execRefresh burst full s
  | .dramAccess c err fill at_ reqs pick claimed => Sys2Proof.Machine.execDramAccess c err fill at_ s reqs pick claimed
  | .scrub a err at_ => Sys2Proof.Machine.execScrub a err at_ s
  | .modulePoll l present los => Sys2Proof.Machine.execModulePoll l present los s
  | .keepEntry at_ => Sys2Proof.Machine.execKeepEntry at_ s
  | .wakeN fail ok => Sys2Proof.Machine.execWakeN fail ok s
  | .porstN head => Sys2Proof.Machine.execPorstN head s
  | .wrstN => Sys2Proof.Machine.execWrstN s
  | .mgtReset v => Sys2Proof.Machine.execMgtReset v s
  | .pePerstN rising fail ok => Sys2Proof.Machine.execPePerstN rising fail ok s
  | .run => Sys2Proof.Machine.execRun s
  | .drain keep => Sys2Proof.Machine.execDrain keep s
  | .clkPlloff v => Sys2Proof.Machine.execClkPlloff v s
  | .vddIo18InRange => Sys2Proof.Machine.execVddIo18InRange s
  | .insert via bad => Sys2Proof.Machine.execInsert via bad s
  | .update via bad => Sys2Proof.Machine.execUpdate via bad s
  | .delete via bad => Sys2Proof.Machine.execDelete via bad s
  | .deleteIfIdle via bad => Sys2Proof.Machine.execDeleteIfIdle via bad s
  | .lookup via bad => Sys2Proof.Machine.execLookup via bad s
  | .readIndex via bad => Sys2Proof.Machine.execReadIndex via bad s
  | .writeIndex via bad => Sys2Proof.Machine.execWriteIndex via bad s
  | .flushPort via => Sys2Proof.Machine.execFlushPort via s
  | .flushVid via => Sys2Proof.Machine.execFlushVid via s
  | .ageStep via => Sys2Proof.Machine.execAgeStep via s
  | .walkStep bad => Sys2Proof.Machine.execWalkStep s bad
  | .rehashStart t => Sys2Proof.Machine.execRehashStart t s
  | .resume t => Sys2Proof.Machine.execResume t s
  | .migrationStep t bad => Sys2Proof.Machine.execMigrationStep t s bad
  | .tableScrubError t idx => Sys2Proof.Machine.execTableScrubError t idx s
  | .copy f => Sys2Proof.Machine.execCopy f s
  | .fill f => Sys2Proof.Machine.execFill f s
  | .frameRead f => Sys2Proof.Machine.execFrameRead f s
  | .list f => Sys2Proof.Machine.execList f s
  | .dmaChunk f idx bad part => Sys2Proof.Machine.execDmaChunk f idx bad s part
  | .compute via => Sys2Proof.Machine.execCompute via s
  | .compare via => Sys2Proof.Machine.execCompare via s
  | .readPage f bad => Sys2Proof.Machine.execReadPage f bad s
  | .find f bad => Sys2Proof.Machine.execFind f bad s
  | .append f => Sys2Proof.Machine.execAppend f s
  | .read f => Sys2Proof.Machine.execRead f s
  | .readView f => Sys2Proof.Machine.execReadView f s
  | .write f => Sys2Proof.Machine.execWrite f s
  | .config f => Sys2Proof.Machine.execConfig f s
  | .voteEval f => Sys2Proof.Machine.execVoteEval f s
  | .commandComplete f r => Sys2Proof.Machine.execCommandComplete f r s
  | .expired f idx late => Sys2Proof.Machine.execExpired f idx late s
  | .lateError f j code => Sys2Proof.Machine.execLateError f j code s
  | .frdCqHsub f v => Sys2Proof.Machine.execFrdCqHsub f v s
  | .bpmHalloc v => Sys2Proof.Machine.execBpmHalloc v s
  | .bpmHfree v => Sys2Proof.Machine.execBpmHfree v s
  | .bpmCfgValid n v => Sys2Proof.Machine.execBpmCfgValid n v s
  | .swcMcgData v => Sys2Proof.Machine.execSwcMcgData v s
  | .swcMcmData v => Sys2Proof.Machine.execSwcMcmData v s
  | .ruleWrite idx => Sys2Proof.Machine.execRuleWrite idx s
  | .ruleRead idx => Sys2Proof.Machine.execRuleRead idx s
  | .invalidate idx => Sys2Proof.Machine.execInvalidate idx s
  | .egrGclData1 p v => Sys2Proof.Machine.execEgrGclData1 p v s
  | .gateArm p => Sys2Proof.Machine.execGateArm p s
  | .gateCancel p => Sys2Proof.Machine.execGateCancel p s
  | .egrCtxData1 v => Sys2Proof.Machine.execEgrCtxData1 v s
  | .egrXpL idx v => Sys2Proof.Machine.execEgrXpL idx v s
  | .portCfg p v => Sys2Proof.Machine.execPortCfg p v s
  | .ctlSdata3 v => Sys2Proof.Machine.execCtlSdata3 v s
  | .ctlFdata1 v => Sys2Proof.Machine.execCtlFdata1 v s
  | .ctlGdata1 v => Sys2Proof.Machine.execCtlGdata1 v s
  | .streamGateArm => Sys2Proof.Machine.execStreamGateArm s
  | .streamGateCancel => Sys2Proof.Machine.execStreamGateCancel s
  | .ctlMdata4 v => Sys2Proof.Machine.execCtlMdata4 v s
  | .ctlRdata2 v => Sys2Proof.Machine.execCtlRdata2 v s
  | .ctlAdata11 v => Sys2Proof.Machine.execCtlAdata11 v s
  | .ctlAdmit => Sys2Proof.Machine.execCtlAdmit s
  | .sigEnable => Sys2Proof.Machine.execSigEnable s
  | .sigHvData3 v => Sys2Proof.Machine.execSigHvData3 v s
  | .sigVgData7 v => Sys2Proof.Machine.execSigVgData7 v s
  | .sigPubData6 v => Sys2Proof.Machine.execSigPubData6 v s
  | .sigSvcData7 v => Sys2Proof.Machine.execSigSvcData7 v s
  | .announce => Sys2Proof.Machine.execAnnounce s
  | .peatPData3 v => Sys2Proof.Machine.execPeatPData3 v s
  | .peatSData7 v => Sys2Proof.Machine.execPeatSData7 v s
  | .peatClData7 v => Sys2Proof.Machine.execPeatClData7 v s
  | .check => Sys2Proof.Machine.execCheck s
  | .checkAndCommit => Sys2Proof.Machine.execCheckAndCommit s
  | .armSwap => Sys2Proof.Machine.execArmSwap s
  | .cancelSwap => Sys2Proof.Machine.execCancelSwap s
  | .loadResident services => Sys2Proof.Machine.execLoadResident services s
  | .blkChAddrHi c v => Sys2Proof.Machine.execBlkChAddrHi c v s
  | .blkRngRd r v => Sys2Proof.Machine.execBlkRngRd r v s
  | .blkRngCfg r v => Sys2Proof.Machine.execBlkRngCfg r v s
  | .mgtHeartbeat v => Sys2Proof.Machine.execMgtHeartbeat v s
  | .drcCfg v => Sys2Proof.Machine.execDrcCfg v s
  | .drcRetire v => Sys2Proof.Machine.execDrcRetire v s
  | .drcKeep v => Sys2Proof.Machine.execDrcKeep v s
  | .blkMbxDb v merged => Sys2Proof.Machine.execBlkMbxDb v merged s
  | .registerWrite p at_ v => Sys2Proof.Machine.execRegisterWrite p at_ v s
  | .latchingPairRead p at_ => Sys2Proof.Machine.execLatchingPairRead p at_ s
  | .ptpTxtsHi => Sys2Proof.Machine.execPtpTxtsHi s
  | .tickOvrLog1 => Sys2Proof.Machine.execTickOvrLog1 s
  | .frdCqHtag f idx => Sys2Proof.Machine.execFrdCqHtag f idx s
  | .chkMlog5 => Sys2Proof.Machine.execChkMlog5 s
  | .rasLog4 p => Sys2Proof.Machine.execRasLog4 p s
  | .blkViol2 => Sys2Proof.Machine.execBlkViol2 s
  | .chnReplLog => Sys2Proof.Machine.execChnReplLog s
  | .coreFaultLast1 f c => Sys2Proof.Machine.execCoreFaultLast1 f c s
  | .drcChElog2 c => Sys2Proof.Machine.execDrcChElog2 c s
  | .tickControllerStart => Sys2Proof.Machine.execTickControllerStart s
  | .tickNumberHi v => Sys2Proof.Machine.execTickNumberHi v s
  | .ptpStepHi v p => Sys2Proof.Machine.execPtpStepHi v s p
  | .ptpPadj v p => Sys2Proof.Machine.execPtpPadj v s p
  | .slewEnd at_ => Sys2Proof.Machine.execSlewEnd at_ s
  | .ppsIn at_ => Sys2Proof.Machine.execPpsIn at_ s
  | .ppsOut => Sys2Proof.Machine.execPpsOut s
  | .ppsOutPulseEnd => Sys2Proof.Machine.execPpsOutPulseEnd s
  | .tickOutPulseEnd => Sys2Proof.Machine.execTickOutPulseEnd s
  | .publicationQueue => Sys2Proof.Machine.execPublicationQueue s
  | .sweep => Sys2Proof.Machine.execSweep s
  | .peatCommit scan n => Sys2Proof.Machine.execPeatCommit scan n s
  | .responderRecord => Sys2Proof.Machine.execResponderRecord s
  | .trpRequest bad => Sys2Proof.Machine.execTrpRequest s bad
  | .cursorExpiry idx at_ => Sys2Proof.Machine.execCursorExpiry idx at_ s
  | .frerReset r => Sys2Proof.Machine.execFrerReset r s
  | .latentPeriod r => Sys2Proof.Machine.execLatentPeriod r s
  | .enum f good at_ => Sys2Proof.Machine.execEnum f good at_ s
  | .enumCommand => Sys2Proof.Machine.execEnumCommand s
  | .enumResend => Sys2Proof.Machine.execEnumResend s
  | .abort f good at_ => Sys2Proof.Machine.execAbort f good at_ s
  | .msg f good at_ => Sys2Proof.Machine.execMsg f good at_ s
  | .wake f good at_ fail ok => Sys2Proof.Machine.execWake f good at_ fail ok s
  | .replace f good at_ => Sys2Proof.Machine.execReplace f good at_ s
  | .heartbeat f good at_ => Sys2Proof.Machine.execHeartbeat f good at_ s
  | .ack f good at_ => Sys2Proof.Machine.execAck f good at_ s
  | .chainHeartbeatSend at_ => Sys2Proof.Machine.execChainHeartbeatSend at_ s
  | .txMsg => Sys2Proof.Machine.execTxMsg s
  | .txAbort => Sys2Proof.Machine.execTxAbort s
  | .txWake => Sys2Proof.Machine.execTxWake s
  | .threadMessage => Sys2Proof.Machine.execThreadMessage s
  | .messageTimeout tag at_ => Sys2Proof.Machine.execMessageTimeout tag at_ s
  | .ringBreak at_ lock => Sys2Proof.Machine.execRingBreak at_ lock s
  | .inputUp at_ => Sys2Proof.Machine.execInputUp at_ s
  | .tickBoundary ptp locked built voted => Sys2Proof.Machine.execTickBoundary ptp locked built voted s
  | .tickInEdge at_ built voted => Sys2Proof.Machine.execTickInEdge at_ built voted s
  | .tickWindowClose built voted => Sys2Proof.Machine.execTickWindowClose built voted s
  | .tick f crcOk at_ built voted => Sys2Proof.Machine.execTick f crcOk at_ built voted s
  | .drainLimit ptp locked built voted => Sys2Proof.Machine.execDrainLimit ptp locked built voted s
  | .heartbeatLapse ptp locked built voted => Sys2Proof.Machine.execHeartbeatLapse ptp locked built voted s

end Sys2Proof.Machine
end

