-- ==== Sys2Proof/Machine/Fetch.lean ====
section
/-! DEFINITION. What happens without a command: one clock of the time base, and a thread that issues the instruction at its pc (R21, R71, R72). -/

namespace Sys2Proof.Machine

/-- Thread t issues the instruction that its I-RAM bank holds at its pc (R71); a reserved opcode takes FAULT ILLEGAL (R72). -/
def State.fetchIssue (s : State) (t : Tid) : Host.Outcome State Fault Refusal :=
  let pc := (s.thr t).pc
  let h := s.code t pc
  match Sys2Proof.decodeOpvis t h (s.code t (pc + 1)) with
  | some c => exec c s
  | none => .next (s.issue t (if Sys2Proof.isLong h then 2 else 1) (fun _ => .fault .illegal))

/-- The threads that may issue now. -/
def State.issuers (s : State) : List Tid :=
  (s.threads.map (fun (e : Nat × Thread) => BitVec.ofNat 11 e.1)).filter (fun t => s.canIssue t)

/-- One clock without a command. DESIGN CHOICE (log entry 5): the slot wheel is not modelled, so which thread issues in it, if any, is a free
value. -/
def State.clockStep (s : State) : Host.Outcome State Fault Refusal :=
  let s := s.idle
  match s.issuers with
  | [] => .next s
  | t :: ts =>
    let d := s.draw
    match (t :: ts)[d.1.toNat % (ts.length + 2)]? with
    | some u => d.2.fetchIssue u
    | none => .next d.2

end Sys2Proof.Machine
end

