-- ==== Sys2Proof/Safety.lean ====
section
/-! DEFINITION. What statements about the whole machine speak of: the canonical form of memory and of the register file, when a
thread may issue, and what an instruction that goes on in sequence leaves behind. -/

namespace Sys2Proof.Machine

/-- Memory in canonical form: addresses strictly rising, no byte equal to 0, which an unlisted address reads as. -/
def Memory.wf (m : List Host.Cell) : Bool := Sparse.wf (fun _ => (0 : Byte)) m

/-- The static memories, and the harvest memory that a resume image holds, are in canonical form. -/
def State.memWf (s : State) : Bool :=
  Memory.wf s.mem && (match s.md.snap with | some x => Memory.wf x.harvest | none => true)

/-- The register file in canonical form: offsets strictly rising, no register listed with its reset value. -/
def State.regsWf (s : State) : Bool := Sparse.wf regReset s.regs

/-- Thread t may issue its next instruction, no breakpoint stops it, and no repetition with count 0 skips it. -/
def State.Ready (s : State) (t : Tid) : Prop :=
  s.canIssue t = true ∧ s.breakHere t = false ∧ ((s.thr t).repact = true → (s.thr t).repc ≠ 0)

/-- From s to u thread t took n of its slots (R164): in strict mode all of them count in SLOTS, in elastic mode those that were not lent. -/
def Took (s u : State) (t : Tid) (n : Nat) : Prop :=
  ∃ k ≤ n, ((s.core (coreKey t)).elastic = false → k = n) ∧ (u.thr t).slots = ((s.thr t).addSlots k).slots

/-- From s to u thread t took one issue slot of its core (FRD_TSK_BUSY), and of the fronds nothing else moved but which cores fetched from
I-RAM (R121): a core of t's, and only where `fetch` holds. -/
structure Issued (s u : State) (t : Tid) (fetch : Prop) : Prop where
  fronds : ∀ f, u.frond f = { s.frond f with
    busy := (u.frond f).busy
    fetched := (u.frond f).fetched }
  busy : ∀ f c, Sparse.get (fun _ => 0) (u.frond f).busy c =
    Sparse.get (fun _ => 0) (s.frond f).busy c + (if f = tidF t ∧ c = tidC t then 1 else 0)
  fetched : ∀ f c, c ∈ (u.frond f).fetched ↔ c ∈ (s.frond f).fetched ∨ (f = tidF t ∧ c = tidC t ∧ fetch)

/-- State u is state s after an instruction of thread t that took `cost` slots and left the operand stack `stk`, the locals `loc` and
the memory system as they are in u: of the machine only the thread, its core's issue record and the count of free values
moved; every other thread stands as it stood. Of the thread only stack, locals, pc, loops, loop buffer, repeat count, slots and
its debug halt moved; it is halted exactly if it was stepping. -/
structure Left (s u : State) (t : Tid) (cost : Nat) (stk : List Word) (loc : Vector Word 16) : Prop where
  machine : u = { s with
    threads := u.threads
    fronds := u.fronds
    draws := u.draws }
  others : ∀ v : Tid, v ≠ t → u.thr v = s.thr v
  issued : Issued s u t ((u.thr t).inBuffer = false)
  took : Took s u t cost
  thread : u.thr t = { s.thr t with
    stack := stk
    locals := loc
    pc := (u.thr t).pc
    loops := (u.thr t).loops
    held := (u.thr t).held
    repc := (u.thr t).repc
    repact := (u.thr t).repact
    slots := (u.thr t).slots
    skipBp := false
    halted := (s.thr t).stepping
    stepping := false
    haltReason := (u.thr t).haltReason
    haltHost := (u.thr t).haltHost }

/-- Left, and the thread goes on in sequence behind an instruction of `len` halfwords (or repeats it, or closes the loop body that ends
there, for the slots that the closing branch costs). -/
structure Retired (s u : State) (t : Tid) (len cost : Nat) (stk : List Word) (loc : Vector Word 16) : Prop where
  left : Left s u t (cost + (s.thr t).stepCost len) stk loc
  pc : (u.thr t).pc = ((s.thr t).advance len).pc
  loops : (u.thr t).loops = ((s.thr t).advance len).loops
  held : (u.thr t).held = ((s.thr t).advance len).held
  repc : (u.thr t).repc = ((s.thr t).advance len).repc
  repact : (u.thr t).repact = ((s.thr t).advance len).repact

/-- Command c answers a next state u, in which thread t's instruction of `len` halfwords has retired for `cost` slots with operand stack
`stk` and locals `loc`. -/
def Retires (c : Instr) (s : State) (t : Tid) (len cost : Nat) (stk : List Word) (loc : Vector Word 16) : Prop :=
  ∃ u, exec c s = .next u ∧ Retired s u t len cost stk loc

/-- State u is state s after thread t took FAULT with cause c and failing address `addr` and entered its FAULT handler (R134, R135, R140): the
fault record stands in D-RAM, the core's fault registers tell of it, the thread stands at the handler with its hidden record kept and its
loop and repeat state cleared; operand stack, locals and everything else are as they were. -/
structure Faulted (s u : State) (t : Tid) (c : Cause) (addr : Word) : Prop where
  machine : u = { s with
    threads := u.threads
    fronds := u.fronds
    draws := u.draws
    mem := u.mem
    regs := u.regs }
  issued : Issued s u t True
  took : Took s u t 6
  others : ∀ v : Tid, v ≠ t → u.thr v = s.thr v
  record : ∀ i < 16, u.sram (dmemBase (tidF t) (tidC t) + 0xE600 + tidT t * 16 + i) =
    nth 0 (faultRecord (s.thr t) ((s.thr t).faults + 1) c addr s.tick32) i
  memory : ∀ a, a < dmemBase (tidF t) (tidC t) + 0xE600 + tidT t * 16 ∨ dmemBase (tidF t) (tidC t) + 0xE600 + tidT t * 16 + 16 ≤ a →
    u.sram a = s.sram a
  count : u.reg (Reg.CORE_FAULT_CNT (tidF t) (tidC t)) = satFld (s.reg (Reg.CORE_FAULT_CNT (tidF t) (tidC t))) 31 0 1
  last : u.reg (Reg.CORE_FAULT_LAST0 (tidF t) (tidC t)) =
    wd (2 ^ 31 + (if (s.thr t).bank then 2 ^ 30 else 0) + tidT t * 2 ^ 24 + c.code * 2 ^ 16 + (s.thr t).pc.toNat)
  where_ : u.reg (Reg.CORE_FAULT_LAST1 (tidF t) (tidC t)) = if c = .access then addr else 0
  regs : ∀ o, o ≠ Reg.CORE_FAULT_CNT (tidF t) (tidC t) → o ≠ Reg.CORE_FAULT_LAST0 (tidF t) (tidC t) →
    o ≠ Reg.CORE_FAULT_LAST1 (tidF t) (tidC t) → u.reg o = s.reg o
  thread : u.thr t = { s.thr t with
    faults := (s.thr t).faults + 1
    faultFrame := some (s.thr t).record
    pc := s.vector t 0
    loops := []
    repc := 0
    repact := false
    slots := (u.thr t).slots
    skipBp := false
    halted := (s.thr t).stepping
    stepping := false
    haltReason := (u.thr t).haltReason
    haltHost := (u.thr t).haltHost }

/-- Command c answers a next state in which thread t has taken FAULT with the given cause and address. -/
def Faults (i : Instr) (s : State) (t : Tid) (c : Cause) (addr : Word) : Prop :=
  ∃ u, exec i s = .next u ∧ Faulted s u t c addr

/-- The slots a load at an address may cost (Table 04-1): 1 in D-RAM, 3 to 12 in common memory, else 2. -/
def loadSlots (ea : Word) (n : Nat) : Prop :=
  match viewRange ea.toNat with
  | some .dmem => n = 1
  | some .common => 3 ≤ n ∧ n ≤ 12
  | _ => n = 2


/-- Command c answers a next state with property P. -/
def Gives (c : Instr) (s : State) (P : State → Prop) : Prop := ∃ u, exec c s = .next u ∧ P u

/-- Command c answers a next state in which thread t, its operands popped, waits with w behind an instruction of `len` halfwords. -/
def Waits (c : Instr) (s : State) (t : Tid) (len need : Nat) (w : Wait) : Prop :=
  ∃ u, exec c s = .next u ∧ (u.thr t).run = .waiting w ∧ (u.thr t).popped = (s.thr t).stack.take need ∧
    (u.thr t).stack = (s.thr t).stack.drop need ∧ (u.thr t).waitLen = len ∧ (u.thr t).pc = (s.thr t).pc ∧ u.mem = s.mem ∧
    ∀ v : Tid, v ≠ t → u.thr v = s.thr v

/-- Command c answers a next state u that is base b after an instruction of thread t that goes on in sequence with stack `stk`. -/
def RetiresFrom (c : Instr) (s b : State) (t : Tid) (len cost : Nat) (stk : List Word) : Prop :=
  ∃ u, exec c s = .next u ∧ Retired b u t len cost stk (s.thr t).locals

/-- Command c is a load of k bytes at `ea` that retires with operand stack `stk`, for a cost that Table 04-1 allows; of the rest only a late-error
record that it touches counts as read. -/
def Loads (c : Instr) (s : State) (t : Tid) (f : Form) (ea : Word) (k : Nat) (stk : List Word) : Prop :=
  ∃ n, loadSlots ea n ∧ RetiresFrom c s (s.noteLate t ea.toNat k) t (formLen f) n stk

/-- Of a thread, what the instructions for spores, queues, buffers, locks, channels and tasks leave alone. -/
structure Kept (a b : Thread) : Prop where
  role : b.role = a.role
  pinned : b.pinned = a.pinned
  bank : b.bank = a.bank
  locals : b.locals = a.locals
  callDepth : b.callDepth = a.callDepth
  evbase : b.evbase = a.evbase
  evmask : b.evmask = a.evmask
  handler : b.handler = a.handler
  frame : b.frame = a.frame
  faultFrame : b.faultFrame = a.faultFrame
  budget : b.budget = a.budget
  timer : b.timer = a.timer
  epoch : b.epoch = a.epoch

/-- Thread b is thread a gone on in sequence behind an instruction of `len` halfwords (or repeating it). -/
structure GoneOn (a b : Thread) (len : Nat) : Prop where
  run : b.run = .running
  pc : b.pc = (a.advance len).pc
  loops : b.loops = (a.advance len).loops
  held : b.held = (a.advance len).held
  repc : b.repc = (a.advance len).repc
  repact : b.repact = (a.advance len).repact
  halted : b.halted = a.stepping

/-- Command c answers a next state u with property P in which thread t has gone on in sequence behind its instruction of `len` halfwords, for
`cost` slots and those of a loop body that it closes, with operand stack `stk`, and with what is not the instruction's own left alone. -/
def Answers (c : Instr) (s : State) (t : Tid) (len cost : Nat) (stk : List Word) (P : State → Prop) : Prop :=
  ∃ u, exec c s = .next u ∧ (u.thr t).stack = stk ∧ GoneOn (s.thr t) (u.thr t) len ∧ Kept (s.thr t) (u.thr t) ∧
    Took s u t (cost + (s.thr t).stepCost len) ∧ P u

/-- Threads other than t stand as they stood. -/
def OthersKept (s u : State) (t : Tid) : Prop := ∀ v : Tid, v ≠ t → u.thr v = s.thr v

/-- From v to u nothing moved but the register at offset o, which reads w. -/
structure OnlyReg (v u : State) (o : Nat) (w : Word) : Prop where
  machine : u = { v with regs := u.regs }
  value : u.reg o = w
  others : ∀ k, k ≠ o → u.reg k = v.reg k

/-- From v to u nothing moved in the memories, the threads, the fronds, the tables and the host interface. -/
structure CoresKept (v u : State) : Prop where
  mem : u.mem = v.mem
  dram : u.dram = v.dram
  threads : u.threads = v.threads
  fronds : u.fronds = v.fronds
  tbl : u.tbl = v.tbl
  host : u.host = v.host

/-- From v to u port p moved, to x, and no other port. -/
structure OnlyPort (v u : State) (p : Nat) (x : Port) : Prop where
  port : u.port p = x
  others : ∀ q, q ≠ p → u.port q = v.port q

/-- From v to u record i of kind k took the words ws from word 0 on, and no other record word moved. -/
structure Recorded (v u : State) (k : RecKind) (i : Nat) (ws : List Word) : Prop where
  words : ∀ j < ws.length, u.recW k i j = nth 0 ws j
  others : ∀ (k' : RecKind) (i' j : Nat), i' < 2 ^ 20 → j < 64 → (k' ≠ k ∨ i' ≠ i ∨ ws.length ≤ j) → u.recW k' i' j = v.recW k' i' j

/-- From v to u a window whose n data registers begin at `base` committed the words ws (none for a refused commit) to record i of kind k: its
staged words are gone, status register `stat` reads `code`, and nothing else moved. -/
structure Committed (v u : State) (k : RecKind) (i : Nat) (ws : List Word) (base n stat : Nat) (code : Word) : Prop where
  machine : u = { v with
    recs := u.recs
    regs := u.regs
    stage := u.stage }
  record : Recorded v u k i ws
  status : u.reg stat = code
  regs : ∀ o, o ≠ stat → u.reg o = v.reg o
  staged : ∀ o, u.staged? o = if base ≤ o ∧ o < base + 4 * n then none else v.staged? o

/-- From v to u only a host protocol violation was recorded (R441): counted, and queued while fewer than 16 wait. -/
structure Violated (v u : State) (cause : Byte) (addr value : Word) : Prop where
  machine : u = { v with
    regs := u.regs
    host := u.host }
  count : u.reg Reg.BLK_VIOL_CNT = satFld (v.reg Reg.BLK_VIOL_CNT) 31 0 1
  regs : ∀ o, o ≠ Reg.BLK_VIOL_CNT → u.reg o = v.reg o
  host : u.host = { v.host with viol := if v.host.viol.length < 16 then v.host.viol ++ [⟨cause.toNat, addr, value⟩] else v.host.viol }

/-- From v to u a write was turned away and logged, under a cause that the spec does not name: a free value. -/
def Refused (v u : State) (addr value : Word) : Prop :=
  ∃ cause : Byte, Violated { v with draws := u.draws } u cause addr value

end Sys2Proof.Machine
end

