-- ==== Sys2Proof/Certificates/Slice0/Obligations.lean ====
section
/-! DEFINITION. The statements of the model for the provers, family by family in the order of the opcode table. -/

open Sys2Proof Sys2Proof.Machine

/-! ### Opvis: results on the operand stack -/

/-- The stack, constant and local instructions on a ready thread (R49, R52, R81): each retires with the stack its effect gives, for every
operand its encoding admits, and changes nothing else. -/
def Obligations.StackResults : Prop :=
  ∀ (s : State) (t : Tid) (x y z : Word) (r : List Word), s.Ready t →
    ((s.thr t).stack = x :: r → r.length < 15 → Retires (.dup t 0) s t 1 1 (x :: x :: r) (s.thr t).locals) ∧
    ((s.thr t).stack = x :: r → r.length < 16 → Retires (.drop t 0) s t 1 1 r (s.thr t).locals) ∧
    ((s.thr t).stack = y :: x :: r → r.length < 15 → Retires (.swap t 0) s t 1 1 (x :: y :: r) (s.thr t).locals) ∧
    ((s.thr t).stack = y :: x :: r → r.length < 14 → Retires (.over t 0) s t 1 1 (x :: y :: x :: r) (s.thr t).locals) ∧
    ((s.thr t).stack = z :: y :: x :: r → r.length < 14 → Retires (.rot t 0) s t 1 1 (x :: z :: y :: r) (s.thr t).locals) ∧
    ((s.thr t).stack = y :: x :: r → r.length < 15 → Retires (.nip t 0) s t 1 1 (y :: r) (s.thr t).locals) ∧
    (∀ k : Fin 16, ∀ e, (s.thr t).stack[k.val]? = some e → (s.thr t).stack.length < 16 →
      Retires (.pick t (BitVec.ofNat 8 k.val)) s t 1 1 (e :: (s.thr t).stack) (s.thr t).locals) ∧
    (∀ a : Byte, (s.thr t).stack.length < 16 →
      Retires (.lit8 t a) s t 1 1 (BitVec.ofInt 32 a.toInt :: (s.thr t).stack) (s.thr t).locals) ∧
    (∀ h : Half, (s.thr t).stack.length < 16 →
      Retires (.lit16 t 0 h) s t 2 1 (BitVec.ofNat 32 h.toNat :: (s.thr t).stack) (s.thr t).locals) ∧
    (∀ h : Half, (s.thr t).stack = x :: r → r.length < 16 →
      Retires (.lith t 0 h) s t 2 1 (BitVec.ofNat 32 (h.toNat * 65536 + x.toNat % 65536) :: r) (s.thr t).locals) ∧
    (∀ n : Fin 16, (s.thr t).stack.length < 16 →
      Retires (.ldl t (BitVec.ofNat 8 n.val)) s t 1 1 ((s.thr t).locals[n] :: (s.thr t).stack) (s.thr t).locals) ∧
    (∀ n : Fin 16, (s.thr t).stack = x :: r → r.length < 16 →
      Retires (.stl t (BitVec.ofNat 8 n.val)) s t 1 1 r ((s.thr t).locals.set n x)) ∧
    (∀ (n : Fin 16) (v : BitVec 4), Retires (.incl t (.short (v ++ BitVec.ofNat 4 n.val))) s t 1 1 (s.thr t).stack
      ((s.thr t).locals.set n ((s.thr t).locals[n] + BitVec.ofInt 32 v.toInt))) ∧
    (∀ (n : Fin 16) (h : Half), Retires (.incl t (.long (BitVec.ofNat 8 n.val) h)) s t 2 1 (s.thr t).stack
      ((s.thr t).locals.set n ((s.thr t).locals[n] + BitVec.ofInt 32 h.toInt)))

/-- The 32-bit arithmetic, logic, shift and compare instructions (R51, R82, R83), in the arithmetic of the integers. -/
def Obligations.ArithmeticResults : Prop :=
  ∀ (s : State) (t : Tid) (x y z : Word) (r : List Word), s.Ready t →
    ((s.thr t).stack = x :: r → r.length < 16 →
      Retires (.neg t 0) s t 1 1 (BitVec.ofInt 32 (-x.toInt) :: r) (s.thr t).locals ∧
      Retires (.abs t 0) s t 1 1 (BitVec.ofNat 32 x.toInt.natAbs :: r) (s.thr t).locals ∧
      Retires (.not t 0) s t 1 1 (BitVec.ofNat 32 (2 ^ 32 - 1 - x.toNat) :: r) (s.thr t).locals ∧
      Retires (.popc t 0) s t 1 1 (BitVec.ofNat 32 ((List.range 32).countP x.getLsbD) :: r) (s.thr t).locals ∧
      Retires (.clz t 0) s t 1 1 (BitVec.ofNat 32 (if x = 0 then 32 else 31 - Nat.log2 x.toNat) :: r) (s.thr t).locals ∧
      Retires (.bswap t 0) s t 1 1
        ((x.extractLsb' 0 8 ++ x.extractLsb' 8 8 ++ x.extractLsb' 16 8 ++ x.extractLsb' 24 8) :: r) (s.thr t).locals) ∧
    ((s.thr t).stack = y :: x :: r → r.length < 15 →
      Retires (.add t 0) s t 1 1 (BitVec.ofNat 32 (x.toNat + y.toNat) :: r) (s.thr t).locals ∧
      Retires (.sub t 0) s t 1 1 (BitVec.ofInt 32 (x.toInt - y.toInt) :: r) (s.thr t).locals ∧
      Retires (.mul t 0) s t 1 1 (BitVec.ofNat 32 (x.toNat * y.toNat) :: r) (s.thr t).locals ∧
      Retires (.mulh t 0) s t 1 1 (BitVec.ofInt 32 (x.toInt * y.toInt / 2 ^ 32) :: r) (s.thr t).locals ∧
      Retires (.mulhu t 0) s t 1 1 (BitVec.ofNat 32 (x.toNat * y.toNat / 2 ^ 32) :: r) (s.thr t).locals ∧
      Retires (.min t 0) s t 1 1 (BitVec.ofInt 32 (min x.toInt y.toInt) :: r) (s.thr t).locals ∧
      Retires (.max t 0) s t 1 1 (BitVec.ofInt 32 (max x.toInt y.toInt) :: r) (s.thr t).locals ∧
      Retires (.minu t 0) s t 1 1 (BitVec.ofNat 32 (min x.toNat y.toNat) :: r) (s.thr t).locals ∧
      Retires (.maxu t 0) s t 1 1 (BitVec.ofNat 32 (max x.toNat y.toNat) :: r) (s.thr t).locals ∧
      Retires (.and t 0) s t 1 1 ((x &&& y) :: r) (s.thr t).locals ∧
      Retires (.or t 0) s t 1 1 ((x ||| y) :: r) (s.thr t).locals ∧
      Retires (.xor t 0) s t 1 1 ((x ^^^ y) :: r) (s.thr t).locals ∧
      Retires (.shl t 0) s t 1 1 ((if y.toNat < 32 then BitVec.ofNat 32 (x.toNat * 2 ^ y.toNat) else 0) :: r) (s.thr t).locals ∧
      Retires (.shr t 0) s t 1 1 ((if y.toNat < 32 then BitVec.ofNat 32 (x.toNat / 2 ^ y.toNat) else 0) :: r) (s.thr t).locals ∧
      Retires (.sar t 0) s t 1 1
        ((if y.toNat < 32 then BitVec.ofInt 32 (x.toInt / 2 ^ y.toNat) else BitVec.ofInt 32 (if x.toInt < 0 then -1 else 0)) :: r)
        (s.thr t).locals ∧
      Retires (.rol t 0) s t 1 1 ((x <<< (y.toNat % 32) ||| x >>> (32 - y.toNat % 32)) :: r) (s.thr t).locals ∧
      Retires (.eq t 0) s t 1 1 ((if x = y then 1 else 0) :: r) (s.thr t).locals ∧
      Retires (.ne t 0) s t 1 1 ((if x = y then 0 else 1) :: r) (s.thr t).locals ∧
      Retires (.lt t 0) s t 1 1 ((if x.toInt < y.toInt then 1 else 0) :: r) (s.thr t).locals ∧
      Retires (.ltu t 0) s t 1 1 ((if x.toNat < y.toNat then 1 else 0) :: r) (s.thr t).locals ∧
      Retires (.le t 0) s t 1 1 ((if x.toInt ≤ y.toInt then 1 else 0) :: r) (s.thr t).locals ∧
      Retires (.leu t 0) s t 1 1 ((if x.toNat ≤ y.toNat then 1 else 0) :: r) (s.thr t).locals) ∧
    ((s.thr t).stack = z :: y :: x :: r → r.length < 14 →
      Retires (.inrange t 0) s t 1 1 ((if y.toNat ≤ x.toNat ∧ x.toNat ≤ z.toNat then 1 else 0) :: r) (s.thr t).locals)

/-- EXTR and INSR bit by bit (R72, R83): position p and width w with 1 ≤ w and p + w ≤ 32.
The 64-bit instructions on pairs whose high word lies on top (R50, R84). -/
def Obligations.BitFieldResults : Prop :=
  (∀ (s : State) (t : Tid) (x v : Word) (r : List Word) (p w : Nat), s.Ready t → 1 ≤ w → p + w ≤ 32 →
    ((s.thr t).stack = x :: r → r.length < 16 →
      ∃ q : Word, Retires (.extr t (BitVec.ofNat 8 p) (BitVec.ofNat 16 w)) s t 2 1 (q :: r) (s.thr t).locals ∧
        ∀ i < 32, q.getLsbD i = (decide (i < w) && x.getLsbD (p + i))) ∧
    ((s.thr t).stack = v :: x :: r → r.length < 15 →
      ∃ q : Word, Retires (.insr t (BitVec.ofNat 8 p) (BitVec.ofNat 16 w)) s t 2 1 (q :: r) (s.thr t).locals ∧
        ∀ i < 32, q.getLsbD i = if p ≤ i ∧ i < p + w then v.getLsbD (i - p) else x.getLsbD i)) ∧
  (∀ (s : State) (t : Tid) (l1 h1 l2 h2 n : Word) (r : List Word), s.Ready t →
    ((s.thr t).stack = h2 :: l2 :: h1 :: l1 :: r → r.length < 13 →
      (∃ hi lo, Retires (.dadd t 0) s t 1 1 (hi :: lo :: r) (s.thr t).locals ∧
        (hi ++ lo : DWord).toNat = ((h1 ++ l1 : DWord).toNat + (h2 ++ l2 : DWord).toNat) % 2 ^ 64) ∧
      (∃ hi lo, Retires (.dsub t 0) s t 1 1 (hi :: lo :: r) (s.thr t).locals ∧
        ((hi ++ lo : DWord).toNat + (h2 ++ l2 : DWord).toNat) % 2 ^ 64 = (h1 ++ l1 : DWord).toNat) ∧
      Retires (.deq t 0) s t 1 1 ((if l1 = l2 ∧ h1 = h2 then 1 else 0) :: r) (s.thr t).locals ∧
      Retires (.dltu t 0) s t 1 1 ((if (h1 ++ l1 : DWord).toNat < (h2 ++ l2 : DWord).toNat then 1 else 0) :: r) (s.thr t).locals) ∧
    ((s.thr t).stack = n :: h1 :: l1 :: r → r.length < 14 →
      (∃ hi lo, Retires (.dshl t 0) s t 1 1 (hi :: lo :: r) (s.thr t).locals ∧
        (hi ++ lo : DWord).toNat = if n.toNat < 64 then (h1 ++ l1 : DWord).toNat * 2 ^ n.toNat % 2 ^ 64 else 0) ∧
      (∃ hi lo, Retires (.dshr t 0) s t 1 1 (hi :: lo :: r) (s.thr t).locals ∧
        (hi ++ lo : DWord).toNat = if n.toNat < 64 then (h1 ++ l1 : DWord).toNat / 2 ^ n.toNat else 0)))

/-! ### Opvis: FAULT -/

/-- A stack access outside 0 to 16 entries takes FAULT with STACK_UNDER or STACK_OVER and pops or pushes nothing (R49, R134).
A FAULT while the FAULT handler runs is a double fault (R134): it is counted and the thread is reset, and stands without a handler, its
store buffer, stack and events empty, its epoch advanced by 1. -/
def Obligations.StackFaults : Prop :=
  (∀ (s : State) (t : Tid) (f : Form) (n : Fin 16) (k : Fin 64) (p w : Fin 32) (a : Byte) (x : Half), s.Ready t → (s.thr t).faultFrame = none →
    formLegal f = true → p.val + w.val + 1 ≤ 32 →
    let b := BitVec.ofNat 8 n.val
    let pos := BitVec.ofNat 8 p.val
    let width := BitVec.ofNat 16 (w.val + 1)
    ((s.thr t).stack = [] → ∀ i ∈ ([.dup t 0, .drop t 0, .stl t b, .neg t 0, .abs t 0, .not t 0, .popc t 0, .clz t 0, .bswap t 0,
        .lith t 0 x, .extr t pos width, .ldb t f, .ldbs t f, .ldh t f, .ldhs t f, .ldw t f, .ldd t f, .bz t f, .bnz t f, .fwd t 0, .fwdm t 0,
        .toslow t 0, .mirr t 0, .cqw t 0, .cqp t 0, .bfree t (BitVec.ofNat 8 k.val), .lock t 0, .trylock t 0, .unlock t 0, .chw t b,
        .chs t 0, .tready t 0, .wrsr t 3] : List Instr), Faults i s t .stackUnder 0) ∧
    ((s.thr t).stack.length ≤ n.val → Faults (.pick t b) s t .stackUnder 0) ∧
    ((s.thr t).stack.length < 2 → ∀ i ∈ ([.swap t 0, .over t 0, .nip t 0, .add t 0, .sub t 0, .mul t 0, .mulh t 0, .mulhu t 0, .min t 0,
        .max t 0, .minu t 0, .maxu t 0, .and t 0, .or t 0, .xor t 0, .shl t 0, .shr t 0, .sar t 0, .rol t 0, .eq t 0, .ne t 0, .lt t 0,
        .ltu t 0, .le t 0, .leu t 0, .insr t pos width, .stb t f, .sth t f, .stw t f, .xadd t f, .cqs t 0, .chr t f, .wrsr t 14] :
        List Instr), Faults i s t .stackUnder 0) ∧
    ((s.thr t).stack.length < 3 → ∀ i ∈ ([.rot t 0, .inrange t 0, .dshl t 0, .dshr t 0, .std t f, .cas t f, .emit t 0] : List Instr),
      Faults i s t .stackUnder 0) ∧
    ((s.thr t).stack.length < 4 → ∀ i ∈ ([.dadd t 0, .dsub t 0, .deq t 0, .dltu t 0] : List Instr), Faults i s t .stackUnder 0) ∧
    ((s.thr t).stack.length = 16 → ∀ i ∈ ([.dup t 0, .over t 0, .pick t b, .lit8 t a, .lit16 t 0 x, .ldl t b, .ldd t f, .droppkt t 0,
        .rdsr t 0] : List Instr), Faults i s t .stackOver 0) ∧
    (15 ≤ (s.thr t).stack.length → (s.thr t).stack.length ≤ 16 → ∀ i ∈ ([.balloc t (BitVec.ofNat 8 k.val), .time64 t 0, .tickno t 0,
        .rdsr t 13, .rdsr t 14] : List Instr), Faults i s t .stackOver 0) ∧
    ((s.thr t).stack.length = 16 → (s.thr t).endsRun x = false → Faults (.wait t 0 x) s t .stackOver 0) ∧
    ((s.thr t).stack.length = 16 → (s.thr t).mayswitch false = true → (s.thr t).task.isSome = true → Faults (.tsleep t 0) s t .stackOver 0)) ∧
  (∀ (s : State) (t : Tid) (fr : HFrame), s.Ready t → (s.thr t).faultFrame = some fr → (s.thr t).stack = [] →
    (s.thr t).cur = none → (s.thr t).spore0 = none → (s.thr t).spore1 = none → (s.thr t).task = none →
    ∃ u, exec (.add t 0) s = .next u ∧ (u.thr t).faultFrame = none ∧ (u.thr t).stack = [] ∧ (u.thr t).epoch = (s.thr t).epoch + 1 ∧
      (u.thr t).storeBuf = [] ∧ (u.thr t).evpend = 0)

/-- A reserved encoding takes FAULT with cause ILLEGAL: a field A that must be 0, a local, pool or staging number of 16 or 64 and more, a bit
field outside its word (R72, R134, Table 03-10). -/
def Obligations.IllegalFaults : Prop :=
  ∀ (s : State) (t : Tid) (a : Byte) (x : Half), s.Ready t → (s.thr t).faultFrame = none →
    (a ≠ 0 → ∀ i ∈ ([.dup t a, .drop t a, .swap t a, .over t a, .rot t a, .nip t a, .lit16 t a x, .lith t a x, .add t a, .sub t a,
        .mul t a, .mulh t a, .mulhu t a, .neg t a, .abs t a, .min t a, .max t a, .minu t a, .maxu t a, .and t a, .or t a, .xor t a, .not t a,
        .shl t a, .shr t a, .sar t a, .rol t a, .popc t a, .clz t a, .bswap t a, .eq t a, .ne t a, .lt t a, .ltu t a, .le t a, .leu t a,
        .inrange t a, .dadd t a, .dsub t a, .deq t a, .dltu t a, .dshl t a, .dshr t a, .ldb t (.long a x), .ldbs t (.long a x),
        .ldh t (.long a x), .ldhs t (.long a x), .ldw t (.long a x), .ldd t (.long a x), .stb t (.long a x), .sth t (.long a x),
        .stw t (.long a x), .std t (.long a x), .xadd t (.long a x), .cas t (.long a x), .br t (.long a x), .bz t (.long a x),
        .bnz t (.long a x), .ret t a, .evret t a, .yield t a, .wait t a x, .droppkt t a, .toslow t a, .cqs t a, .cqw t a, .cqp t a,
        .lock t a, .trylock t a, .unlock t a, .chs t a, .chr t (.long a x), .tready t a, .tyield t a, .tsleep t a, .fence t a, .time64 t a,
        .tickno t a] : List Instr), Faults i s t .illegal 0) ∧
    (2 ≤ a.toNat → ∀ i ∈ ([.fwd t a, .fwdm t a, .mirr t a, .emit t a] : List Instr), Faults i s t .illegal 0) ∧
    (16 ≤ a.toNat → ∀ i ∈ ([.pick t a, .ldl t a, .stl t a, .incl t (.long a x), .repl t a, .chw t a] : List Instr),
      Faults i s t .illegal 0) ∧
    (64 ≤ a.toNat → ∀ i ∈ ([.balloc t a, .bfree t a] : List Instr), Faults i s t .illegal 0) ∧
    (x.toNat = 0 ∨ 32 < a.toNat + x.toNat → ∀ i ∈ ([.extr t a x, .insr t a x] : List Instr), Faults i s t .illegal 0) ∧
    (0x0E < a.toNat → ∀ i ∈ ([.rdsr t a, .wrsr t a] : List Instr), Faults i s t .illegal 0)

/-! ### Opvis: memory -/

/-- The loads (R59, R85, R125, Table 04-6): with an empty store buffer and no watchpoint armed, each retires with the bytes that stand at the
address, extended to its kind.
A load that meets the youngest overlapping store-buffer entry takes its bytes when the entry covers it, and otherwise waits until the
entry has left (R125). -/
def Obligations.LoadResults : Prop :=
  (∀ (s : State) (t : Tid) (f : Form) (x : Word) (r : List Word), s.Ready t → (s.thr t).stack = x :: r → r.length < 15 →
    formLegal f = true → (s.thr t).storeBuf = [] → (s.thr t).tctl.testBit 2 = false →
    let ea (n : Nat) : Word := x + formDisp f n
    let v (n : Nat) : Nat := leNat (s.viewRead t (ea n) n)
    (accessFail t false (ea 1) 1 = none →
      Loads (.ldb t f) s t f (ea 1) 1 (BitVec.ofNat 32 (v 1) :: r) ∧
      Loads (.ldbs t f) s t f (ea 1) 1 (BitVec.ofInt 32 (BitVec.ofNat 8 (v 1)).toInt :: r)) ∧
    (accessFail t false (ea 2) 2 = none →
      Loads (.ldh t f) s t f (ea 2) 2 (BitVec.ofNat 32 (v 2) :: r) ∧
      Loads (.ldhs t f) s t f (ea 2) 2 (BitVec.ofInt 32 (BitVec.ofNat 16 (v 2)).toInt :: r)) ∧
    (accessFail t false (ea 4) 4 = none → Loads (.ldw t f) s t f (ea 4) 4 (BitVec.ofNat 32 (v 4) :: r)) ∧
    (accessFail t false (ea 8) 8 = none →
      Loads (.ldd t f) s t f (ea 8) 8 (BitVec.ofNat 32 (v 8 / 2 ^ 32) :: BitVec.ofNat 32 (v 8) :: r))) ∧
  (∀ (s : State) (t : Tid) (f : Form) (x : Word) (r : List Word) (e : StoreEntry), s.Ready t → (s.thr t).stack = x :: r →
    r.length < 16 → formLegal f = true → (s.thr t).tctl.testBit 2 = false → accessFail t false (x + formDisp f 4) 4 = none →
    let ea := x + formDisp f 4
    let dev := viewDev t ea.toNat
    youngest (s.thr t).storeBuf dev 4 = some e →
    (e.covers dev 4 = true →
      Loads (.ldw t f) s t f ea 4 (BitVec.ofNat 32 (leNat ((e.bytes.drop (dev - e.dev)).take 4)) :: r)) ∧
    (e.covers dev 4 = false → Waits (.ldw t f) s t (formLen f) 1 (.mem (.clear dev 4) (.load .w ea))))

/-- The stores (R85, R123, R124): a store to own D-RAM with an empty buffer writes exactly its bytes, least significant first; a store to frond
shared or common memory becomes the youngest of at most 4 buffer entries and leaves memory alone; on a full buffer it waits. -/
def Obligations.StoreResults : Prop :=
  ∀ (s : State) (t : Tid) (f : Form) (a x y : Word) (r : List Word), s.Ready t → formLegal f = true →
    (s.thr t).tctl.testBit 2 = false → (s.thr t).stack.length ≤ 16 →
    ∀ p ∈ ([(.stb t f, 1, (s.thr t).stack = a :: x :: r), (.sth t f, 2, (s.thr t).stack = a :: x :: r),
        (.stw t f, 4, (s.thr t).stack = a :: x :: r), (.std t f, 8, (s.thr t).stack = a :: y :: x :: r)] : List (Instr × Nat × Prop)),
      p.2.2 → accessFail t true (a + formDisp f p.2.1) p.2.1 = none →
      let ea := a + formDisp f p.2.1
      let dev := viewDev t ea.toNat
      let need := if p.2.1 = 8 then 3 else 2
      let bytes := leBytes p.2.1 (if p.2.1 = 8 then x.toNat + 2 ^ 32 * y.toNat else x.toNat)
      (viewRange ea.toNat = some .dmem → (s.thr t).storeBuf = [] →
        ∃ u, exec p.1 s = .next u ∧ Retired { s with mem := u.mem } u t (formLen f) 1 r (s.thr t).locals ∧
          (∀ i < p.2.1, u.sram (dev + i) = nth 0 bytes i) ∧ ∀ b, b < dev ∨ dev + p.2.1 ≤ b → u.sram b = s.sram b) ∧
      (viewRange ea.toNat = some .shared ∨ viewRange ea.toNat = some .common →
        ((s.thr t).storeBuf.length < 4 → RetiresFrom p.1 s
          (s.modThr t (fun th => { th with
            storeBuf := th.storeBuf ++ [⟨dev, bytes, decide (viewRange ea.toNat = some .common)⟩] })) t (formLen f) 1 r) ∧
        (4 ≤ (s.thr t).storeBuf.length → Waits p.1 s t (formLen f) need (.mem .room (.store ea bytes))))

/-- XADD, CAS and FENCE with an empty buffer (R88, R89): the old word is pushed, and memory holds the sum, or the new word exactly if the old
one was as expected; no other byte changes. With entries in the buffer they drain first (R126). -/
def Obligations.AtomicResults : Prop :=
  ∀ (s : State) (t : Tid) (f : Form) (a x y : Word) (r : List Word), s.Ready t → formLegal f = true → (s.thr t).tctl.testBit 2 = false →
    r.length < 14 →
    let ea := a + formDisp f 4
    let dev := viewDev t ea.toNat
    (atomicFail t ea = none → (s.thr t).stack = a :: x :: r →
      ((s.thr t).storeBuf = [] → ∃ u n, exec (.xadd t f) s = .next u ∧
        Retired { s with mem := u.mem } u t (formLen f) n (s.word dev :: r) (s.thr t).locals ∧
        u.word dev = s.word dev + x ∧ ∀ b, b < dev ∨ dev + 4 ≤ b → u.sram b = s.sram b) ∧
      ((s.thr t).storeBuf ≠ [] → Waits (.xadd t f) s t (formLen f) 2 (.mem .drain (.xadd ea x)))) ∧
    (atomicFail t ea = none → (s.thr t).stack = a :: y :: x :: r →
      ((s.thr t).storeBuf = [] → ∃ u n, exec (.cas t f) s = .next u ∧
        Retired { s with mem := u.mem } u t (formLen f) n (s.word dev :: r) (s.thr t).locals ∧
        u.word dev = (if s.word dev = x then y else s.word dev) ∧ ∀ b, b < dev ∨ dev + 4 ≤ b → u.sram b = s.sram b) ∧
      ((s.thr t).storeBuf ≠ [] → Waits (.cas t f) s t (formLen f) 3 (.mem .drain (.cas ea x y)))) ∧
    ((s.thr t).storeBuf = [] → Retires (.fence t 0) s t 1 1 (s.thr t).stack (s.thr t).locals) ∧
    ((s.thr t).storeBuf ≠ [] → Waits (.fence t 0) s t 1 0 (.mem .drain .fence))

/-- An access outside the thread's view takes FAULT with cause ACCESS and the address of its first failing byte, and stores nothing (R56, R57,
R60, R130). -/
def Obligations.AccessFaults : Prop :=
  ∀ (s : State) (t : Tid) (f : Form) (a x y e : Word) (r : List Word), s.Ready t → (s.thr t).faultFrame = none → formLegal f = true →
    r.length < 13 →
    ((s.thr t).stack = a :: r →
      (accessFail t false (a + formDisp f 1) 1 = some e → Faults (.ldb t f) s t .access e ∧ Faults (.ldbs t f) s t .access e) ∧
      (accessFail t false (a + formDisp f 2) 2 = some e → Faults (.ldh t f) s t .access e ∧ Faults (.ldhs t f) s t .access e) ∧
      (accessFail t false (a + formDisp f 4) 4 = some e → Faults (.ldw t f) s t .access e) ∧
      (accessFail t false (a + formDisp f 8) 8 = some e → Faults (.ldd t f) s t .access e)) ∧
    ((s.thr t).stack = a :: x :: r →
      (accessFail t true (a + formDisp f 1) 1 = some e → Faults (.stb t f) s t .access e) ∧
      (accessFail t true (a + formDisp f 2) 2 = some e → Faults (.sth t f) s t .access e) ∧
      (accessFail t true (a + formDisp f 4) 4 = some e → Faults (.stw t f) s t .access e) ∧
      (atomicFail t (a + formDisp f 4) = some e → Faults (.xadd t f) s t .access e)) ∧
    ((s.thr t).stack = a :: y :: x :: r →
      (accessFail t true (a + formDisp f 8) 8 = some e → Faults (.std t f) s t .access e) ∧
      (atomicFail t (a + formDisp f 4) = some e → Faults (.cas t f) s t .access e))

/-- The store buffer's own events (R124, R126): STORE_LEAVE writes the oldest entry's bytes and no other byte and removes it; a draining
instruction proceeds at DRAIN_END only when the buffer is empty. -/
def Obligations.StoreBufferEvents : Prop :=
  ∀ (s : State) (t : Tid) (e : StoreEntry) (rest : List StoreEntry),
    ((s.thr t).storeBuf = e :: rest → (s.thr t).run = .running → 0x40000000000 ≤ e.dev →
      ∃ u, exec (.storeLeave t) s = .next u ∧ u.thr t = { s.thr t with storeBuf := rest } ∧
        (∀ i < e.bytes.length, u.sram (e.dev + i) = nth 0 e.bytes i) ∧
        (∀ b, b < e.dev ∨ e.dev + e.bytes.length ≤ b → u.sram b = s.sram b) ∧ ∀ v : Tid, v ≠ t → u.thr v = s.thr v) ∧
    ((s.thr t).storeBuf = [] → (s.thr t).run = .waiting (.mem .drain .fence) → (s.thr t).haltReq = false →
      ∃ u, exec (.drainEnd t) s = .next u ∧ (u.thr t).run = .running ∧ (u.thr t).stack = (s.thr t).stack ∧ u.mem = s.mem) ∧
    ((s.thr t).storeBuf = e :: rest → (s.thr t).run = .waiting (.mem .drain .fence) → exec (.drainEnd t) s = .next s)

/-! ### Opvis: control flow -/

/-- The branches (R73, R90): the target counts halfwords from the instruction behind the branch; a taken branch costs 3 slots and releases
the loops whose bodies it leaves (R64), the innermost first, and an untaken one goes on in sequence for 1. -/
def Obligations.BranchResults : Prop :=
  ∀ (s : State) (t : Tid) (f : Form) (x : Word) (r : List Word), s.Ready t → formLegal f = true → r.length < 16 →
    let here := (s.thr t).pc.toNat
    let target : Nat := ((here + formLen f + formOffset f : Int) % 8192).toNat
    let leaves (l : Loop) : Bool := decide (l.start.toNat ≤ here ∧ here < l.stop ∧ l.stop ≤ target)
    let goes (c : Instr) (stk : List Word) : Prop := ∃ u, exec c s = .next u ∧ Left s u t 3 stk (s.thr t).locals ∧
      (u.thr t).pc = BitVec.ofNat 13 target ∧ (u.thr t).loops = (s.thr t).loops.dropWhile leaves ∧ (u.thr t).held = (s.thr t).held ∧
      (u.thr t).repc = (s.thr t).repc ∧ (u.thr t).repact = (s.thr t).repact
    goes (.br t f) (s.thr t).stack ∧
    ((s.thr t).stack = x :: r → x = 0 → goes (.bz t f) r ∧ Retires (.bnz t f) s t (formLen f) 1 r (s.thr t).locals) ∧
    ((s.thr t).stack = x :: r → x ≠ 0 → goes (.bnz t f) r ∧ Retires (.bz t f) s t (formLen f) 1 r (s.thr t).locals)

/-- CALL (R53, R55): the return address and the mask stand in the call record of the thread's depth with the masked locals, the depth advances,
and the thread stands at the procedure, for 3 slots and one for every two locals (R118); a ninth level takes FAULT with CALL_DEPTH.
RET (R54): the thread goes on at the return address of the record of the depth it returns to, with the locals that the record's mask names
read back and the others kept, for 3 slots, one for every two locals, and what a loop body that ends there costs (R118). -/
def Obligations.CallResults : Prop :=
  (∀ (s : State) (t : Tid) (a : Byte) (m : Half), s.Ready t →
    (∀ p : Pc, (s.thr t).callDepth < 8 → s.procEntry t a.toNat = some p →
      let r := callRecord t (s.thr t).callDepth
      ∃ u, exec (.call t a m) s = .next u ∧ (u.thr t).pc = p ∧ (u.thr t).callDepth = (s.thr t).callDepth + 1 ∧
        (u.thr t).stack = (s.thr t).stack ∧ (u.thr t).locals = (s.thr t).locals ∧ (u.thr t).loops = (s.thr t).loops ∧
        Took s u t (3 + ((List.range 16).countP m.getLsbD + 1) / 2) ∧
        u.word r = BitVec.ofNat 32 (((s.thr t).pc.toNat + 2) % 8192 + m.toNat * 65536) ∧
        (∀ i : Fin 16, m.getLsbD i.val = true → u.word (r + 4 + 4 * i.val) = (s.thr t).locals[i]) ∧
        (∀ b, b < r ∨ r + 72 ≤ b → u.sram b = s.sram b) ∧ ∀ v : Tid, v ≠ t → u.thr v = s.thr v) ∧
    (8 ≤ (s.thr t).callDepth → (s.thr t).faultFrame = none → Faults (.call t a m) s t .callDepth 0) ∧
    ((s.thr t).callDepth = 0 → (s.thr t).faultFrame = none → Faults (.ret t 0) s t .callDepth 0)) ∧
  (∀ (s : State) (t : Tid) (d : Nat), s.Ready t → (s.thr t).callDepth = d + 1 →
    let r := callRecord t d
    let w := s.word r
    ∃ u, exec (.ret t 0) s = .next u ∧ (u.thr t).pc = ((s.thr t).goSeq (w.toNat % 8192)).pc ∧ (u.thr t).callDepth = d ∧
      (u.thr t).loops = ((s.thr t).goSeq (w.toNat % 8192)).loops ∧
      Took s u t (3 + ((List.range 16).countP (fun i => w.getLsbD (16 + i)) + 1) / 2 + (s.thr t).seqCost (w.toNat % 8192)) ∧
      (u.thr t).stack = (s.thr t).stack ∧ u.mem = s.mem ∧
      (∀ i : Fin 16, (u.thr t).locals[i] = if w.getLsbD (16 + i.val) then s.word (r + 4 + 4 * i.val) else (s.thr t).locals[i]) ∧
      ∀ v : Tid, v ≠ t → u.thr v = s.thr v)

/-- LOOP and LOOPL (R62, R63): a new innermost level whose count is one less than its iterations, its body in the loop buffer where it has at
most 32 halfwords and no loop around it is held (R119, R120); LOOPL of 0 skips the body for 3 slots and starts none; both levels taken is
FAULT ILLEGAL. -/
def Obligations.LoopResults : Prop :=
  ∀ (s : State) (t : Tid) (a : Byte) (x : Half), s.Ready t → (s.thr t).repact = false →
    let start := (s.thr t).pc.toNat + 2
    let v := ((s.thr t).local_ (x.toNat / 4096)).toNat
    let begins (c : Instr) (n : Nat) : Prop := ∃ u, exec c s = .next u ∧ Left s u t 1 (s.thr t).stack (s.thr t).locals ∧
      (u.thr t).pc = BitVec.ofNat 13 start ∧ (u.thr t).loops = ⟨n - 1, BitVec.ofNat 13 start, start + (a.toNat + 1)⟩ :: (s.thr t).loops ∧
      (start < 8192 → (u.thr t).held = if a.toNat < 32 ∧ holdsOne (s.thr t).held (s.thr t).loops = false
        then some ⟨BitVec.ofNat 13 start, start + (a.toNat + 1), false⟩ else (s.thr t).held)
    ((s.thr t).loops.length < 2 → x.toNat < 4096 → begins (.loop t a x) (x.toNat + 1)) ∧
    ((s.thr t).loops.length < 2 → v ≠ 0 → begins (.loopl t a x) (min v (x.toNat % 4096 + 1))) ∧
    (v = 0 → ∃ u, exec (.loopl t a x) s = .next u ∧ Left s u t 3 (s.thr t).stack (s.thr t).locals ∧
      (u.thr t).pc = ((s.thr t).goSeq (start + (a.toNat + 1))).pc ∧ (u.thr t).loops = ((s.thr t).goSeq (start + (a.toNat + 1))).loops) ∧
    (2 ≤ (s.thr t).loops.length → (s.thr t).faultFrame = none → Faults (.loop t a x) s t .illegal 0) ∧
    (2 ≤ (s.thr t).loops.length → (s.thr t).faultFrame = none → v ≠ 0 → Faults (.loopl t a x) s t .illegal 0)

/-- REP and REPL (R67 to R70): the next instruction executes the given number of times: the prefix sets REPC, every execution but the last leaves
the thread at the instruction with REPC one less, a count of 0 skips it, and a prefix before an instruction that is not
repeatable takes FAULT REP_MISUSE.
The end of a loop body (R62): with iterations left the thread goes back to the start with one less, and with none the level ends; an
instruction inside the body changes neither. Going back costs 2 slots from I-RAM, where a body of more than 32 halfwords always runs, and
nothing from the loop buffer, which holds the body or one around it (R65, R118 to R120, R122). -/
def Obligations.RepeatResults : Prop :=
  (∀ (s : State) (t : Tid) (a : Byte), s.Ready t → (s.thr t).repact = false → (s.thr t).loops = [] →
    let next := s.code t ((s.thr t).pc + 1)
    let sets (c : Instr) (n : Nat) : Prop := ∃ u, exec c s = .next u ∧ Left s u t 1 (s.thr t).stack (s.thr t).locals ∧
      (u.thr t).pc = (s.thr t).pc + 1 ∧ (u.thr t).repact = true ∧ (u.thr t).repc = n
    (repeatable next = true → sets (.rep t a) (a.toNat + 1)) ∧
    (repeatable next = true → ∀ k : Fin 16, sets (.repl t (BitVec.ofNat 8 k.val)) (min 255 (s.thr t).locals[k].toNat)) ∧
    (repeatable next = false → (s.thr t).faultFrame = none → Faults (.rep t a) s t .repMisuse 0) ∧
    (∀ (th : Thread) (n len : Nat), th.repact = true → th.repc = n + 2 →
      th.advance len = { th with repc := n + 1 }) ∧
    (∀ (th : Thread) (len : Nat), th.repact = true → th.repc = 1 → th.loops = [] →
      (th.advance len).repact = false ∧ (th.advance len).pc = BitVec.ofNat 13 (th.pc.toNat + len)) ∧
    (∀ v : State, v.canIssue t = true → v.breakHere t = false → (v.thr t).repact = true → (v.thr t).repc = 0 →
      ∃ u, exec (.add t 0) v = .next u ∧ (u.thr t).stack = (v.thr t).stack ∧ (u.thr t).repact = false ∧
        (u.thr t).pc = ((v.thr t).goSeq ((v.thr t).pc.toNat + 1)).pc)) ∧
  (∀ (th : Thread) (l : Loop) (rest : List Loop) (n : Nat), th.repact = false → th.loops = l :: rest →
    (th.pc.toNat + n = l.stop → l.left ≠ 0 → (th.advance n).pc = l.start ∧ (th.advance n).loops = { l with left := l.left - 1 } :: rest ∧
      th.stepCost n = if l.stop - l.start.toNat ≤ 32 ∧ holdsOne th.held th.loops = true then 0 else 2) ∧
    (th.pc.toNat + n = l.stop → l.left = 0 → (∀ k ∈ rest, k.stop ≠ l.stop) →
      (th.advance n).pc = BitVec.ofNat 13 l.stop ∧ (th.advance n).loops = rest ∧ th.stepCost n = 0) ∧
    (th.pc.toNat + n ≠ l.stop → (th.advance n).pc = BitVec.ofNat 13 (th.pc.toNat + n) ∧ (th.advance n).loops = l :: rest ∧
      th.stepCost n = 0))

/-- EVRET, TRAP and YIELD (R91, R137, R138, R497): EVRET at the depth of entry gives back what the hidden record holds for 4 slots, or for 2
enters the next pending enabled event without giving it back, and at another depth takes FAULT EVRET_DEPTH; TRAP halts behind itself where
trap halts are on and is otherwise without effect. -/
def Obligations.ReturnTrapYield : Prop :=
  ∀ (s : State) (t : Tid) (a : Byte) (fr : HFrame), s.Ready t →
    ((s.thr t).faultFrame = none → (s.thr t).frame = some fr → (s.thr t).stack.length = fr.depth → (s.thr t).pendingEvent = none →
      fr.idle = false → (s.thr t).stepping = false →
      ∃ u, exec (.evret t 0) s = .next u ∧ u.thr t = { s.thr t with
        pc := fr.pc
        callDepth := fr.callDepth
        loops := fr.loops
        repc := fr.repc
        repact := fr.repact
        frame := none
        handler := none
        slots := (u.thr t).slots
        skipBp := false } ∧ Took s u t 4 ∧ u.mem = s.mem ∧ u.regs = s.regs ∧ ∀ v : Tid, v ≠ t → u.thr v = s.thr v) ∧
    (∀ n, (s.thr t).faultFrame = none → (s.thr t).frame = some fr → (s.thr t).stack.length = fr.depth → (s.thr t).pendingEvent = some n →
      (s.thr t).stepping = false →
      ∃ u, exec (.evret t 0) s = .next u ∧ u.thr t = { s.thr t with
        pc := s.vector t n
        loops := []
        repc := 0
        repact := false
        evpend := (s.thr t).evpend &&& ~~~(1#16 <<< n)
        handler := some n
        slots := (u.thr t).slots
        skipBp := false } ∧ Took s u t 2 ∧ u.mem = s.mem ∧ u.regs = s.regs ∧ ∀ v : Tid, v ≠ t → u.thr v = s.thr v) ∧
    ((s.thr t).faultFrame = none → (s.thr t).frame = some fr → (s.thr t).stack.length ≠ fr.depth →
      Faults (.evret t 0) s t .evretDepth 0) ∧
    ((s.thr t).faultFrame = none → (s.thr t).frame = none → Faults (.evret t 0) s t .illegal 0) ∧
    ((s.thr t).tctl.testBit 0 = false → Retires (.trap t a) s t 1 1 (s.thr t).stack (s.thr t).locals) ∧
    ((s.thr t).tctl.testBit 0 = true → ∃ u, exec (.trap t a) s = .next u ∧ (u.thr t).halted = true ∧ (u.thr t).haltReason = 4 ∧
      (u.thr t).trapCode = a ∧ (u.thr t).pc = ((s.thr t).advance 1).pc ∧ (u.thr t).stack = (s.thr t).stack) ∧
    Retires (.yield t 0) s t 1 2 (s.thr t).stack (s.thr t).locals

/-- WAIT (R92, R93): with a named event pending it retires with EVPEND AND mask; with none the thread waits, and WAIT_END resumes it once one
is pending; bit 0 of the mask names no event; the run-ending WAIT of a PACKET thread in whose slots no spore waits leaves it idle. -/
def Obligations.WaitResults : Prop :=
  ∀ (s : State) (t : Tid) (m : Half),
    (s.Ready t → (s.thr t).endsRun m = false → (s.thr t).stack.length < 16 → (s.thr t).evpend &&& (m &&& 0xFFFE) ≠ 0 →
      Retires (.wait t 0 m) s t 2 1 (((s.thr t).evpend &&& (m &&& 0xFFFE)).setWidth 32 :: (s.thr t).stack) (s.thr t).locals) ∧
    (s.Ready t → (s.thr t).endsRun m = false → (s.thr t).stack.length < 16 → (s.thr t).evpend &&& (m &&& 0xFFFE) = 0 →
      Waits (.wait t 0 m) s t 2 0 (.event (m &&& 0xFFFE))) ∧
    (s.Ready t → (s.thr t).endsRun m = true → (s.thr t).spore0 = none → (s.thr t).spore1 = none →
      ∃ u, exec (.wait t 0 m) s = .next u ∧ (u.thr t).run = .idle ∧ (u.thr t).stack = (s.thr t).stack ∧ u.mem = s.mem) ∧
    ((s.thr t).run = .waiting (.event m) → (s.thr t).haltReq = false → (s.thr t).evpend &&& m ≠ 0 →
      ∃ u, exec (.waitEnd t) s = .next u ∧ (u.thr t).run = .running ∧ u.mem = s.mem ∧ (u.thr t).evpend = (s.thr t).evpend ∧
        (u.thr t).locals = (s.thr t).locals ∧ (∀ v : Tid, v ≠ t → u.thr v = s.thr v) ∧
        (u.thr t).stack = ((s.thr t).evpend &&& m).setWidth 32 :: (s.thr t).stack ∧
        (u.thr t).pc = ((s.thr t).goSeq ((s.thr t).pc.toNat + (s.thr t).waitLen)).pc) ∧
    ((s.thr t).run = .waiting (.event m) → (s.thr t).evpend &&& m = 0 → exec (.waitEnd t) s = .next s)

/-! ### Opvis: spores, coprocessor queues, buffers -/

/-- The release instructions (R94 to R97): a thread that holds a spore, with an empty store buffer, hands it with its decision, its targets and
its header window to the ordering unit, pushes OK for 2 slots and holds the slot no longer; a spore discarded at its deadline is
gone and gives LATE, no spore NOSPORE, an operand out of range RANGE with the spore kept. With entries in the buffer it drains first (R126). -/
def Obligations.ReleaseResults : Prop :=
  ∀ (s : State) (t : Tid) (b : Bool) (i : Nat) (x : Spore) (q : Word) (r : List Word), s.Ready t →
    (s.thr t).stack = q :: r → r.length < 15 →
    let waits (c : Instr) (need : Nat) (d : Decision) (ts : Bool) : Prop := Waits c s t 1 need (.mem .drain (.release d ts))
    let quiet (u : State) : Prop := u.mem = s.mem ∧ u.regs = s.regs ∧ OthersKept s u t
    ((s.thr t).storeBuf ≠ [] → waits (.fwd t 0) 1 (.fwd q) false ∧ waits (.fwd t 1) 1 (.fwd q) true ∧
      waits (.fwdm t 0) 1 (.fwdm q) false ∧ waits (.fwdm t 1) 1 (.fwdm q) true ∧ waits (.toslow t 0) 1 (.toslow q) false ∧
      waits (.droppkt t 0) 0 .drop false) ∧
    ((s.thr t).storeBuf = [] → (s.thr t).cur = some b → (s.thr t).slotSpore b = some i → s.spore i = some x → x.desc.length = 16 →
      let freed (u : State) : Prop := (u.thr t).cur = none ∧ (u.thr t).slotSpore b = none ∧ u.mem = s.mem
      let window := s.bytes (dmemBase (tidF t) (tidC t) + slotOff t b + 0x40) (min 256 (s.frame x.cell).bytes.length)
      let y := (s.markLate x).2
      let stands (u : State) (k : Nat) (tg : List Target) (g : Nat) (ts : Bool) : Prop :=
        u.spore i = some { y with stands := .released k tg g ts } ∧ (u.frame x.cell).bytes = patch (s.frame x.cell).bytes 0 window
      (x.dead = false → (x.family = 0 → x.deadline = 0 ∨ s.tb.now < x.deadline) →
        (∀ ts : Bool, (s.queuePort q.toNat).isSome = true →
          Answers (.fwd t (if ts then 1 else 0)) s t 1 2 (0 :: r) (fun u => freed u ∧ quiet u ∧ stands u 0 (s.fwdTargets x q.toNat) 0 ts)) ∧
        (∀ ts : Bool, s.queuePort q.toNat = none →
          Answers (.fwd t (if ts then 1 else 0)) s t 1 2 (10 :: r) (fun u => u.sw = s.sw ∧ quiet u)) ∧
        (∀ ts : Bool, q.toNat < 16384 →
          Answers (.fwdm t (if ts then 1 else 0)) s t 1 2 (0 :: r)
            (fun u => freed u ∧ quiet u ∧ stands u 1 (s.groupTargets x q.toNat) q.toNat ts)) ∧
        (∀ ts : Bool, 16384 ≤ q.toNat →
          Answers (.fwdm t (if ts then 1 else 0)) s t 1 2 (10 :: r) (fun u => u.sw = s.sw ∧ quiet u)) ∧
        Answers (.toslow t 0) s t 1 2 (0 :: r) (fun u => freed u ∧
          u.spore i = some { y.setW 11 (setFld (y.w 11) 15 8 q.toNat) with
            deadline := 0
            stands := .released 3 [] 0 false } ∧ (u.frame x.cell).bytes = patch (s.frame x.cell).bytes 0 window) ∧
        Answers (.droppkt t 0) s t 1 2 (0 :: q :: r) (fun u => freed u ∧ u.spore i = none ∧ u.sw.thrDrops = s.sw.thrDrops + 1)) ∧
      (x.dead = true → (∀ c ∈ ([.fwd t 0, .fwd t 1, .fwdm t 0, .fwdm t 1, .toslow t 0] : List Instr),
          Answers c s t 1 2 (8 :: r) (fun u => freed u ∧ u.spore i = none ∧ quiet u)) ∧
        Answers (.droppkt t 0) s t 1 2 (8 :: q :: r) (fun u => freed u ∧ u.spore i = none ∧ quiet u))) ∧
    ((s.thr t).storeBuf = [] → (s.thr t).cur = none →
      (∀ c ∈ ([.fwd t 0, .fwd t 1, .fwdm t 0, .fwdm t 1, .toslow t 0] : List Instr),
        Answers c s t 1 2 (9 :: r) (fun u => u.sw = s.sw ∧ quiet u)) ∧
      Answers (.droppkt t 0) s t 1 2 (9 :: q :: r) (fun u => u.sw = s.sw ∧ quiet u))

/-- MIRR (R98) marks the held spore for session m in its descriptor word 12, with a timestamp where it asks for one, and changes nothing else of
it. EMIT (R99) copies n bytes of its source into a new frame behind the others of queue q, for 2 slots, one per 64 bytes and 12 for common
memory; it refuses a bad length or queue with RANGE and a full injection share with FULL, takes FAULT ACCESS for a source it may not
read, and waits for stores of its own in the source (R125). -/
def Obligations.MirrorEmit : Prop :=
  ∀ (s : State) (t : Tid) (i : Nat) (x : Spore) (m n a q : Word) (ts : Bool) (r : List Word), s.Ready t →
    let f : Byte := if ts then 1 else 0
    let quiet (u : State) : Prop := u.mem = s.mem ∧ u.regs = s.regs ∧ OthersKept s u t
    ((s.thr t).stack = m :: r → r.length < 16 → (s.thr t).curSpore = some i → s.spore i = some x → x.desc.length = 16 →
      (m.toNat ≤ 15 → Answers (.mirr t f) s t 1 1 (0 :: r) (fun u => quiet u ∧
        u.spore i = some { x.setW 12 (setFld (x.w 12) 20 16 (16 + m.toNat)) with mirrTs := ts } ∧ ∀ j, j ≠ i → u.spore j = s.spore j)) ∧
      (15 < m.toNat → Answers (.mirr t f) s t 1 1 (10 :: r) (fun u => u.sw = s.sw ∧ quiet u))) ∧
    ((s.thr t).stack = m :: r → r.length < 16 → (s.thr t).curSpore = none →
      Answers (.mirr t f) s t 1 1 (9 :: r) (fun u => u.sw = s.sw ∧ quiet u)) ∧
    ((s.thr t).stack = q :: n :: a :: r → r.length < 14 →
      (n.toNat < 60 ∨ 2048 < n.toNat ∨ s.queuePort q.toNat = none →
        Answers (.emit t f) s t 1 2 (10 :: r) (fun u => u.sw = s.sw ∧ quiet u)) ∧
      (60 ≤ n.toNat → n.toNat ≤ 2048 → (s.queuePort q.toNat).isSome = true →
        let cost := 2 + (n.toNat + 63) / 64 + (if viewRange a.toNat = some .common then 12 else 0)
        (emitSourceOk t a n = false → (s.thr t).faultFrame = none → Faults (.emit t f) s t .access a) ∧
        (emitSourceOk t a n = true → s.emitFull (cellsOf n.toNat) = true →
          Answers (.emit t f) s t 1 2 (2 :: r) (fun u => u.sw = s.sw ∧ quiet u)) ∧
        (emitSourceOk t a n = true → s.emitFull (cellsOf n.toNat) = false →
          ((s.thr t).storeBuf.any (fun e => e.meets (viewDev t a.toNat) n.toNat && !e.covers (viewDev t a.toNat) n.toNat) = true →
            (∀ e ∈ (s.thr t).storeBuf, e.covers (viewDev t a.toNat) n.toNat = false) →
            Waits (.emit t f) s t 1 3 (.mem (.clear (viewDev t a.toNat) n.toNat) (.emit a n q ts))) ∧
          (((s.thr t).storeBuf.all fun e => !e.meets (viewDev t a.toNat) n.toNat) = true → s.qHeldDown q.toNat = false →
            s.sw.injWait = [] → (∀ c ∈ (s.outq q.toNat).copies, c.cell ∈ (s.frame c.cell).cells) →
            s.qDepth q.toNat + cellsOf n.toNat ≤ s.regF (Reg.SWC_QPROF (s.outq q.toNat).profile) 19 0 →
            Answers (.emit t f) s t 1 cost (0 :: r) (fun u => quiet u ∧
              ∃ c, (u.outq q.toNat).copies = (s.outq q.toNat).copies ++ [c] ∧ c.family = 7 ∧ c.ts = ts ∧ c.ctx = queueCtx q.toNat ∧
                (u.frame c.cell).bytes = s.bytes (viewDev t a.toNat) n.toNat ∧ (u.frame c.cell).cells.length = cellsOf n.toNat)))))

/-- CQS, CQW and CQP (R101, R102, R204, R205): with an empty store buffer CQS captures the descriptor at once and takes the lowest free tag, or
pushes −1 and counts when it has no tag, its share is taken up or the queue has no room; CQP answers PENDING and CQW waits while the command runs; both collect a completion code and free its tag;
a tag not in use is FAULT CQ_BADTAG. -/
def Obligations.QueueResults : Prop :=
  ∀ (s : State) (t : Tid) (k p : Word) (g : Fin 16) (code : Byte) (r : List Word), s.Ready t → r.length < 15 →
    ((s.thr t).stack = k :: p :: r → k.toNat ≤ 4 → p.toNat % 32 = 0 → viewRange p.toNat = some .shared → (s.thr t).storeBuf = [] →
      (∀ tag, (s.thr t).freeTag = some tag → s.cqRoom (tidF t) k.toNat = true → s.tagShare t = true →
        (k = 1 → s.dmaShare t = true) → s.threadCmds < 32768 →
        Answers (.cqs t 0) s t 1 2 (BitVec.ofNat 32 tag :: r) (fun u => (u.thr t).tag tag = .queued ∧
          (∀ g : Fin 16, g.val ≠ tag → (u.thr t).tag g.val = (s.thr t).tag g.val) ∧ u.mem = s.mem ∧ OthersKept s u t ∧
          ∃ c, (u.frond (tidF t)).queues = (s.frond (tidF t)).queues ++ [c] ∧ c.kind = k.toNat ∧
            c.who = .thread t tag (s.thr t).epoch ∧ c.desc = s.capture (tidF t) (p.toNat - 0x100000) ∧ c.phase = .queued)) ∧
      (s.cqRoom (tidF t) k.toNat = false ∨ (s.thr t).freeTag = none ∨ s.tagShare t = false ∨ (k = 1 ∧ s.dmaShare t = false) →
        Answers (.cqs t 0) s t 1 2 (0xFFFFFFFF :: r) (fun u => (u.thr t).tags = (s.thr t).tags ∧ u.mem = s.mem ∧ OthersKept s u t ∧
        u.reg (Reg.FRD_CQ_FULL (tidF t)) = satFld (s.reg (Reg.FRD_CQ_FULL (tidF t))) 31 0 1 ∧
          (u.frond (tidF t)).queues = (s.frond (tidF t)).queues))) ∧
    ((s.thr t).stack = k :: p :: r → k.toNat ≤ 4 → p.toNat % 32 = 0 → viewRange p.toNat = some .shared → (s.thr t).storeBuf ≠ [] →
      Waits (.cqs t 0) s t 1 2 (.mem .drain (.cqs p k))) ∧
    ((s.thr t).stack = k :: p :: r → 4 < k.toNat → (s.thr t).faultFrame = none → Faults (.cqs t 0) s t .illegal 0) ∧
    ((s.thr t).stack = k :: p :: r → k.toNat ≤ 4 → (s.thr t).faultFrame = none →
      p.toNat % 32 ≠ 0 ∨ viewRange p.toNat ≠ some .shared → Faults (.cqs t 0) s t .access p) ∧
    ((s.thr t).stack = BitVec.ofNat 32 g.val :: r →
      ((s.thr t).tag g.val = .done code → ∀ c ∈ ([.cqw t 0, .cqp t 0] : List Instr),
        Answers c s t 1 1 (code.setWidth 32 :: r) (fun u => (u.thr t).tag g.val = .free ∧
          (∀ h : Fin 16, h ≠ g → (u.thr t).tag h.val = (s.thr t).tag h.val) ∧ u.mem = s.mem ∧ u.regs = s.regs ∧ OthersKept s u t)) ∧
      ((s.thr t).tag g.val = .queued ∨ (s.thr t).tag g.val = .started →
        Answers (.cqp t 0) s t 1 1 (11 :: r) (fun u => (u.thr t).tags = (s.thr t).tags ∧ u.mem = s.mem ∧ u.regs = s.regs ∧
          OthersKept s u t) ∧ Waits (.cqw t 0) s t 1 1 (.cq g.val)) ∧
      ((s.thr t).tag g.val = .free → (s.thr t).faultFrame = none → ∀ c ∈ ([.cqw t 0, .cqp t 0] : List Instr),
        Faults c s t .cqBadtag 0))

/-- BALLOC and BFREE (R104, R277, R278): an element is handed out once, under its view address, and is free again after BFREE; an empty pool, or
one that does not serve the frond, answers EMPTY with 0 and is counted; BFREE of what is not an allocated element takes FAULT ACCESS.
Of memory BALLOC changes the status word of the pool alone (R282). -/
def Obligations.BufferResults : Prop :=
  ∀ (s : State) (t : Tid) (n : Fin 64) (x : Word) (r : List Word), s.Ready t →
    ((s.thr t).stack.length < 15 → s.poolServes n.val (tidF t) = true → s.mayAlloc n.val (.thread t) = true →
      Answers (.balloc t (BitVec.ofNat 8 n.val)) s t 1 2
        (0 :: BitVec.ofNat 32 (s.elemView n.val (s.pool n.val).lowestFree) :: (s.thr t).stack)
        (fun u => (u.pool n.val).held = (s.pool n.val).held ++ [((s.pool n.val).lowestFree, .thread t)] ∧
          let w := commonBase + s.regF Reg.BPM_STWIN 22 9 * 512 + n.val * 8
          ∀ b, b < w ∨ w + 8 ≤ b → u.sram b = s.sram b)) ∧
    ((s.thr t).stack.length < 15 → s.poolServes n.val (tidF t) = false ∨ s.mayAlloc n.val (.thread t) = false →
      Answers (.balloc t (BitVec.ofNat 8 n.val)) s t 1 2 (3 :: 0 :: (s.thr t).stack) (fun u => u.sw = s.sw ∧ u.mem = s.mem ∧
        u.reg (Reg.BPM_EMPTY n.val) = satFld (s.reg (Reg.BPM_EMPTY n.val)) 31 0 1 ∧ OthersKept s u t)) ∧
    ((s.thr t).stack = x :: r → r.length < 16 → s.poolServes n.val (tidF t) = true →
      let o := s.elemOffset n.val x
      let i := o / s.poolSize n.val
      (o < s.poolCount n.val * s.poolSize n.val → o % s.poolSize n.val = 0 → (∃ h, (i, h) ∈ (s.pool n.val).held) →
        Answers (.bfree t (BitVec.ofNat 8 n.val)) s t 1 2 r (fun u => (∀ h, (i, h) ∉ (u.pool n.val).held) ∧
          (∀ j h, j ≠ i → ((j, h) ∈ (u.pool n.val).held ↔ (j, h) ∈ (s.pool n.val).held)))) ∧
      (o < s.poolCount n.val * s.poolSize n.val → o % s.poolSize n.val = 0 → (∀ h, (i, h) ∉ (s.pool n.val).held) →
        (s.thr t).faultFrame = none → ∃ u, exec (.bfree t (BitVec.ofNat 8 n.val)) s = .next u ∧
          u.reg Reg.BPM_FAILCNT = satFld (s.reg Reg.BPM_FAILCNT) 31 0 1 ∧ (u.thr t).pc = s.vector t 0 ∧
          (u.thr t).faultFrame = some (s.thr t).record ∧ u.sw = s.sw)) ∧
    ((s.thr t).stack = x :: r → r.length < 16 → s.poolServes n.val (tidF t) = false → (s.thr t).faultFrame = none →
      Faults (.bfree t (BitVec.ofNat 8 n.val)) s t .access x)

/-! ### Opvis: locks, channels, tasks, special registers, events -/

/-- LOCK and TRYLOCK in the order of R175: LIMIT at the thread's share; an untracked word is granted with its lock word written (ABANDONED if it
says so), or FULL when the unit has no entry; a tracked word answers BUSY to TRYLOCK, and makes LOCK wait behind the others, after the
holder's task has taken on a higher priority of the waiting one (R178); a word that cannot be a lock is FAULT ACCESS.
UNLOCK (R176): only the holder's has an effect; without waiters the entry goes and the word reads 0, with waiters the lock passes to the one of
highest priority, the oldest of those, whose LOCK pushes OK. With entries in the store buffer it drains first (R126). -/
def Obligations.LockRequests : Prop :=
  (∀ (s : State) (t : Tid) (a : Word) (r : List Word), s.Ready t → (s.thr t).stack = a :: r → r.length < 16 →
    let f := tidF t
    (lockAddrOk a = false → (s.thr t).faultFrame = none → ∀ c ∈ ([.lock t 0, .trylock t 0, .unlock t 0] : List Instr),
      Faults c s t .access a) ∧
    (lockAddrOk a = true → s.lockShare t = false → ∀ c ∈ ([.lock t 0, .trylock t 0] : List Instr),
      Answers c s t 1 2 (12 :: r) (fun u => u.lockTable f a = s.lockTable f a ∧ u.mem = s.mem ∧ u.regs = s.regs ∧ OthersKept s u t)) ∧
    (lockAddrOk a = true → s.lockShare t = true → s.lockEntry f a = none → (s.lockTable f a).length < lockCap a →
      ∀ c ∈ ([.lock t 0, .trylock t 0] : List Instr),
        Answers c s t 1 2 ((if (s.word (lockDev f a)).getLsbD 30 then 5 else 0) :: r) (fun u => u.regs = s.regs ∧ OthersKept s u t ∧
          (∀ b, b < lockDev f a ∨ lockDev f a + 4 ≤ b → u.sram b = s.sram b) ∧
          ∃ e, u.lockTable f a = s.lockTable f a ++ [e] ∧ e.addr = a ∧ e.holder = t ∧ e.prio = s.lockPrio t ∧ e.waiters = [] ∧
            e.task = (s.thr t).task ∧ e.abandoned = (s.word (lockDev f a)).getLsbD 30 ∧ u.word (lockDev f a) = lockWord e)) ∧
    (lockAddrOk a = true → s.lockShare t = true → s.lockEntry f a = none → lockCap a ≤ (s.lockTable f a).length →
      ∀ c ∈ ([.lock t 0, .trylock t 0] : List Instr),
        Answers c s t 1 2 (2 :: r) (fun u => u.lockTable f a = s.lockTable f a ∧ u.mem = s.mem ∧ OthersKept s u t)) ∧
    (∀ e, lockAddrOk a = true → s.lockShare t = true → s.lockEntry f a = some e →
      Answers (.trylock t 0) s t 1 2 (6 :: r) (fun u => u.lockTable f a = s.lockTable f a ∧ u.mem = s.mem ∧ u.regs = s.regs ∧
        OthersKept s u t) ∧
      (s.lockPrio t ≤ e.prio → Waits (.lock t 0) s t 1 1 (.lock a) ∧
        ∃ u, exec (.lock t 0) s = .next u ∧ u.lockEntry f a = some { e with waiters := e.waiters ++ [t] }) ∧
      (∀ id, e.prio < s.lockPrio t → e.task = some id → e.holder ≠ t → tidF e.holder = f → lockIsDev a = false →
        (∀ x ∈ (s.frond f).locks ++ s.dlocks, x.addr ≠ a → x.task ≠ some id) → (∀ w, (s.thr e.holder).run ≠ .waiting (.lock w)) →
        ∃ u, exec (.lock t 0) s = .next u ∧ (u.thr t).run = .waiting (.lock a) ∧ (u.thr t).stack = r ∧
          (u.task f id).eff = s.lockPrio t ∧
          let y := { e with prio := s.lockPrio t, waiters := e.waiters ++ [t] }
          u.lockEntry f a = some y ∧ u.word (lockDev f a) = lockWord y))) ∧
  (∀ (s : State) (t : Tid) (a : Word) (r : List Word), s.Ready t → (s.thr t).stack = a :: r → r.length < 16 → lockAddrOk a = true →
    let f := tidF t
    ((s.thr t).storeBuf ≠ [] → Waits (.unlock t 0) s t 1 1 (.mem .drain (.unlock a))) ∧
    ((s.thr t).storeBuf = [] → s.lockEntry f a = none ∨ (∃ e, s.lockEntry f a = some e ∧ e.holder ≠ t) →
      Answers (.unlock t 0) s t 1 2 (7 :: r) (fun u => u.lockTable f a = s.lockTable f a ∧ u.mem = s.mem ∧ u.regs = s.regs ∧
        OthersKept s u t)) ∧
    (∀ e, (s.thr t).storeBuf = [] → s.lockEntry f a = some e → e.holder = t → e.task = none → e.waiters = [] →
      Answers (.unlock t 0) s t 1 2 (0 :: r) (fun u => u.lockEntry f a = none ∧ u.word (lockDev f a) = 0 ∧ u.regs = s.regs ∧
        OthersKept s u t ∧ (∀ b, b < lockDev f a ∨ lockDev f a + 4 ≤ b → u.sram b = s.sram b) ∧
        ∀ b, b ≠ a → lockIsDev b = lockIsDev a → u.lockEntry f b = s.lockEntry f b)) ∧
    (∀ e w, (s.thr t).storeBuf = [] → s.lockEntry f a = some e → e.holder = t → e.task = none → w ∈ e.waiters → e.waiters.Nodup →
      t ∉ e.waiters → (∀ v ∈ e.waiters, s.lockPrio v ≤ s.lockPrio w) →
      (∀ v ∈ e.waiters.takeWhile (fun v => decide (v ≠ w)), s.lockPrio v < s.lockPrio w) → (s.thr w).haltReq = false →
      Answers (.unlock t 0) s t 1 2 (0 :: r) (fun u => (u.thr w).stack = 0 :: (s.thr w).stack ∧ (u.thr w).run = .running ∧
        let y : LockEntry := { e with
          holder := w
          prio := s.lockPrio w
          task := (s.thr w).task
          abandoned := false
          waiters := e.waiters.filter (fun v => decide (v ≠ w)) }
        u.lockEntry f a = some y ∧ u.word (lockDev f a) = lockWord y)))

/-- CHW, CHS and CHR (R106, R180 to R182): CHW stages a word; CHS appends the staged words as one message, or answers FULL at 16 messages and RANGE
with nothing staged or no such channel; CHR takes the oldest message into memory with its length, or waits among the readers. -/
def Obligations.ChannelResults : Prop :=
  ∀ (s : State) (t : Tid) (f : Form) (c x ea : Word) (k : Nat) (m : List Word) (ms : List (List Word)) (r : List Word), s.Ready t →
    r.length < 15 →
    ((s.thr t).stack = x :: r → ∀ n : Fin 16, RetiresFrom (.chw t (BitVec.ofNat 8 n.val)) s (s.modThr t (fun th => { th with
      staging := th.staging.set n x
      staged := th.staged ||| (1#16 <<< n.val) })) t 1 1 r) ∧
    ((s.thr t).stack = c :: r → chanKey (tidF t) c = some k → (s.thr t).stagedMsg = some m → (s.chan k).readers = [] →
      ((s.chan k).msgs.length < 16 → Answers (.chs t 0) s t 1 2 (0 :: r) (fun u => (u.chan k).msgs = (s.chan k).msgs ++ [m] ∧
        (u.chan k).sent = (s.chan k).sent + 1 ∧ (u.thr t).staged = 0 ∧ u.mem = s.mem)) ∧
      (16 ≤ (s.chan k).msgs.length → Answers (.chs t 0) s t 1 2 (2 :: r) (fun u => (u.chan k).msgs = (s.chan k).msgs ∧
        (u.thr t).staged = (s.thr t).staged ∧ u.mem = s.mem))) ∧
    ((s.thr t).stack = c :: r → chanKey (tidF t) c = none ∨ (s.thr t).stagedMsg = none →
      Answers (.chs t 0) s t 1 2 (10 :: r) (fun u => u.chans = s.chans ∧ u.mem = s.mem ∧ OthersKept s u t)) ∧
    ((s.thr t).stack = x :: c :: r → formLegal f = true → chanKey (tidF t) c = some k → ea = x + formDisp f 4 →
      (s.thr t).tctl.testBit 2 = false → (s.thr t).storeBuf = [] →
      ((s.chan k).msgs = m :: ms → destOk t ea (4 * m.length) = true →
        Answers (.chr t f) s t (formLen f) (if viewRange ea.toNat = some .common then 16 else 4) (0 :: BitVec.ofNat 32 (4 * m.length) :: r) (fun u =>
          (u.chan k).msgs = ms ∧ (u.chan k).recv = (s.chan k).recv + 1 ∧
          (∀ i < 4 * m.length, u.sram (viewDev t ea.toNat + i) = nth 0 (msgBytes m) i) ∧
          ∀ b, b < viewDev t ea.toNat ∨ viewDev t ea.toNat + 4 * m.length ≤ b → u.sram b = s.sram b)) ∧
      ((s.chan k).msgs = m :: ms → destOk t ea (4 * m.length) = false → (s.thr t).faultFrame = none →
        Faults (.chr t f) s t .access ea) ∧
      ((s.chan k).msgs = [] → Waits (.chr t f) s t (formLen f) 2 (.chr k ea) ∧
        ∃ u, exec (.chr t f) s = .next u ∧ (u.chan k).readers = (s.chan k).readers ++ [t])) ∧
    ((s.thr t).stack = x :: c :: r → formLegal f = true → chanKey (tidF t) c = none →
      Answers (.chr t f) s t (formLen f) 4 (10 :: 0 :: r) (fun u => u.chans = s.chans ∧ u.mem = s.mem))

/-- TREADY, TSLEEP, TYIELD and TASK_DISPATCH (R189 to R192): a dormant task goes READY to the tail of its level, or is refused when the level is
full; a task with WAKE set sleeps through; a task that sleeps leaves its thread; a free TASK thread takes over the context of
the task that stands ready. -/
def Obligations.TaskResults : Prop :=
  ∀ (s : State) (t : Tid) (id : Nat) (r : List Word),
    let f := tidF t
    let k := s.task f id
    (s.Ready t → (s.thr t).stack = BitVec.ofNat 32 id :: r → r.length < 16 → id < 1024 →
      (k.state = .running → Answers (.tready t 0) s t 1 2 (0 :: r) (fun u => (u.task f id).wake = true ∧ (u.task f id).state = .running)) ∧
      (k.state = .ready → Answers (.tready t 0) s t 1 2 (0 :: r) (fun u => (u.task f id) = k ∧ u.mem = s.mem)) ∧
      (k.state = .dormant → s.levelRoom f (prioLevel (s.activation f id).eff) = true →
        Answers (.tready t 0) s t 1 2 (0 :: r) (fun u => (u.task f id).state = .ready ∧ (u.task f id).pc = (s.activation f id).entry ∧
          u.readyList f (prioLevel (s.activation f id).eff) = s.readyList f (prioLevel (s.activation f id).eff) ++ [id])) ∧
      (k.state = .dormant → s.levelRoom f (prioLevel (s.activation f id).eff) = false →
        Answers (.tready t 0) s t 1 2 (4 :: r) (fun u => (u.task f id) = k ∧ u.mem = s.mem))) ∧
    (s.Ready t → (s.thr t).stack = BitVec.ofNat 32 id :: r → r.length < 16 → 1024 ≤ id → id < 2 ^ 32 →
      Answers (.tready t 0) s t 1 2 (10 :: r) (fun u => u.mem = s.mem)) ∧
    (s.Ready t → (s.thr t).mayswitch false = true → (s.thr t).task = some id → (s.thr t).stack.length < 16 → k.wake = true →
      Answers (.tsleep t 0) s t 1 40 (0 :: (s.thr t).stack) (fun u => (u.task f id).wake = false)) ∧
    (s.Ready t → (s.thr t).mayswitch false = true → (s.thr t).task = some id → (s.thr t).stack.length < 16 → k.wake = false →
      (∀ l, s.readyList f l = []) → ∃ u, exec (.tsleep t 0) s = .next u ∧ (u.thr t).run = .free ∧ (u.thr t).task = none ∧
        (u.task f id).state = .sleeping ∧ (u.task f id).stack = (s.thr t).stack ∧ (u.task f id).locals = (s.thr t).locals) ∧
    (s.Ready t → (s.thr t).mayswitch true = true → (s.thr t).task = some id → (s.thr t).frame = none → (∀ l, s.readyList f l = []) →
      Answers (.tyield t 0) s t 1 1 (s.thr t).stack (fun u => (u.thr t).task = some id ∧ (u.task f id) = k)) ∧
    ((s.thr t).run = .free → (s.thr t).role = .task → (s.thr t).halted = false → s.mode.threadsRun = true →
      (s.frond f).fenced = false → (s.core (coreKey t)).fenced = false → k.state = .ready → k.wakeStatus = none →
      k.eligible t = true → k.level = prioLevel k.eff → (∀ l, s.readyList f l = if l = k.level then [id] else []) →
      ∃ u, exec (.taskDispatch t) s = .next u ∧ (u.thr t).run = .running ∧ (u.thr t).task = some id ∧ (u.thr t).pc = k.pc ∧
        (u.thr t).stack = k.stack ∧ (u.thr t).locals = k.locals ∧ (u.task f id).state = .running ∧ (u.task f id).thread = t ∧
        id ∉ u.readyList f k.level)

/-- RDSR, WRSR, TIME64 and TICKNO (R61, R108, R109, Table 03-6): every register of the table is read, SLOTS with the slot of the RDSR itself,
and every writable one written; a WRSR of another, or of BUDGET outside role TASK, takes FAULT ILLEGAL. -/
def Obligations.SpecialRegisters : Prop :=
  ∀ (s : State) (t : Tid) (x y : Word) (r : List Word), s.Ready t →
    let th := s.thr t
    (th.stack.length < 15 →
      Retires (.rdsr t 0x00) s t 1 1 (BitVec.ofNat 32 (t.toNat + (s.cn.addr.getD 0).toNat * 2 ^ 11) :: th.stack) th.locals ∧
      Retires (.rdsr t 0x01) s t 1 1 (BitVec.ofNat 32 ((if th.cur.isSome then th.curEp * 2 ^ 8 else 0) + (if th.pinned then 8 else 0)
        + (if t.toNat % 128 = 0 ∧ th.role = .task then 4 else 0) + th.role.code) :: th.stack) th.locals ∧
      Retires (.rdsr t 0x05) s t 1 1 (BitVec.ofNat 32 (s.status t) :: th.stack) th.locals ∧
      Retires (.rdsr t 0x06) s t 1 1 (BitVec.ofNat 32 (th.loopLeft 0) :: th.stack) th.locals ∧
      Retires (.rdsr t 0x07) s t 1 1 (BitVec.ofNat 32 (th.loopLeft 1) :: th.stack) th.locals ∧
      Retires (.rdsr t 0x09) s t 1 1 (BitVec.ofNat 32 (satAdd 0xFFFFFFFF th.slots 1) :: th.stack) th.locals ∧
      Retires (.rdsr t 0x0B) s t 1 1 (BitVec.ofNat 32 (s.sporep t) :: th.stack) th.locals ∧
      Retires (.rdsr t 0x0C) s t 1 1 (BitVec.ofNat 32 (s.cqfree t) :: th.stack) th.locals ∧
      Retires (.rdsr t 0x0D) s t 1 1 ((s.curDeadline t).extractLsb' 32 32 :: (s.curDeadline t).extractLsb' 0 32 :: th.stack) th.locals ∧
      Retires (.rdsr t 0x02) s t 1 1 (th.evbase :: th.stack) th.locals ∧
      Retires (.rdsr t 0x03) s t 1 1 (th.evmask.setWidth 32 :: th.stack) th.locals ∧
      Retires (.rdsr t 0x04) s t 1 1 (th.evpend.setWidth 32 :: th.stack) th.locals ∧
      Retires (.rdsr t 0x08) s t 1 1 (BitVec.ofNat 32 th.repc :: th.stack) th.locals ∧
      Retires (.rdsr t 0x0A) s t 1 1 (th.budget :: th.stack) th.locals ∧
      Retires (.rdsr t 0x0E) s t 1 1 (th.timer.extractLsb' 32 32 :: th.timer.extractLsb' 0 32 :: th.stack) th.locals ∧
      Retires (.time64 t 0) s t 1 1 (s.tb.now.extractLsb' 32 32 :: s.tb.now.extractLsb' 0 32 :: th.stack) th.locals ∧
      Retires (.tickno t 0) s t 1 1
        (BitVec.ofNat 32 (s.tk.number.toNat / 2 ^ 32) :: BitVec.ofNat 32 s.tk.number.toNat :: th.stack) th.locals) ∧
    (th.stack = x :: r → r.length < 16 →
      RetiresFrom (.wrsr t 0x02) s (s.modThr t (fun th => { th with evbase := x &&& 0x3FE0 })) t 1 1 r ∧
      RetiresFrom (.wrsr t 0x03) s (s.modThr t (fun th => { th with evmask := x.truncate 16 ||| 1 })) t 1 1 r ∧
      RetiresFrom (.wrsr t 0x04) s (s.modThr t (fun th => { th with evpend := th.evpend &&& ~~~(x.truncate 16 : Half) })) t 1 1 r ∧
      (th.role = .task → RetiresFrom (.wrsr t 0x0A) s (s.modThr t (fun th => { th with budget := x })) t 1 1 r) ∧
      (th.role ≠ .task → th.faultFrame = none → Faults (.wrsr t 0x0A) s t .illegal 0) ∧
      (th.faultFrame = none → ∀ n : Fin 15, n.val ∉ [2, 3, 4, 10, 14] → Faults (.wrsr t (BitVec.ofNat 8 n.val)) s t .illegal 0)) ∧
    (th.stack = y :: x :: r → r.length < 15 →
      (((y ++ x : DWord) = 0 ∨ s.tb.now < (y ++ x : DWord)) →
        RetiresFrom (.wrsr t 0x0E) s (s.modThr t (fun th => { th with timer := y ++ x })) t 1 1 r) ∧
      ((y ++ x : DWord) ≠ 0 → (y ++ x : DWord) ≤ s.tb.now →
        RetiresFrom (.wrsr t 0x0E) s (s.modThr t (fun th => { th with
          timer := 0
          evpend := th.evpend ||| 8 })) t 1 1 r))

/-- EVENT_ENTRY (R132, R135): the lowest pending enabled event of 1 to 15 is taken: its pending bit clears, the hidden record keeps the thread's
place, loop and repeat state clear, and the thread stands at the halfword of its vector, for 5 slots; a breakpoint on its next instruction
halts it first (R498); without an event, or with a handler running, nothing changes.
An event handler's entry and its EVRET undo each other (R135, R137): place, depth, loops, repeat state and handler are as before, only the
pending bit and the slots have moved. -/
def Obligations.EventEntry : Prop :=
  (∀ (s : State) (t : Tid) (n : Nat),
    ((s.thr t).pendingEvent = some n → s.mayTakeEvent t = true → (s.thr t).run = .running → s.breakHere t = true →
      ∃ u, exec (.eventEntry t) s = .next u ∧ (u.thr t).halted = true ∧ (u.thr t).haltReason = 2 ∧
        (u.thr t).evpend = (s.thr t).evpend ∧ (u.thr t).pc = (s.thr t).pc ∧ u.mem = s.mem ∧ OthersKept s u t) ∧
    ((s.thr t).pendingEvent = some n → s.mayTakeEvent t = true → (s.thr t).run = .running → s.breakHere t = false →
      1 ≤ n ∧ n < 16 ∧ ((s.thr t).evpend &&& (s.thr t).evmask).getLsbD n = true ∧
      (∀ k, 1 ≤ k → k < n → ((s.thr t).evpend &&& (s.thr t).evmask).getLsbD k = false) ∧
      ∃ u, exec (.eventEntry t) s = .next u ∧ u.thr t = { s.thr t with
        evpend := (s.thr t).evpend &&& ~~~(1#16 <<< n)
        handler := some n
        frame := some (s.thr t).record
        loops := []
        repc := 0
        repact := false
        slots := (u.thr t).slots
        skipBp := false
        pc := s.vector t n
        halted := (s.thr t).stepping
        stepping := false
        haltReason := (u.thr t).haltReason
        haltHost := (u.thr t).haltHost } ∧ Took s u t 5 ∧ u.mem = s.mem ∧ u.regs = s.regs ∧ OthersKept s u t) ∧
    ((s.thr t).pendingEvent = none ∨ s.mayTakeEvent t = false → exec (.eventEntry t) s = .next s)) ∧
  (∀ (s u v : State) (t : Tid) (n : Nat), (s.thr t).pendingEvent = some n → s.mayTakeEvent t = true → (s.thr t).run = .running →
    (s.thr t).stepping = false → (s.thr t).frame = none → (s.thr t).handler = none → (s.core (coreKey t)).elastic = false → (s.frond (tidF t)).gated = false →
    s.breakHere t = false → exec (.eventEntry t) s = .next u → (u.thr t).pendingEvent = none → u.breakHere t = false →
    exec (.evret t 0) u = .next v →
    v.thr t = { s.thr t with
      evpend := (s.thr t).evpend &&& ~~~(1#16 <<< n)
      skipBp := false
      slots := satAdd 0xFFFFFFFF (s.thr t).slots 9 })

/-- The timed events of a thread: BUDGET raises event 1 once with its RAS record and puts SLOTS beyond BUDGET, and BUDGET_HARD takes FAULT
(R164); TIMER raises event 3 and clears (R61); DEADLINE raises event 10 (R37); LATE discards a CONTROL spore that waits in a slot and
counts it (R38). -/
def Obligations.TimedEvents : Prop :=
  ∀ (s : State) (t : Tid) (i : Nat) (x : Spore),
    (s.budgetOn t = true → (s.thr t).budgetHit = false →
      ∃ u, exec (.budget t) s = .next u ∧ (u.thr t).evpend = (s.thr t).evpend ||| 2 ∧ (u.thr t).budgetHit = true ∧
        (u.thr t).budget.toNat < (u.thr t).slots ∧ (u.thr t).pc = (s.thr t).pc ∧
        (s.ras.length < 64 → ∃ w, u.ras = s.ras ++ [w] ∧ w.code = 2 ∧ w.object = t.setWidth 32 ∧ w.severity = 1)) ∧
    (s.budgetOn t = true → (s.thr t).budgetHit = true → exec (.budget t) s = .next s) ∧
    (s.budgetOn t = true → (s.thr t).hardHit = false → (s.thr t).run = .running → (s.thr t).faultFrame = none →
      (s.thr t).haltReq = false → ∃ u, exec (.budgetHard t) s = .next u ∧ (u.thr t).hardHit = true ∧ (u.thr t).pc = s.vector t 0 ∧
        (u.thr t).faultFrame = some (s.thr t).record ∧ 2 * (u.thr t).budget.toNat ≤ (u.thr t).slots) ∧
    ((s.thr t).timer ≠ 0 → ∃ u, exec (.timer t) s = .next u ∧ (u.thr t).timer = 0 ∧ (u.thr t).evpend = (s.thr t).evpend ||| 8 ∧
      (s.thr t).timer ≤ u.tb.now ∧ s.tb.now ≤ u.tb.now) ∧
    ((s.thr t).curSpore = some i → s.spore i = some x → x.deadline ≠ 0 → (s.thr t).deadlineHit = false →
      ∃ u, exec (.deadline t) s = .next u ∧ (u.thr t).evpend = (s.thr t).evpend ||| 1024 ∧ (u.thr t).deadlineHit = true ∧
        x.warnAt ≤ u.tb.now) ∧
    (∀ b, s.spore i = some x → x.family = 0 → x.dead = false → x.deadline ≠ 0 → x.stands = .slot t b →
      s.heldSpores = [] → ∃ u y, exec (.late i) s = .next u ∧ u.spore i = some y ∧ y.dead = true ∧
        u.reg Reg.TICK_LATE_COUNT = satFld (s.reg Reg.TICK_LATE_COUNT) 31 0 1 ∧ u.thr t = s.thr t ∧ x.deadline ≤ u.tb.now)

/-! ### Ingress, switch core, egress -/

/-- FRAME_RECEIVE (R41, R266, R267, R285): on a port in service a frame with a bad FCS, a runt and an over-long one are counted and go no further;
a good one goes with its arrival time and the period then set to the tail of its priority's FIFO queue, and flow control begins where that
reaches XOFF; one for which its partition has no room is discarded. Out of service nothing but the time moves. -/
def Obligations.FrameReceive : Prop :=
  ∀ (s : State) (p : Fin 64) (b : List Byte) (ok : Bool) (t : DWord),
    let v := s.advanceTo t
    let c := Instr.frameReceive p b ok t
    let i := v.ingressPrio p.val b
    let k := p.val * 8 + i
    let n := b.length + 4
    let rx (x : State) (j : Nat) : List RxFrame := Sparse.get (fun _ => []) x.sw.rx j
    let err (hi lo : Nat) : Prop := Gives c s fun u =>
      OnlyReg v u (Reg.PORT_RXERR p.val) (satFld (v.reg (Reg.PORT_RXERR p.val)) hi lo 1)
    let xoff := v.regF (Reg.SWC_RXF_THR p.val) 15 0 * 256 ≤ v.rxFill p.val i + n ∧
      (v.port p.val).xoff.testBit (v.xoffBit p.val i) = false
    (v.macUp p.val = false ∨ v.md.entering = true → exec c s = .next v) ∧
    (v.macUp p.val = true → v.md.entering = false →
      (ok = false → err 31 16) ∧
      (ok = true → n < 64 → err 15 8) ∧
      (ok = true → 64 ≤ n → v.regF (Reg.PORT_CFG p.val) 30 16 < n → err 7 0) ∧
      (ok = true → 64 ≤ n → n ≤ v.regF (Reg.PORT_CFG p.val) 30 16 → v.rxFill p.val i + n ≤ v.rxSize p.val → Gives c s fun u =>
        (u = { v with
          sw := u.sw
          out := u.out }) ∧
        rx u k = rx v k ++ [⟨b, t, v.regF Reg.TICK_PERIOD 15 0⟩] ∧ (∀ j, j ≠ k → rx u j = rx v j) ∧
        (xoff → u.out = (v.sendPause p.val i (v.regF (Reg.SWC_RXF_CFG p.val) 31 16)).out ∧ OnlyPort v u p.val { v.port p.val with
          xoff := (v.port p.val).xoff + 2 ^ v.xoffBit p.val i }) ∧
        (¬xoff → u.out = v.out ∧ ∀ q, u.port q = v.port q)) ∧
      (ok = true → 64 ≤ n → n ≤ v.regF (Reg.PORT_CFG p.val) 30 16 → v.rxSize p.val < v.rxFill p.val i + n → Gives c s fun u =>
        CoresKept { v with host := u.host } u ∧ u.sw.rx = v.sw.rx ∧ u.sw.ports = v.sw.ports ∧
        u.reg (Reg.SWC_RXF_OVR p.val) = if v.regF (Reg.SWC_RXF_CFG p.val) 1 0 = 0
          then satFld (v.reg (Reg.SWC_RXF_OVR p.val)) 15 0 1 else satFld (v.reg (Reg.SWC_RXF_OVR p.val)) 31 16 1))

/-- Received flow control (R266, R288, R488): PFC pauses the enabled classes with nonzero times and resumes those with zero, PAUSE the port; both
are ignored while the watchdog has it so, and on a port out of service; the time's end resumes; a class or port held for TICKS ticks
ignores pause for as many, until PAUSE_WATCHDOG_END; pause is sent again while a partition stays in XOFF. -/
def Obligations.PauseResults : Prop :=
  ∀ (s : State) (p : Fin 64) (tc : Fin 8) (e : Byte) (q : List Half),
    let x := s.pclass p.val tc.val
    let y := s.port p.val
    let wd := s.pauseWd p.val
    let cfg := s.reg (Reg.SWC_RXF_CFG p.val)
    let onlyClass (v u : State) (z : PortClass) : Prop := u.pclass p.val tc.val = z ∧
      ∀ j k, k < 8 → ¬(j = p.val ∧ k = tc.val) → u.pclass j k = v.pclass j k
    let trip (u : State) : Prop := CoresKept { s with host := u.host } u ∧ u.reg (Reg.PORT_PAUSECNT p.val) = satFld (s.reg (Reg.PORT_PAUSECNT p.val)) 31 16 1
    (s.macUp p.val = false → ∀ pfc, exec (.pauseReceive p pfc e q) s = .next s) ∧
    (s.macUp p.val = true → fld cfg 1 0 = 2 → (∀ k < 8, cfg.getLsbD (8 + k) = true) → Gives (.pauseReceive p true e q) s fun u =>
      (u = { s with sw := u.sw }) ∧ (∀ j, u.port j = s.port j) ∧ (∀ j k, k < 8 → j ≠ p.val → u.pclass j k = s.pclass j k) ∧
      u.pclass p.val tc.val = if e.getLsbD tc.val = true ∧ x.ignore = 0 then { x with
        paused := decide (nth 0 q tc.val ≠ 0)
        pausedTicks := if nth 0 q tc.val ≠ 0 then x.pausedTicks else 0 } else x) ∧
    (s.macUp p.val = true → y.ignore = 0 → Gives (.pauseReceive p false e q) s fun u => (u = { s with sw := u.sw }) ∧
      u.sw.classes = s.sw.classes ∧ OnlyPort s u p.val { y with
        pausedAll := decide (nth 0 q 0 ≠ 0)
        pausedTicks := if nth 0 q 0 ≠ 0 then y.pausedTicks else 0 }) ∧
    (s.macUp p.val = true → y.ignore ≠ 0 → exec (.pauseReceive p false e q) s = .next s) ∧
    (Gives (.pauseQuantaExpired p (some tc)) s fun u => (u = { s with sw := u.sw }) ∧ u.sw.ports = s.sw.ports ∧ onlyClass s u { x with
      paused := false
      pausedTicks := 0 }) ∧
    (Gives (.pauseQuantaExpired p none) s fun u => (u = { s with sw := u.sw }) ∧ u.sw.classes = s.sw.classes ∧ OnlyPort s u p.val { y with
      pausedAll := false
      pausedTicks := 0 }) ∧
    (x.paused = true → wd ≠ 0 → wd ≤ x.pausedTicks → Gives (.pauseWatchdog p (some tc)) s fun u => trip u ∧
      u.sw.ports = s.sw.ports ∧ onlyClass s u { x with
        paused := false
        pausedTicks := 0
        ignore := wd + 1 }) ∧
    (y.pausedAll = true → wd ≠ 0 → wd ≤ y.pausedTicks → Gives (.pauseWatchdog p none) s fun u => trip u ∧
      u.sw.classes = s.sw.classes ∧ OnlyPort s u p.val { y with
        pausedAll := false
        pausedTicks := 0
        ignore := wd + 1 }) ∧
    (x.paused = false ∨ wd = 0 ∨ x.pausedTicks < wd → exec (.pauseWatchdog p (some tc)) s = .next s) ∧
    (y.pausedAll = false ∨ wd = 0 ∨ y.pausedTicks < wd → exec (.pauseWatchdog p none) s = .next s) ∧
    (x.ignore = 1 → Gives (.pauseWatchdogEnd p (some tc)) s fun u => (u = { s with sw := u.sw }) ∧ u.sw.ports = s.sw.ports ∧
      onlyClass s u { x with ignore := 0 }) ∧
    (y.ignore = 1 → Gives (.pauseWatchdogEnd p none) s fun u => (u = { s with sw := u.sw }) ∧ u.sw.classes = s.sw.classes ∧
      OnlyPort s u p.val { y with ignore := 0 }) ∧
    (x.ignore ≠ 1 → exec (.pauseWatchdogEnd p (some tc)) s = .next s) ∧
    (y.ignore ≠ 1 → exec (.pauseWatchdogEnd p none) s = .next s) ∧
    (y.xoff.testBit tc.val = true → fld cfg 1 0 = 2 → cfg.getLsbD (8 + tc.val) = true →
      exec (.pauseRepeat p tc) s = .next (s.emit (.pause p.val true (2 ^ tc.val) (fld cfg 31 16)))) ∧
    (y.xoff.testBit 0 = true → fld cfg 1 0 = 1 → exec (.pauseRepeat p tc) s = .next (s.emit (.pause p.val false 0 (fld cfg 31 16)))) ∧
    (y.xoff.testBit (s.xoffBit p.val tc.val) = false → exec (.pauseRepeat p tc) s = .next s)

/-- DISPATCH (R48, R242, R243): the picked spore leaves its frond's queue and stands in the slot of its thread, with its descriptor, the entry
point's bound in word 13, and the first 256 bytes of its frame in D-RAM; an idle thread begins at the entry point, another gets
event 8; of memory only the slot's bytes move. With none to pick nothing changes. -/
def Obligations.DispatchResults : Prop :=
  ∀ (s : State) (f : Fin 16), s.mode.ingressRuns = true → s.md.entering = false → (s.frond f.val).gated = false →
    (s.frond f.val).fenced = false →
    (s.dispatchPick f.val = none → exec (.dispatch f) s = .next s) ∧
    (∀ i t b x, s.dispatchPick f.val = some (i, t, b) → s.spore i = some x → x.desc.length = 16 → Gives (.dispatch f) s fun u =>
      let base := dmemBase f.val (tidC t) + slotOff t b
      (∃ y, u.spore i = some y ∧ y.stands = .slot t b ∧ y.cell = x.cell ∧ y.deadline = x.deadline ∧
        y.w 13 = (match s.epRecord f.val x.entry with | some r => BitVec.ofNat 32 r.bound | none => 0) ∧
        (∀ k, k ≠ 13 → y.w k = x.w k) ∧ (∀ k < 16, u.word (base + 4 * k) = y.w k) ∧
        ((s.thr t).run = .idle → (u.thr t).budget = y.w 13)) ∧
      i ∉ u.dispQ f.val ∧ (u.thr t).slotSpore b = some i ∧
      (∀ k < 256, u.sram (base + 0x40 + k) = nth 0 (s.frame x.cell).bytes k) ∧
      (∀ a, a < base ∨ base + 0x140 ≤ a → u.sram a = s.sram a) ∧ (∀ w : Tid, w ≠ t → u.thr w = s.thr w) ∧ u.dram = s.dram ∧
      ((s.thr t).run = .idle → (u.thr t).run = .running ∧ (u.thr t).cur = some b ∧ (u.thr t).curEp = x.entry ∧ (u.thr t).stack = [] ∧
        (u.thr t).slots = 0 ∧ (u.thr t).locals = (s.thr t).locals.set 0 (BitVec.ofNat 32 (slotOff t b))) ∧
      ((s.thr t).run ≠ .idle → u.thr t = { (s.thr t).takeSlot b i with evpend := (s.thr t).evpend ||| 0x100 }))

/-- INGRESS_TAKE (R239, R253): where the mode runs the pipelines and cells can be granted to the frame at the head of a FIFO queue it leaves the
queue, and a spore that is made of it holds the frame's bytes, its arrival time, port and priority, and the family and reason of its
walk; where not, every frame stays. -/
def Obligations.IngressTake : Prop :=
  ∀ (s : State) (p : Fin 64) (i : Fin 8) (bad : List (Fin 524288)) (f : RxFrame) (rest : List RxFrame),
    let rx (v : State) (k : Nat) : List RxFrame := Sparse.get (fun _ => []) v.sw.rx k
    let k := p.val * 8 + i.val
    rx s k = f :: rest →
    let l := bad.map (fun b => b.val)
    let w := s.walkFrame l p.val f.bytes
    let g := w.1.grant p.val i.val (cellsOf f.bytes.length) (decide (w.2.family = 0))
    let y := (g.1.walkFrame l p.val f.bytes).2
    let runs := s.mode.ingressRuns = true ∧ s.sw.dpFenced = false
    (Gives (.ingressTake p i bad) s fun u => ∀ j, j ≠ k → rx u j = rx s j) ∧
    (runs → g.2 = true → Gives (.ingressTake p i bad) s fun u => rx u k = rest ∧
      (s.spore s.sw.nextSpore = none → g.1.sw.nextSpore = s.sw.nextSpore → ∀ x, u.spore s.sw.nextSpore = some x →
        (u.frame x.cell).bytes = f.bytes ∧ x.w 4 = f.time.extractLsb' 0 32 ∧ x.w 5 = f.time.extractLsb' 32 32 ∧
        fld (x.w 2) 5 0 = p.val ∧ x.iprio = i.val ∧ (y.family < 8 → x.family = y.family) ∧ x.w 11 = BitVec.ofNat 32 y.reason)) ∧
    (¬runs ∨ g.2 = false → Gives (.ingressTake p i bad) s fun u => rx u k = f :: rest)

/-- ORDERING_PASS (R246, R247, R254, R269, R270): only the oldest spore of a domain is passed. Released to one queue with room, a copy of its frame
goes to that queue's tail; released to a group whose queues have room, one to each; the spore ends and leaves its domain, and its frame's
cells count the copies. With no room for a FWD it waits. A TOSLOW release enters the slow queue and holds its domain. An
unreleased oldest spore holds the domain. Held spores are then retried. -/
def Obligations.OrderingPass : Prop :=
  ∀ (s : State) (d : Half) (i : Nat) (out : List Nat) (x : Spore) (tg : Target) (g : Nat) (ts : Bool),
    let n := (s.frame x.cell).cells.length
    let waits := exec (.orderingPass d) s = .next s.retryHeld
    let ends (v : State) : Prop := v.spore i = none ∧ (v.domain d.toNat).out = out ∧ CoresKept s v ∧ (∀ j, j ≠ i → v.spore j = s.spore j) ∧
      ∀ e, e ≠ d.toNat → v.domain e = s.domain e
    ((s.domain d.toNat).out = [] → waits) ∧
    ((s.domain d.toNat).out = i :: out → i ∉ out → x.domain = some d.toNat → s.spore i = some x →
      (x.stands = .released 0 [tg] g ts → s.domainResidue d.toNat = false → s.qHeldDown tg.queue = false →
        s.qDepth tg.queue + n ≤ s.regF (Reg.SWC_QPROF (s.outq tg.queue).profile) 19 0 →
        ∃ v c, exec (.orderingPass d) s = .next v.retryHeld ∧ ends v ∧ (v.outq tg.queue).copies = (s.outq tg.queue).copies ++ [c] ∧
          c.cell = x.cell ∧ c.desc = x.desc ∧ c.ctx = tg.ctx ∧ c.ts = ts ∧ c.decision = 0 ∧
          (∀ q, q ≠ tg.queue → (v.outq q).copies = (s.outq q).copies) ∧ v.sw.frames = s.sw.frames) ∧
      (x.stands = .released 0 [tg] g ts → s.qHeldDown tg.queue = false →
        s.regF (Reg.SWC_QPROF (s.outq tg.queue).profile) 19 0 < s.qDepth tg.queue + n → waits) ∧
      (∀ l : List Target, x.stands = .released 1 l g ts → l ≠ [] → s.domainResidue d.toNat = false → (l.map (fun e => e.queue)).Nodup →
        (∀ e ∈ l, s.qHeldDown e.queue = false ∧
          s.qDepth e.queue + n ≤ s.regF (Reg.SWC_QPROF (s.outq e.queue).profile) 19 0) →
        ∃ v, exec (.orderingPass d) s = .next v.retryHeld ∧ ends v ∧ v.sw.residue = s.sw.residue ∧
          (v.frame x.cell).refs = (s.frame x.cell).refs - 1 + l.length ∧
          (∀ e ∈ l, ∃ c, (v.outq e.queue).copies = (s.outq e.queue).copies ++ [c] ∧ c.cell = x.cell ∧ c.desc = x.desc ∧ c.ctx = e.ctx ∧
            c.ts = ts ∧ c.decision = 1 ∧ c.group = g) ∧
          ∀ q, q ∉ l.map (fun e => e.queue) → (v.outq q).copies = (s.outq q).copies) ∧
      (x.stands = .released 1 [] g ts → s.domainResidue d.toNat = false → ∃ v, exec (.orderingPass d) s = .next v.retryHeld ∧ ends v ∧
        v.sw.thrDrops = s.sw.thrDrops + 1 ∧ v.sw.queues = s.sw.queues) ∧
      (x.stands = .released 3 [] g ts → s.domainResidue d.toNat = false →
        (s.sw.slowQ.length < 256 → exec (.orderingPass d) s = .next ({ s.moveSpore i .slow with
          sw.slowQ := s.sw.slowQ ++ [(⟨i, true⟩ : SlowEntry)] } : State).retryHeld) ∧
        (256 ≤ s.sw.slowQ.length → waits)) ∧
      (∀ dec l, x.stands = .released dec l g ts → s.domainResidue d.toNat = true → waits) ∧
      (∀ t b, x.stands = .slot t b → waits))

/-- RESIDUE_RETRY and RESIDUE_EXPIRY (R270, R273): a retry puts every waiting copy that finds room into its queue, behind the copies there, and
keeps the others waiting; an entry with one copy ends when it finds room; the expiry of a CONTROL entry removes it, counts it, and
leaves the other entries and every queue alone.
SLOW_PATH_DELIVERY (R247, R250, R251): the spore at the head of the slow queue leaves the device with its frame in a pool element and its record
in the slow-path channel, or in the host's ring where that takes TOSLOW frames, and ends; it leaves its domain. Without room, pool or
element it stays. -/
def Obligations.ResidueResults : Prop :=
  (∀ (s : State) (e : Residue) (q : Nat) (c : Copy) (k : Nat),
    (Gives .residueRetry s fun u => CoresKept s u ∧ u.sw.spores = s.sw.spores ∧
      (∀ q, ∃ l, (u.outq q).copies = (s.outq q).copies ++ l ∧ ∀ x ∈ l, ∃ a ∈ s.sw.residue, (q, x) ∈ a.left) ∧
      ∀ a ∈ u.sw.residue, a.left ≠ [] ∧ ∃ b ∈ s.sw.residue, (∀ x ∈ a.left, x ∈ b.left) ∧ a = { b with left := a.left }) ∧
    (s.sw.residue = [e] → e.left = [(q, c)] → s.qFits q (s.frame e.cell).cells.length = true → s.qHeldDown q = false →
      Gives .residueRetry s fun u => u.sw.residue = [] ∧ (u.outq q).copies = (s.outq q).copies ++ [c]) ∧
    (s.sw.residue = [e] → e.left = [(q, c)] → s.qFits q (s.frame e.cell).cells.length = false →
      exec .residueRetry s = .next s) ∧
    (s.sw.residue[k]? = some e → e.control = true → Gives (.residueExpiry k) s fun u =>
      u.sw.residue = dropNth s.sw.residue k ∧ u.tb.now = (if s.tb.now < e.deadline then e.deadline else s.tb.now) ∧ u.sw.queues = s.sw.queues ∧ u.sw.spores = s.sw.spores ∧
      u.reg Reg.SWC_MC_EXPIRED = satFld (s.reg Reg.SWC_MC_EXPIRED) 31 0 1 ∧ u.threads = s.threads) ∧
    (s.sw.residue[k]? = some e → e.control = false → exec (.residueExpiry k) s = .next s) ∧
    (s.sw.residue[k]? = none → exec (.residueExpiry k) s = .next s)) ∧
  (∀ (s : State) (e : SlowEntry) (rest : List SlowEntry) (x : Spore), s.sw.slowQ = e :: rest → s.spore e.spore = some x →
    let ring := (s.slowToRing e.toslow).1
    let pool := s.regF Reg.DSP_SLOW_CFG 15 10
    let k := s.regF Reg.DSP_SLOW_CFG 3 0 * 64 + s.regF Reg.DSP_SLOW_CFG 9 4
    let room := if ring then s.ringRoom 3 else s.chanRoom k
    let gone (v : State) : Prop := v.sw.slowQ = rest ∧ v.spore e.spore = none ∧
      (∀ d, x.domain = some d → (v.domain d).out = (s.domain d).out.filter (fun j => decide (j ≠ e.spore))) ∧
      (v.pool pool).held = (s.pool pool).held ++ [((s.pool pool).lowestFree, .dispatch)]
    (room = true → (s.pool pool).valid = true → s.mayAlloc pool .dispatch = true →
      (ring = false → (s.chan k).readers = [] → ∃ v m, exec .slowPathDelivery s = .next v.retryHeld ∧ gone v ∧
        (v.chan k).msgs = (s.chan k).msgs ++ [m] ∧ m = slowRecord x (s.pool pool).lowestFree e.toslow
          (decide (s.poolSize pool < (s.frame x.cell).bytes.length))) ∧
      (ring = true → ∃ v, exec .slowPathDelivery s = .next v.retryHeld ∧ gone v ∧ (v.ring 3).seq = (s.ring 3).seq + 1 ∧
        v.chans = s.chans)) ∧
    (room = false ∨ (s.pool pool).valid = false ∨ s.mayAlloc pool .dispatch = false → exec .slowPathDelivery s = .next s))

/-- LINK_STATE_CHANGE and VERIFY (R294, R335): a link that comes up on a port not held down starts verification where it is enabled and preemption
without it; one that goes down ends both and received pause; either marks the port as down within the tick; the verdict
settles preemption.
FROND_GATE and FROND_WAKE (R474, R479): only an idle frond whose gating is enabled stops; a wake restarts a stopped one, with its PLL where
that is off, and counts it. -/
def Obligations.LinkResults : Prop :=
  (∀ (s : State) (p : Fin 64) (ok : Bool),
    let x := s.port p.val
    let cfg := s.reg (Reg.PORT_CFG p.val)
    let marked (u : State) (y : Port) : Prop := (u = { s with
      sw := u.sw
      ct := u.ct }) ∧ OnlyPort s u p.val y ∧ ∀ q, q ∈ u.ct.downs ↔ q = p.val ∨ q ∈ s.ct.downs
    let plain := !cfg.getLsbD 10 && !cfg.getLsbD 11
    (s.portHeld p.val = false → x.link = false → Gives (.linkStateChange p true) s fun u => marked u { x with
      link := true
      vstate := if plain then x.vstate else if cfg.getLsbD 10 ∧ cfg.getLsbD 11 then 1 else 0
      pactive := if plain then x.pactive else cfg.getLsbD 10 && !cfg.getLsbD 11 }) ∧
    (s.portHeld p.val = true ∨ x.link = true → exec (.linkStateChange p true) s = .next s) ∧
    (Gives (.linkStateChange p false) s fun u => marked u { x with
      link := false
      vstate := 0
      pactive := false
      pausedAll := false
      pausedTicks := 0 }) ∧
    (cfg.getLsbD 10 = true → cfg.getLsbD 11 = true → x.link = true → x.vstate = 1 → Gives (.verify p ok) s fun u =>
      (u = { s with sw := u.sw }) ∧ OnlyPort s u p.val { x with
        vstate := if ok then 2 else 3
        pactive := ok }) ∧
    (x.link = false ∨ x.vstate ≠ 1 → exec (.verify p ok) s = .next s)) ∧
  (∀ (s : State) (f : Fin 16),
    let x := s.frond f.val
    let only (u : State) (y : Frond) : Prop := u.frond f.val = y ∧ ∀ g, g ≠ f.val → u.frond g = s.frond g
    let woken (u : State) (hi lo : Nat) : Prop := OnlyReg { s with fronds := u.fronds } u Reg.CLK_WAKECNT (satFld (s.reg Reg.CLK_WAKECNT) hi lo 1) ∧ only u { x with
        gated := false
        pllOff := false }
    (s.gateOk f.val = true → Gives (.frondGate f) s fun u => (u = { s with fronds := u.fronds }) ∧ only u { x with gated := true }) ∧
    (s.gateOk f.val = false → exec (.frondGate f) s = .next s) ∧
    (x.gated = true → x.pllOff = false → Gives (.frondWake f) s fun u => woken u 15 0) ∧
    (x.pllOff = true → Gives (.frondWake f) s fun u => woken u 31 16) ∧
    (x.gated = false → x.pllOff = false → exec (.frondWake f) s = .next s))

/-- Egress (R256, R288, R290): a port that has no transmission under way and a head frame eligible in a class of algorithm 0 or 1 starts the
one of the highest class and takes it from its queue; at its completion the frame leaves the device and the port is free; a
gate list moves to its next entry when the running entry's interval ends, and not before. -/
def Obligations.EgressResults : Prop :=
  ∀ (s : State) (p : Fin 64) (t : DWord), s.tb.now ≤ t →
    let a := s.advanceTo t
    let v := a.syncPort p.val
    (a.macUp p.val = false ∨ a.sw.dpFenced = true → exec (.transmissionSelect p t) s = .next a) ∧
    (∀ h l, a.macUp p.val = true → s.sw.dpFenced = false → (v.port p.val).tx = none → (v.port p.val).cut = none →
      (∀ tc h', v.classReady p.val tc = true → v.classHead p.val tc t = some h' → v.txTooLong p.val h' = false) →
      v.eligible p.val t false = h :: l → v.regF (Reg.EGR_TCCFG p.val h.tc) 1 0 ≠ 2 →
      Gives (.transmissionSelect p t) s fun u => (u.port p.val).tx = some ⟨h.q, h.copy, h.bytes, t, 0⟩ ∧
        (u.outq h.q).copies = (v.outq h.q).copies.drop 1 ∧ (∀ q, q ≠ h.q → (u.outq q).copies = (v.outq q).copies) ∧
        (∀ q, q ≠ p.val → u.port q = v.port q) ∧ u.threads = s.threads) ∧
    (∀ y, (v.port p.val).tx = some y → Gives (.transmitComplete p t) s fun u => .frame p.val y.bytes ∈ u.out ∧
      (u.port p.val).tx = none ∧ ∀ q, q ≠ p.val → (u.port q).tx = (v.port q).tx) ∧
    ((v.port p.val).tx = none → exec (.transmitComplete p t) s = .next v) ∧
    exec (.gateEntryChange p t) s = .next v ∧
    (∀ c n, (s.port p.val).gateEntry = n → s.gclOn p.val = true → (s.port p.val).cycleStart = some c →
      n + 1 < s.gclLen p.val (s.port p.val).gateBank →
      let e := (s.port p.val).gateStart + BitVec.ofNat 64 (s.gclTime p.val (s.port p.val).gateBank n)
      let e2 := e + BitVec.ofNat 64 (s.gclTime p.val (s.port p.val).gateBank (n + 1))
      (e ≤ t → (n + 2 < s.gclLen p.val (s.port p.val).gateBank → t < e2) → Gives (.gateEntryChange p t) s fun u =>
        (u.port p.val).gateEntry = n + 1 ∧ (u.port p.val).gateStart = e) ∧
      (t < e → Gives (.gateEntryChange p t) s fun u => (u.port p.val).gateEntry = n ∧
        (u.port p.val).gateStart = (s.port p.val).gateStart))

/-! ### Host interface -/

/-- APERTURE_WRITE (R405, R428): on an armed channel a write within its limit puts its bytes at the channel's address, advances the address and
takes the length from the limit, and disarms at zero; a block of DRAM that it covers in part and whose read fails stays as it is. A
poisoned, gapped or over-long write is dropped, disarms and leaves its cause; one over Max_Payload_Size, or to a channel that is not
armed, is dropped and recorded; one that enables no byte does nothing. -/
def Obligations.ApertureWrite : Prop :=
  ∀ (s : State) (c : Fin 8) (b : List Byte) (bad : Option (BitVec 48)), s.host.link = true → b.length ≤ s.host.mps → b ≠ [] →
    let a := s.chAddr c.val
    let lim := (s.reg (Reg.BLK_CH_LIMIT c.val)).toNat
    let tlp := b.map some
    let write (x : List (Option Byte)) (poison : Bool) : Instr := .apertureWrite c x poison false bad
    let idle (u : State) : Prop := u.mem = s.mem ∧ u.dram = s.dram ∧ u.threads = s.threads ∧ u.fronds = s.fronds ∧ u.sw = s.sw
    let recorded (u : State) (cause : Nat) (first : Word) : Prop := idle u ∧
      u.reg Reg.BLK_VIOL_CNT = satFld (s.reg Reg.BLK_VIOL_CNT) 31 0 1 ∧
      (s.host.viol.length < 16 → u.host.viol = s.host.viol ++ [⟨cause, BitVec.ofNat 32 a, first⟩]) ∧ u.chAddr c.val = a
    let first : Word := BitVec.ofNat 32 (leNat (b.take 4))
    let dropped (u : State) (cause : Nat) : Prop := (u.bulk c.val).armed = false ∧ u.regF (Reg.BLK_CH_STAT c.val) 30 24 = 64 + cause
    ((s.bulk c.val).armed = true → b.length ≤ lim → (∀ i < b.length, s.bulkWrites (a + i) 1 = true) → s.dramWaits a = false →
      (∀ i < b.length, regionOf (a + i) = .common ∨ regionOf (a + i) = .dram) → Gives (write tlp false) s fun u =>
        (∀ i < b.length, (∀ x, partBlock a b.length (bad.map (fun y => y.toNat)) = some x → a + i < x ∨ x + 64 ≤ a + i) →
          u.byte (a + i) = nth 0 b i) ∧
        (∀ x i, partBlock a b.length (bad.map (fun y => y.toNat)) = some x → i < 64 → u.byte (x + i) = s.byte (x + i)) ∧
        (∀ x, x < a ∨ a + b.length ≤ x → u.byte x = s.byte x) ∧ u.chAddr c.val = (a + b.length) % 2 ^ 48 ∧
        (u.reg (Reg.BLK_CH_LIMIT c.val)).toNat = lim - b.length ∧ (u.bulk c.val).armed = decide (lim ≠ b.length) ∧
        u.threads = s.threads ∧ u.sw = s.sw) ∧
    ((s.bulk c.val).armed = true → lim < b.length → Gives (write tlp false) s fun u => dropped u 4 ∧ recorded u 4 first) ∧
    (∀ x y, (s.bulk c.val).armed = true → x.length + y.length + 3 ≤ s.host.mps →
      Gives (write (some 1 :: x ++ none :: y ++ [some 2]) false) s fun u => dropped u 5 ∧ idle u) ∧
    (Gives (write tlp true) s fun u => dropped u 6 ∧ recorded u 6 first) ∧
    ((s.bulk c.val).armed = false → Gives (write tlp false) s fun u => recorded u 3 first ∧ u.bulk c.val = s.bulk c.val) ∧
    (∀ x : List (Option Byte), s.host.mps < x.length → Gives (write x false) s fun u => idle u ∧ u.bulk c.val = s.bulk c.val ∧
      u.reg Reg.BLK_VIOL_CNT = satFld (s.reg Reg.BLK_VIOL_CNT) 31 0 1) ∧
    ((s.bulk c.val).armed = true → exec (write [none] false) s = .next s)

/-- APERTURE_READ, PULL, PUSH (R430 to R432): a read answers the bytes at the channel's address and offset and changes none; a PULL sends a read
request within Max_Read_Request_Size and its 4 KiB page; a PUSH of one packet writes the bytes to the host and ends the command; a
command with the wrong direction, to an armed channel or with a full queue is refused in CMDSTAT.
READ_COMPLETION and PULL_TIMEOUT (R431): the completion of a PULL's last request writes its chunk and ends the command; data for no outstanding
request of a channel is dropped, and recorded with cause 10 when the tag's request has ended; a timeout ends the command. -/
def Obligations.BulkCommands : Prop :=
  (∀ (s : State) (c : Fin 8) (o : BitVec 20) (n : Fin 4097) (bad : Option Nat),
    let a := s.chAddr c.val
    let x := s.bulk c.val
    let h := s.reg64 (Reg.BLK_CH_HOST_LO c.val) (Reg.BLK_CH_HOST_HI c.val)
    let len := (s.reg (Reg.BLK_CH_LEN c.val)).toNat
    let stat (u : State) (k : Nat) : Prop := u.regF (Reg.BLK_CH_STAT c.val) 1 0 = k
    let idle (u : State) : Prop := u.mem = s.mem ∧ u.dram = s.dram ∧ u.threads = s.threads ∧ u.fronds = s.fronds ∧ u.sw = s.sw
    let refused (i : Instr) (k : Nat) : Prop := Gives i s fun u => stat u k ∧ (u = { s with regs := u.regs }) ∧
      ∀ o, o ≠ Reg.BLK_CH_STAT c.val → u.reg o = s.reg o
    (s.host.link = true → frondOf (a + o.toNat) = none → s.dramWaits (a + o.toNat) = false →
      (∀ i < n.val, s.bulkReads (a + o.toNat + i) 1 = true) →
      exec (.apertureRead c o n false) s = .next (s.emit (.apertureData false (s.bytes (a + o.toNat) n.val)))) ∧
    (s.host.link = false → frondOf (a + o.toNat) = none → exec (.apertureRead c o n false) s = .next s) ∧
    (x.fenced = false → x.armed = false → x.queue = [] → s.host.link = true →
      s.host.bme = true → s.ringRoom (8 + c.val) = true → s.mode ≠ .keep → s.dramWaits a = false → frondOf a = none → 0 < len →
      (c.val < 4 → s.bulkWrites a len = true → x.part = [] → Gives (.pull c) s fun u => idle u ∧ stat u 0 ∧
        (∃ k, (u.bulk c.val).queue = [k] ∧ k.addr = a ∧ k.host = h ∧ k.len = len ∧ k.cookie = s.reg (Reg.BLK_CH_COOKIE c.val) ∧
          k.moved = 0 ∧ k.pull = true ∧ k.started = true) ∧
        (u.bulk c.val).request = some (s.host.nextTag, min len (min s.host.mrrs (4096 - h % 4096))) ∧
        u.out = .hostRead s.host.nextTag h (min len (min s.host.mrrs (4096 - h % 4096))) :: s.out) ∧
      (4 ≤ c.val → s.bulkReads a len = true → len ≤ s.host.mps → h % 4096 + len ≤ 4096 → Gives (.push c none) s fun u =>
        idle u ∧ stat u 0 ∧ (u.bulk c.val).queue = [] ∧ .hostWrite (s.regB Reg.BLK_CFG 0) h (s.bytes a len) ∈ u.out ∧
        (u.ring (8 + c.val)).seq = (s.ring (8 + c.val)).seq + 1)) ∧
    (x.fenced = false → 4 ≤ c.val → refused (.pull c) 3) ∧
    (x.fenced = false → c.val < 4 → refused (.push c bad) 3) ∧
    (x.fenced = true ∨ x.armed = true ∧ c.val < 4 → refused (.pull c) 2) ∧
    (x.fenced = true ∨ x.armed = true ∧ 4 ≤ c.val → refused (.push c bad) 2) ∧
    (x.fenced = false → x.armed = false → 16 ≤ x.queue.length →
      (c.val < 4 → refused (.pull c) 1) ∧ (4 ≤ c.val → refused (.push c bad) 1)) ∧
    (x.fenced = false → x.armed = false → x.queue.length < 16 → ∀ k q, x.queue = k :: q → k.started = true ∨ s.bulkReady c.val k = false →
      (c.val < 4 → Gives (.pull c) s fun u => idle u ∧ stat u 0 ∧
        (u.bulk c.val).queue = x.queue ++ [⟨true, a, h, len, s.reg (Reg.BLK_CH_COOKIE c.val), 0, false⟩]) ∧
      (4 ≤ c.val → Gives (.push c bad) s fun u => idle u ∧ stat u 0 ∧
        (u.bulk c.val).queue = x.queue ++ [⟨false, a, h, len, s.reg (Reg.BLK_CH_COOKIE c.val), 0, false⟩]))) ∧
  (∀ (s : State) (c : Fin 4) (tag : Fin 1024) (k : BulkCmd) (b : List Byte) (n : Nat) (bad : Option (BitVec 48)),
    let ended (u : State) : Prop := (u.bulk c.val).queue = [] ∧ (u.bulk c.val).request = none ∧ (u.bulk c.val).part = [] ∧
      u.threads = s.threads ∧ u.sw = s.sw
    (s.pullOf tag.val = some c.val → (s.bulk c.val).queue = [k] → (s.bulk c.val).request = some (tag.val, n) →
      (b.length = n → 0 < n → k.started = true → k.moved = 0 → k.len = n → (s.bulk c.val).part = [] → n ≤ 256 - k.addr % 256 →
        k.addr + n ≤ 0x40000000000 → s.bulkWrites k.addr n = true → Gives (.readCompletion tag b none) s fun u => ended u ∧
          (∀ i < n, u.byte (k.addr + i) = nth 0 b i) ∧ (∀ x, x < k.addr ∨ k.addr + n ≤ x → u.byte x = s.byte x)) ∧
      (Gives (.pullTimeout c) s fun u => ended u ∧ u.mem = s.mem ∧ u.dram = s.dram ∧
        (tag.val, k.addr + k.moved) ∈ u.host.orphans)) ∧
    ((s.bulk c.val).request = none → exec (.pullTimeout c) s = .next s) ∧
    (s.pullOf tag.val = none →
      (∀ e : Nat × Nat, s.host.orphans.find? (fun e => decide (e.1 = tag.val)) = some e → Gives (.readCompletion tag b bad) s fun u =>
        u.mem = s.mem ∧ u.dram = s.dram ∧ u.threads = s.threads ∧ u.sw = s.sw ∧
        u.reg Reg.BLK_VIOL_CNT = satFld (s.reg Reg.BLK_VIOL_CNT) 31 0 1 ∧
        (s.host.viol.length < 16 → u.host.viol = s.host.viol ++ [⟨10, BitVec.ofNat 32 e.2, BitVec.ofNat 32 tag.val⟩])) ∧
      (s.host.orphans.find? (fun e => decide (e.1 = tag.val)) = none → exec (.readCompletion tag b bad) s = .next s)))

/-- HOST_LINK_RESET and PCIE_LINK_UP (R422, R440): a reset empties and disarms every bulk channel, returns Bus Master Enable, Max_Payload_Size,
Max_Read_Request_Size (128 and 512: log entry 15) and MSI-X to their defaults, keeps memory and the switch, and gives up the
host's debug lock; a link comes up with what was negotiated.
RING_SIGNAL (R434, R437): an available ring with a writeback due writes its WR to the host and signals its vector, which sends its message where
MSI-X is enabled and nothing masks it; a ring that signalled less than HOLDOFF ago writes back and signals later; one with
nothing due, or not available, does nothing. -/
def Obligations.HostLink : Prop :=
  (∀ (s : State) (down : Bool) (sp : Fin 6) (w : Fin 5) (bme : Bool) (mps : Fin 3) (mrrs : Fin 6),
    ((∀ c < 8, (s.bulk c).queue.length ≤ 16) → Gives (.hostLinkReset down) s fun u =>
      (∀ c < 8, (u.bulk c).queue = [] ∧ (u.bulk c).armed = false) ∧ u.host.bme = false ∧ u.host.mps = 128 ∧ u.host.mrrs = 512 ∧
      u.host.msi = Msix.reset ∧ u.host.d3 = false ∧ u.host.link = (if down then false else s.host.link) ∧
      u.mem = s.mem ∧ u.dram = s.dram ∧ u.sw = s.sw ∧ u.mode = s.mode ∧ u.fronds = s.fronds ∧
      (s.regF Reg.DBG_LOCK 9 8 = 1 → u.regF Reg.DBG_LOCK 9 8 = 0)) ∧
    (s.host.link = false → s.mode ≠ .keep → (∀ r, (s.ring r).held = []) → (∀ c, (s.bulk c).queue = []) →
      exec (.pcieLinkUp sp w bme mps mrrs) s = .next ({ s with host := { s.host with
        link := true
        speed := sp.val + 1
        width := 2 ^ w.val
        flit := decide (sp.val = 5)
        bme := bme
        mps := 128 * 2 ^ mps.val
        mrrs := 128 * 2 ^ mrrs.val } }.emit (.pin "PE_WAKE_N" true))) ∧
    (s.host.link = true ∨ s.mode = .keep → exec (.pcieLinkUp sp w bme mps mrrs) s = .next s)) ∧
  (∀ (s : State) (r : Fin 16) (t : DWord), s.tb.now ≤ t →
    let x := s.ring r.val
    let wb := Out.hostWrite false (s.reg64 (Reg.BLK_RNG_WB_LO r.val) (Reg.BLK_RNG_WB_HI r.val))
      (leBytes 4 (s.reg (Reg.BLK_RNG_WR r.val)).toNat)
    let v := s.regF (Reg.BLK_RNG_CFG r.val) 29 21
    let hold := s.regF (Reg.BLK_RNG_CFG r.val) 15 8 * 1000
    let only (u : State) (y : Ring) : Prop := u.ring r.val = y ∧ ∀ q, q ≠ r.val → u.ring q = s.ring q
    (s.ringUp r.val = true → x.due = true → (∀ w, x.signalled = some w → w.toNat + hold ≤ t.toNat) →
      Gives (.ringSignal r t) s fun u => CoresKept { s with host := u.host } u ∧ only u { x with
        due := false
        sig := false
        signalled := some t } ∧
        (s.host.msi.on = true → s.msixOpen v = true → u.out = .msix v (s.msixVec v).addr (s.msixVec v).data :: wb :: s.out) ∧
        (s.host.msi.on = true → s.msixOpen v = false → u.out = wb :: s.out ∧ v ∈ u.host.msi.pending) ∧
        (s.host.msi.on = false → u.out = wb :: s.out)) ∧
    (∀ w, s.ringUp r.val = true → x.due = true → x.signalled = some w → t.toNat < w.toNat + hold →
      Gives (.ringSignal r t) s fun u => u.out = wb :: s.out ∧ CoresKept { s with host := u.host } u ∧ only u { x with
        due := false
        sig := true }) ∧
    (s.ringUp r.val = true → x.due = false → x.sig = false → Gives (.ringSignal r t) s fun u => u.out = s.out ∧ only u x ∧
      CoresKept { s with host := u.host } u) ∧
    (s.ringUp r.val = false → exec (.ringSignal r t) s = .next (s.advanceTo t)))

/-! ### Debug, aborts, degraded operation, DRAM, modes -/

/-- Debug access (R493 to R503): a party takes a free lock and frees its own; the owner halts, resumes, steps, posts to, discards the staging of, and
writes a thread; a party that does not own the lock changes no thread and leaves violation record 9. -/
def Obligations.DebugResults : Prop :=
  ∀ (s : State) (p q : Party) (m : Bool) (v a : Word),
    let t := s.dbgThread
    let th := s.thr t
    let mine := s.ownsDebug p = true ∧ (s.frond (tidF t)).gated = false ∧ (s.frond (tidF t)).pllOff = false
    let rest (u : State) : Prop := u.mem = s.mem ∧ ∀ w : Tid, w ≠ t → u.thr w = s.thr w
    (s.jtagShut p = false → s.regF Reg.DBG_LOCK 9 8 = 0 → v.toNat % 4 = partyCode p → Gives (.dbgLock p v) s fun u =>
      u.ownsDebug p = true ∧ ∀ o, o ≠ Reg.DBG_LOCK → u.reg o = s.reg o) ∧
    (s.jtagShut p = false → s.ownsDebug p = true → v.toNat % 4 = 0 → Gives (.dbgLock p v) s fun u => u.regF Reg.DBG_LOCK 9 8 = 0) ∧
    (s.ownsDebug q = true → q ≠ p → exec (.dbgLock p v) s = .next s) ∧
    (s.ownsDebug .jtag = true → Gives .jtagTrstN s fun u => u.regF Reg.DBG_LOCK 9 8 = 0) ∧
    (s.ownsDebug .jtag = false → exec .jtagTrstN s = .next s) ∧
    (mine → th.halted = false → th.run = .running → Gives (.halt p m) s fun u => rest u ∧ u.thr t = { th with
      halted := true
      haltReq := false
      stepping := false
      haltReason := 1
      haltHost := decide (p = .host) }) ∧
    (∀ k, mine → th.halted = false → th.run = .waiting (.cq k) → Gives (.halt p m) s fun u => rest u ∧ (u.thr t).halted = true ∧
      (u.thr t).run = .running ∧ (u.thr t).stack = 1 :: th.stack) ∧
    (∀ k, mine → th.halted = false → th.run = .waiting (.event k) → Gives (.halt p m) s fun u => rest u ∧ (u.thr t).halted = true ∧
      (u.thr t).run = .running ∧ (u.thr t).stack = (th.evpend &&& k).setWidth 32 :: th.stack) ∧
    (∀ a n, mine → th.halted = false → th.run = .waiting (.mem a n) → Gives (.halt p m) s fun u => rest u ∧ u.thr t = { th with
      haltReq := true
      haltReason := 1 }) ∧
    (mine → th.halted = true → m = false → Gives (.halt p m) s fun u => u.threads = s.threads ∧ u.mem = s.mem) ∧
    (mine → th.halted = false → ∀ c ∈ ([.resumeThread p m, .step p m] : List Instr), Gives c s fun u => u.threads = s.threads ∧
      u.mem = s.mem) ∧
    (mine → th.halted = true → Gives (.resumeThread p m) s fun u => rest u ∧ u.thr t = { th with
      halted := false
      haltHost := false
      haltReason := 0 }) ∧
    (mine → th.halted = true → Gives (.step p m) s fun u => rest u ∧ u.thr t = { th with
      halted := false
      haltHost := false
      haltReason := 0
      stepping := true
      skipBp := true }) ∧
    (mine → Gives (.post p m) s fun u => rest u ∧ u.thr t = { th with evpend := th.evpend ||| 512 }) ∧
    (mine → th.halted = true → Gives (.discard p m) s fun u => rest u ∧ u.thr t = { th with
      staging := Vector.replicate 16 0
      staged := 0 }) ∧
    (mine → th.halted = false → Gives (.discard p m) s fun u => u.threads = s.threads ∧ u.mem = s.mem ∧
      u.reg Reg.BLK_VIOL_CNT = satFld (s.reg Reg.BLK_VIOL_CNT) 31 0 1) ∧
    (s.ownsDebug p = false → s.jtagShut p = false →
      ∀ c ∈ ([(.halt p m, 1), (.resumeThread p m, 2), (.step p m, 3), (.post p m, 4), (.discard p m, 5)] : List (Instr × Word)),
        Gives c.1 s fun u => u.threads = s.threads ∧ u.mem = s.mem ∧ (s.host.viol.length < 16 →
          u.host.viol = s.host.viol ++ [⟨9, BitVec.ofNat 32 Reg.DBG_TCMD, c.2⟩])) ∧
    (∀ i, s.ownsDebug p = true → th.halted = true → s.regF Reg.DBG_TREG_IDX 7 0 = i → Gives (.dbgTregData p v) s fun u => rest u ∧
      (i < 16 → i < th.stack.length → (u.thr t).stack.reverse[i]? = some v ∧ (u.thr t).stack.length = th.stack.length) ∧
      (∀ n : Fin 16, i = 16 + n.val → (u.thr t).locals = th.locals.set n v) ∧
      (i = 0x20 → (u.thr t).pc = v.truncate 13)) ∧
    (s.ownsDebug p = true → th.halted = false → Gives (.dbgTregData p v) s fun u => u.threads = s.threads ∧ u.mem = s.mem) ∧
    (∀ f : Fin 16, s.ownsDebug p = true →
      let ctl : Word := BitVec.ofNat 32 (2 ^ 31 + f.val)
      (s.lockEntry f.val a = none → Gives (.dbgLkrel p a ctl) s fun u => u.regF Reg.DBG_LKREL_CTL 29 28 = 1 ∧ u.mem = s.mem) ∧
      (∀ e, s.lockEntry f.val a = some e → (s.thr e.holder).halted = false → Gives (.dbgLkrel p a ctl) s fun u =>
        u.regF Reg.DBG_LKREL_CTL 29 28 = 2 ∧ u.lockEntry f.val a = some e ∧ u.mem = s.mem) ∧
      (∀ e, s.lockEntry f.val a = some e → (s.thr e.holder).halted = true → e.waiters = [] → lockAddrOk a = true →
        Gives (.dbgLkrel p a ctl) s fun u => u.regF Reg.DBG_LKREL_CTL 29 28 = 0 ∧ u.lockEntry f.val a = none ∧
          u.word (lockDev f.val a) = 0x40000000)) ∧
    (s.jtagShut p = false → Gives (.dbgCntclr p v) s fun u => u.mem = s.mem ∧ u.threads = s.threads ∧
      ∀ o ∈ s.regs.map (fun e => e.1), u.reg o =
        if inBlock (v.toNat % 4096) o then s.reg o &&& ~~~(BitVec.ofNat 32 (satMask o)) else s.reg o) ∧
    (s.jtagShut p = false → exec (.dbgTelCtl p v) s = .next (s.setReg Reg.DBG_TEL_CTL (v &&& 1)))

/-- Aborts (R480 to R484, Table 21-1): in every mode but ENUMERATE and KEEP an abort of a unit that is in service is done, within its bound, and
remembered; one of a unit that is fenced, or whose frond's PLL is off, is complete at once and does nothing; while one is in progress up
to four wait and a further one is refused, as it is in those two modes. What each does to its target. The duration is free below the
bound (log entry 7). -/
def Obligations.AbortResults : Prop :=
  ∀ (s : State) (t : Tid) (k : Fin 256) (f : Fin 16) (n : Fin 5) (q : Fin 4) (c : Fin 8) (p : Fin 64),
    let l : List (Instr × Nat × Nat × Nat) :=
      [(.threadAbort t, 1, t.toNat, 2), (.coreAbort k, 2, k.val, 4), (.frondAbort f, 3, f.val, 16),
        (.coprocessorAbort f n, 4, f.val * 8 + n.val, 8), (.tableEngineAbort q, 5, q.val, 4), (.bulkChannelAbort c, 6, c.val, 16),
        (.dramChannelAbort c, 7, c.val, 8), (.portAbort p, 8, p.val, 128), (.dataPlaneAbort, 9, 0, 128)]
    let refused (u : State) : Prop := u.regB Reg.MGT_ABORT_STAT 28 = true
    let idle (u : State) : Prop := u.threads = s.threads ∧ u.fronds = s.fronds ∧ u.cores = s.cores ∧ u.sw = s.sw ∧ u.mem = s.mem ∧
      u.dram = s.dram ∧ u.tbl = s.tbl ∧ u.dc = s.dc ∧ ∀ j, u.bulk j = s.bulk j
    let open_ := s.mode.acceptsReset = true ∧ s.abortBusy = false ∧ s.rs.waiting = []
    let acts (kind index : Nat) : Prop := open_ ∧ s.abortsAtOnce kind index = false
    (open_ → ∀ x ∈ l, Gives x.1 s fun u => u.regB Reg.MGT_ABORT_STAT 30 = true ∧ ¬refused u ∧ u.regB Reg.MGT_ABORT_STAT 29 = false ∧
      (s.abortsAtOnce x.2.1 x.2.2.1 = false → u.rs.last = some (x.2.1, x.2.2.1) ∧ u.regF Reg.MGT_ABORT_STAT 15 0 ≤ x.2.2.2 * 100 ∧
        ∃ w, u.rs.cur = some (s.tb.now + BitVec.ofNat 64 (u.regF Reg.MGT_ABORT_STAT 15 0 * 10), w)) ∧
      (s.abortsAtOnce x.2.1 x.2.2.1 = true → u.rs.last = none ∧ u.regF Reg.MGT_ABORT_STAT 15 0 = 0 ∧ idle u)) ∧
    (s.mode.acceptsReset = false → ∀ x ∈ l, Gives x.1 s fun u => refused u ∧ idle u) ∧
    (s.mode.acceptsReset = true → s.abortBusy = true → ∀ x ∈ l, Gives x.1 s fun u => idle u ∧
      (s.rs.waiting.length < 4 → ¬refused u ∧ u.rs.waiting = s.rs.waiting ++ [BitVec.ofNat 32 (x.2.2.1 * 16 + x.2.1)]) ∧
      (4 ≤ s.rs.waiting.length → refused u ∧ u.rs.waiting = s.rs.waiting)) ∧
    (acts 1 t.toNat → (s.thr t).cur = none → (s.thr t).spore0 = none → (s.thr t).spore1 = none → (s.thr t).task = none →
      (s.frond (tidF t)).locks = [] → s.dlocks = [] → Gives (.threadAbort t) s fun u =>
        (u.thr t).epoch = (s.thr t).epoch + 1 ∧ (u.thr t).stack = [] ∧ (u.thr t).locals = Vector.replicate 16 0 ∧
        (u.thr t).storeBuf = [] ∧ (u.thr t).evpend = 0 ∧ (u.thr t).faultFrame = none ∧ (u.thr t).role = (s.thr t).role ∧
        ∀ v : Tid, v ≠ t → u.thr v = s.thr v) ∧
    (acts 2 k.val → (∀ v ∈ coreTids k.val, (s.thr v).cur = none ∧ (s.thr v).spore0 = none ∧ (s.thr v).spore1 = none ∧
      (s.thr v).task = none) → (s.frond (k.val / 16)).locks = [] → s.dlocks = [] → Gives (.coreAbort k) s fun u =>
        ∀ v : Tid, (v ∈ coreTids k.val → (u.thr v).epoch = (s.thr v).epoch + 1 ∧ (u.thr v).stack = [] ∧ (u.thr v).evpend = 0 ∧
          (u.thr v).storeBuf = [] ∧ (u.thr v).role = (s.thr v).role) ∧ (v ∉ coreTids k.val → u.thr v = s.thr v)) ∧
    (acts 3 f.val → Gives (.frondAbort f) s fun u => (∀ x ∈ (u.frond f.val).queues, x.ofHost = false) ∧
      (∀ x < 64, (u.chan (f.val * 64 + x)).msgs = []) ∧ ∀ v ∈ frondTids f.val, (u.thr v).stack = [] ∧ (u.thr v).storeBuf = []) ∧
    (acts 4 (f.val * 8 + n.val) → Gives (.coprocessorAbort f n) s fun u => (∀ x ∈ (u.frond f.val).queues, x.kind ≠ n.val) ∧
      (u.frond f.val).queues = (s.frond f.val).queues.filter (fun x => decide (x.kind ≠ n.val)) ∧ u.mem = s.mem ∧ u.dram = s.dram) ∧
    (acts 5 q.val → Gives (.tableEngineAbort q) s fun u => u.tbl.walk = none ∧ u.tbl.slots = s.tbl.slots ∧ u.threads = s.threads) ∧
    (acts 6 c.val → (s.bulk c.val).queue.length ≤ 16 → Gives (.bulkChannelAbort c) s fun u =>
      (u.bulk c.val).queue = [] ∧ (u.bulk c.val).armed = false ∧ u.mem = s.mem ∧ u.dram = s.dram ∧ u.threads = s.threads ∧
      ∀ j, j ≠ c.val → u.bulk j = s.bulk j) ∧
    (open_ → Gives (.dramChannelAbort c) s fun u => u.chRetired c.val = true) ∧
    (acts 7 c.val → Gives (.dramChannelAbort c) s fun u => (∀ i < 4, u.chRetired (4 * (c.val / 4) + i) = true) ∧
      u.dram = s.dram ∧ u.mem = s.mem) ∧
    (acts 8 p.val → Gives (.portAbort p) s fun u => (u.port p.val).link = false ∧ (u.port p.val).tx = none ∧ (u.port p.val).cut = none ∧
      u.portHeld p.val = true ∧ p.val ∈ u.ct.downs ∧ ∀ x ∈ s.portQueues p.val, (u.outq x).copies = []) ∧
    (acts 9 0 → Gives .dataPlaneAbort s fun u => u.sw.frames = [] ∧ u.sw.spores = [] ∧ u.sw.rx = [] ∧ u.sw.slowQ = [] ∧
      u.sw.residue = [] ∧ (∀ x, (u.outq x).copies = []) ∧ ∀ x, (u.chan x).msgs = [])

/-- MGT_DP_RESET, ABORT_FENCED, RAS_PORTHOLD, THERMAL, LANE and MODULE_POLL (R469, R482, R483, R489 to R491, R520): a data-plane reset with its
key empties the data plane; the unit of an abort that passed its bound is fenced, shown here on a bulk channel; an uncorrectable error in
a core fences it, corrected ones are counted; a port held down is released; a hot junction, a failed lane and its port are told of. -/
def Obligations.DegradedResults : Prop :=
  ∀ (s : State) (v : Word) (c : Fin 8) (k : Fin 256) (n : Nat) (temp : Byte) (l : Fin 64) (present los : Bool),
    (v.toNat % 256 = 0xA5 → s.mode.acceptsReset = true → Gives (.mgtDpReset v) s fun u => u.sw.frames = [] ∧ u.sw.spores = [] ∧
      u.sw.rx = [] ∧ u.sw.slowQ = [] ∧ u.sw.residue = [] ∧ (∀ x, (u.outq x).copies = []) ∧ (∀ x, (u.chan x).msgs = []) ∧
      u.sg.built = [] ∧ u.regB Reg.MGT_RST_CAUSE 3 = true ∧ u.dram = s.dram ∧ u.tbl = s.tbl ∧ u.mode = s.mode) ∧
    (v.toNat % 256 = 0xA5 → s.mode.acceptsReset = false → exec (.mgtDpReset v) s = .next s) ∧
    (v.toNat % 256 ≠ 0xA5 → Gives (.mgtDpReset v) s fun u => u.sw = s.sw ∧ u.threads = s.threads ∧ u.mem = s.mem) ∧
    (s.rs.last = some (6, c.val) → s.rs.waiting = [] → Gives (.abortFenced .bound) s fun u => u.bulk c.val = { s.bulk c.val with
        fenced := true } ∧ u.rs.last = none ∧ u.rs.cur = none ∧ u.regF Reg.MGT_ABORT_STAT 15 0 = 1600 ∧
      u.regB Reg.MGT_ABORT_STAT 29 = true ∧ u.regB Reg.RAS_REPLACE 7 = true ∧ ∀ j, j ≠ c.val → u.bulk j = s.bulk j) ∧
    (∀ addr, (s.core k.val).fenced = false → Gives (.abortFenced (.coreError k addr)) s fun u => (u.core k.val).fenced = true ∧
      u.regB Reg.RAS_REPLACE 7 = true ∧ ∀ v ∈ coreTids k.val, (u.thr v).stack = [] ∧ (u.thr v).storeBuf = []) ∧
    (∀ addr, (s.core k.val).fenced = true → exec (.abortFenced (.coreError k addr)) s = .next s) ∧
    (s.rs.last = none → exec (.abortFenced .bound) s = .next s) ∧
    ((s.core k.val).ceCount + n ≤ s.regF Reg.RAS_CETHR 31 16 → exec (.abortFenced (.coreCorrected k n)) s =
      .next (s.setCore k.val { s.core k.val with ceCount := (s.core k.val).ceCount + n })) ∧
    (∀ (q : Party) (hi : Bool), s.jtagShut q = false → Gives (.rasPorthold q hi v) s fun u =>
      let r := if hi then Reg.RAS_PORTHOLD_HI else Reg.RAS_PORTHOLD_LO
      (∀ i < 32, u.regB r i = (s.regB r i && !(v.getLsbD i && !(s.port ((if hi then 32 else 0) + i)).fenced))) ∧
        ∀ o, o ≠ r → u.reg o = s.reg o) ∧
    (Gives (.thermal temp) s fun u => u.regF Reg.RAS_THERM 31 24 = temp.toNat ∧ u.regF Reg.RAS_THERM 7 0 = s.regF Reg.RAS_THERM 7 0 ∧
      ((s.regF Reg.RAS_THERM 7 0 : Int) ≤ temp.toInt → u.regB Reg.RAS_REPLACE 6 = true) ∧
      (temp.toInt < (s.regF Reg.RAS_THERM 7 0 : Int) → u.reg Reg.RAS_REPLACE = s.reg Reg.RAS_REPLACE ∧ u.ras = s.ras)) ∧
    (s.signalLost l.val = false → Gives (.lane l .failed) s fun u => (u.port (s.lanePort l.val)).link = false ∧
      s.lanePort l.val ∈ u.ct.downs ∧ u.regB Reg.RAS_REPLACE 5 = true) ∧
    (s.signalLost l.val = true → exec (.lane l .failed) s = .next s) ∧
    (Sparse.get (fun _ => 0) s.rs.lanes l.val + n ≤ s.regF Reg.RAS_CETHR 15 0 * 1024 → Gives (.lane l (.corrected n)) s fun u =>
      Sparse.get (fun _ => 0) u.rs.lanes l.val = Sparse.get (fun _ => 0) s.rs.lanes l.val + n ∧ u.regs = s.regs ∧ u.ras = s.ras) ∧
    (Gives (.modulePoll l present los) s fun u => u.signalLost l.val = los ∧ u.regs = s.regs ∧ u.sw = s.sw ∧
      ∀ j : Fin 64, j ≠ l → u.signalLost j.val = s.signalLost j.val)

/-- The DRAM controller (R394 to R408): TRAINING ends with DRAM ready and the groups whose channels passed in service; RETRAIN pauses its
subchannel; REFRESH counts what it does during a burst. Requests reach their channel, which serves one of them: outside PANIC that of the
next waiting requester in rotating order, in PANIC the real-time port's, or where the DMA floor claims the slot the next DMA port's; the
fill follows PANIC; the served access counts its error. SCRUB counts its block, in a slot that nobody uses. -/
def Obligations.DramResults : Prop :=
  ∀ (s : State) (fail : BitVec 16) (j : Fin 16) (dur : Fin 1501) (due full : Bool) (a : BitVec 48) (t : DWord) (c : Fin 8)
    (reqs : List DramReq) (pick : Nat) (claimed : Bool) (fill : Fin 4097), s.tb.now ≤ t →
    let panic := (s.dc.panic || decide (s.regF Reg.DRC_PANIC_HI 12 0 < fill.val)) &&
      !(s.dc.panic && decide (fill.val < s.regF Reg.DRC_PANIC_LO 12 0))
    let freeAt := s.dc.pauseEnd = 0 ∨ s.dc.pauseEnd.toNat + 10000 ≤ t.toNat
    let access (e : Ecc) : Instr := .dramAccess c e fill t reqs pick claimed
    let q := (s.dramQ c.val).arrive (reqs.filter (fun r => s.inDram r.addr.toNat 1 && decide (s.dramChan r.addr.toNat = c.val)))
    let l := s.dramServable q.queue t
    let waits (i : Nat) : Prop := ∃ e ∈ l, e.2.src.val = i
    let turns (i : Nat) : Nat := (i + 19 - q.turn) % 20
    let serves (u : State) (of : Nat → Prop) : Prop := let i := (u.dramQ c.val).turn
      waits i ∧ of i ∧ (∀ k, waits k → of k → turns i ≤ turns k) ∧
      (u.dramQ c.val).queue.length + (u.dramQ c.val).held.length + 1 = q.queue.length + q.held.length ∧
      ∀ d, d ≠ c.val → u.dramQ d = s.dramQ d
    (s.dc.training = true → Gives (.training fail) s fun u => u.dc.ready = true ∧ u.dc.training = false ∧
      (∀ c < 8, fail.getLsbD (2 * c) = true ∨ fail.getLsbD (2 * c + 1) = true → u.chRetired c = true) ∧
      (fail = 0 → ∀ c < 8, u.chRetired c = false) ∧ u.mem = s.mem ∧ u.threads = s.threads) ∧
    (s.dc.training = false → exec (.training fail) s = .next s) ∧
    (s.dc.ready = true → freeAt → (s.dc.panic = true → due = true) → Gives (.retrain j dur due t) s fun u =>
      u.dc = { s.dc with
        pauseEnd := t + BitVec.ofNat 64 dur.val
        pauseSub := j.val } ∧ u.tb.now = t ∧ u.mem = s.mem ∧ u.dram = s.dram ∧
      u.reg (Reg.DRC_CH_STATUS (j.val / 2)) = if s.dc.panic then satFld (s.reg (Reg.DRC_CH_STATUS (j.val / 2))) 23 16 1
        else s.reg (Reg.DRC_CH_STATUS (j.val / 2))) ∧
    (s.dc.ready = false ∨ ¬freeAt ∨ s.dc.panic = true ∧ due = false → exec (.retrain j dur due t) s = .next (s.advanceTo t)) ∧
    (s.dc.ready = true → exec (.refresh true full) s =
      .next (s.bump (if s.dc.panic && !full then Reg.DRC_CNT_POSTPONE else Reg.DRC_CNT_INSERT))) ∧
    (s.dc.ready = false → exec (.refresh true full) s = .next s) ∧
    (exec (.refresh false full) s = .next s) ∧
    (∀ e, Gives (access e) s fun u => u.dc.panic = panic ∧ u.dc.rtFill = fill.val ∧ u.mem = s.mem ∧ u.dram = s.dram ∧ u.threads = s.threads) ∧
    (∀ e, s.dc.ready = false ∨ l = [] → Gives (access e) s fun u => u.dramQ c.val = q ∧ u.ras = s.ras ∧
      ∀ d, d ≠ c.val → u.dramQ d = s.dramQ d) ∧
    (s.dc.ready = true → l ≠ [] → q.turn < 20 →
      (s.dc.panic = false → Gives (access .clean) s fun u => serves u (fun _ => True)) ∧
      (s.dc.panic = true → waits 0 → (claimed = false ∨ ∀ i, waits i → ¬(1 ≤ i ∧ i ≤ 16)) → Gives (access .clean) s fun u =>
        serves u (fun i => i = 0)) ∧
      (s.dc.panic = true → claimed = true → (∃ i, waits i ∧ 1 ≤ i ∧ i ≤ 16) → Gives (access .clean) s fun u =>
        serves u (fun i => 1 ≤ i ∧ i ≤ 16))) ∧
    (∀ r i, s.dc.ready = true → l = [(i, r)] → q.turn < 20 → s.dramRetired r.addr.toNat = false → s.dramChan r.addr.toNat = c.val →
      (Gives (access .clean) s fun u => u.ras = s.ras ∧ u.reg (Reg.DRC_CH_CE c.val) = s.reg (Reg.DRC_CH_CE c.val)) ∧
      (Gives (access .recovered) s fun u =>
        u.reg (Reg.DRC_CH_RECOVERED c.val) = satFld (s.reg (Reg.DRC_CH_RECOVERED c.val)) 31 0 1 ∧ u.ras = s.ras) ∧
      (∀ d, (s.errWin c.val).ce ≠ s.regF Reg.DRC_ERRTHR 31 16 → Gives (access (.corrected d)) s fun u =>
        u.reg (Reg.DRC_CH_CE c.val) = satFld (s.reg (Reg.DRC_CH_CE c.val)) 31 0 1 ∧ u.regB (Reg.DRC_CH_ELOG0 c.val) 31 = true ∧
        u.ras = s.ras) ∧
      (s.regF Reg.DRC_ERRTHR 15 8 = 0 → s.ras.length < 64 → Gives (access .uncorrectable) s fun u =>
        u.reg (Reg.DRC_CH_UE c.val) = satFld (s.reg (Reg.DRC_CH_UE c.val)) 31 0 1 ∧
        ∃ r, u.ras = s.ras ++ [r] ∧ r.code = 3 ∧ r.object = BitVec.ofNat 32 c.val ∧ r.severity = 1)) ∧
    (s.dc.ready = true → s.inDram a.toNat 1 = true → 0 < s.dc.scrubLeft → (s.dramServable (s.dramQ (s.dramChan a.toNat)).queue t).isEmpty →
      t.toNat < s.dc.scrubStart.toNat + s.regF Reg.DRC_SCRUB 15 0 * 3600000000000 → Gives (.scrub a .clean t) s fun u =>
        u.dc = { s.dc with scrubLeft := s.dc.scrubLeft - 1 } ∧ u.regs = s.regs ∧ u.mem = s.mem ∧ u.dram = s.dram) ∧
    (∀ e, s.dc.ready = false ∨ s.inDram a.toNat 1 = false → exec (.scrub a e t) s = .next (s.advanceTo t))

/-- Modes and resets (R455 to R470, R475, R519): RUN and DRAIN are taken in the modes of Table 20-2 while the tick runs, and otherwise refused (a
resume image has at most 32,768 pages: the model's bound); a command while one waits is dropped; KEEP_ENTRY enters KEEP
with the next image number, and WAKE_N and the rising edge of PE_PERST_N leave it for LOAD; a power-on and a warm reset lead to
ENUMERATE and empty threads, tables and memory; CLK_PLLOFF acts in LOAD alone. -/
def Obligations.ModeResults : Prop :=
  ∀ (s : State) (head ok keep : Bool) (fail : BitVec 16) (v : Word) (t : DWord),
    let taken := s.md.cmd = none ∧ s.regB Reg.TICK_CTRL 0 = true
    (taken → s.mode.takes 1 = true → Gives .run s fun u => u.md.cmd = some (1, false, false) ∧ u.regF Reg.MGT_MODE_STAT 1 0 = 1 ∧
      u.host.hbTicks = 0 ∧ u.mode = s.mode) ∧
    (taken → s.mode.takes 2 = true → Gives (.drain false) s fun u => u.md.cmd = some (2, false, false) ∧
      u.regF Reg.MGT_MODE_STAT 1 0 = 1 ∧ u.mode = s.mode) ∧
    (taken → s.mode.takes 2 = true → s.keepSetBad 32768 = false → Gives (.drain true) s fun u => u.md.cmd = some (2, true, false) ∧
      u.regF Reg.MGT_MODE_STAT 1 0 = 1 ∧ u.mode = s.mode) ∧
    (s.md.cmd = none → s.regB Reg.TICK_CTRL 0 = false → ∀ x ∈ ([(.run, 1), (.drain false, 2)] : List (Instr × Nat)),
      s.mode.takes x.2 = true → Gives x.1 s fun u => u.md.cmd = none ∧ u.regF Reg.MGT_MODE_STAT 1 0 = 2 ∧
        u.regF Reg.MGT_MODE_STAT 15 8 = 2 ∧ u.mode = s.mode) ∧
    (s.md.cmd = none → s.mode.takes 2 = true → s.regF Reg.DRC_KEEP 15 0 = 0 → Gives (.drain true) s fun u => u.md.cmd = none ∧
      u.regF Reg.MGT_MODE_STAT 1 0 = 2 ∧ u.regF Reg.MGT_MODE_STAT 15 8 = 6) ∧
    (s.md.cmd = none → ∀ x ∈ ([(.run, 1), (.drain keep, 2)] : List (Instr × Nat)), s.mode.takes x.2 = false →
      Gives x.1 s fun u => u.md.cmd = none ∧ u.regF Reg.MGT_MODE_STAT 1 0 = 2 ∧ u.regF Reg.MGT_MODE_STAT 15 8 = 1 ∧ u.mode = s.mode) ∧
    (s.md.cmd ≠ none → ∀ c ∈ ([.run, .drain keep] : List Instr), Gives c s fun u => u.md = s.md ∧ u.mode = s.mode ∧
      u.reg Reg.MGT_MODE_STAT = s.reg Reg.MGT_MODE_STAT) ∧
    (s.md.entering = true → s.md.wake = none → Gives (.keepEntry t) s fun u => u.mode = .keep ∧
      u.reg Reg.MGT_KEEP_SEQ = s.reg Reg.MGT_KEEP_SEQ + 1 ∧ u.threads = [] ∧ u.mem = [] ∧ u.md.snap.isSome = true ∧ u.tk.number = s.tk.number) ∧
    (s.md.entering = false → exec (.keepEntry t) s = .next (s.advanceTo t)) ∧
    (∀ x, s.mode = .keep → s.md.snap = some x → ∀ c ∈ ([.wakeN fail false, .pePerstN true fail false] : List Instr), Gives c s fun u =>
      u.mode = .load ∧ u.md.cause = 5 ∧ u.regF Reg.MGT_KEEP_STAT 2 0 = 3 ∧ u.regB Reg.MGT_RST_CAUSE 4 = true) ∧
    (s.mode ≠ .keep → s.md.entering = false → ∀ c ∈ ([.wakeN fail ok, .pePerstN true fail ok] : List Instr), exec c s = .next s) ∧
    (s.mode ≠ .keep → s.md.entering = true → ∀ ok, Gives (.wakeN fail ok) s fun u => u.md.wake = some ⟨fail, ok, false⟩ ∧ u.mode = s.mode) ∧
    (Gives (.pePerstN false fail ok) s fun u => u.host.link = false ∧ u.host.bme = false ∧ u.mode = s.mode ∧ u.mem = s.mem) ∧
    (Gives (.porstN head) s fun u => u.mode = .enumerate ∧ u.threads = [] ∧ u.fronds = [] ∧ u.mem = [] ∧ u.tb.now = 0 ∧
      u.tbl = TableUnit.reset ∧ u.cn.head = head ∧ u.pending = s.pending) ∧
    (∀ c ∈ ([.wrstN, .mgtReset 0xA5] : List Instr), Gives c s fun u => u.mode = .enumerate ∧ u.threads = [] ∧ u.fronds = [] ∧ u.mem = [] ∧
      u.tbl = TableUnit.reset ∧ u.cn.addr = s.cn.addr ∧ u.replHist = s.replHist ∧ u.tb.now.toNat = s.tb.now.toNat - s.tb.now.toNat % 40) ∧
    (v.toNat % 256 ≠ 0xA5 → Gives (.mgtReset v) s fun u => u.mode = s.mode ∧ u.threads = s.threads ∧ u.mem = s.mem) ∧
    (s.mode ≠ .load → Gives (.clkPlloff v) s fun u => u.reg Reg.CLK_PLLOFF = s.reg Reg.CLK_PLLOFF ∧ u.fronds = s.fronds ∧
      (s.host.viol.length < 16 → u.host.viol = s.host.viol ++ [⟨2, BitVec.ofNat 32 Reg.CLK_PLLOFF, v⟩])) ∧
    (s.mode = .load → (∀ t ∈ allTids, (s.thr t).role = .idle) → Gives (.clkPlloff v) s fun u =>
      ∀ f : Fin 16, u.regB Reg.CLK_PLLOFF f.val = v.getLsbD f.val ∧ (v.getLsbD f.val = true → (u.frond f.val).pllOff = true)) ∧
    (exec .vddIo18InRange s = .next (({ s with dc := { s.dc with pwren := 0xFFFF } } : State).emit (.pin "DIMM_PWREN" true)))

/-! ### Tables and coprocessors -/

/-- Table operations by the command register (R302, R307 to R311, R317, Table 12-4): what each does to the slots, its code and what it reads back.
`w` is the staging, t the table. An operation that meets an uncorrectable slot ends UNCORR and invalidates it, a LOOKUP misses; a busy
register ignores the write. -/
def Obligations.TableResults : Prop :=
  ∀ (s : State) (v : Word) (i : Nat) (e : TEntry), s.tblBusy = false → s.tbl.walk = none → s.tbl.fenced = 0 →
    let t := if v.getLsbD 30 then 1 else 0
    let w := s.tblStaging
    let idx := s.regF Reg.TBL_INDEX 17 0
    let code (u : State) (n : Nat) : Prop := u.regF Reg.TBL_CMD 23 16 = n ∧ u.regB Reg.TBL_CMD 31 = false ∧ u.mem = s.mem ∧
      u.threads = s.threads ∧ u.sw = s.sw
    let answer (u : State) (i m : Nat) : Prop := u.regF Reg.TBL_RESULT 17 0 = i ∧ u.regF Reg.TBL_RESULT 29 24 = m
    let moves := s.regF Reg.TBL_RESULT 29 24
    let same (u : State) : Prop := ∀ t' j, j < 262144 → u.slot t' j = s.slot t' j
    let but (u : State) (i : Nat) : Prop := ∀ t' j, j < 262144 → ¬(t' = t ∧ j = i) → u.slot t' j = s.slot t' j
    let shows (u : State) (l : List Word) : Prop := ∀ k < 8, u.reg (Reg.TBL_ENTRY k) = nth 0 l k
    let fresh : TEntry := ⟨w.take 7, false, false, none⟩
    (s.entryOk t w = true → s.findKey t w = none → (candidates (keyBytes t w) (s.seeds t)).findSome? (fun g => s.freeIn t g) = some i →
      Gives (.insert (.reg v) none) s fun u => u.slot t i = some fresh ∧ but u i ∧ code u 0 ∧ (i < 262144 → answer u i 0)) ∧
    (s.entryOk t w = true → s.findKey t w = none → s.place t fresh = none → Gives (.insert (.reg v) none) s fun u => same u ∧ code u 0x52 ∧
      u.reg Reg.TBL_NRH_CNT = satFld (s.reg Reg.TBL_NRH_CNT) 31 0 1) ∧
    (∀ x m, s.entryOk t w = true → s.findKey t w = none → s.place t fresh = some (x, i, m) → i < 262144 → m < 64 →
      Gives (.insert (.reg v) none) s fun u => u.slot t i = some fresh ∧ code u 0 ∧ answer u i m) ∧
    (s.entryOk t w = true → s.findKey t w = some i → s.slot t i = some e →
      (Gives (.insert (.reg v) none) s fun u => same u ∧ code u 0x51 ∧ shows u (entryWords (some e))) ∧
      (i ≠ idx → idx / 4 ∈ candidates (keyBytes t w) (s.seeds t) → s.slot t idx = none → Gives (.writeIndex (.reg v) none) s fun u =>
        same u ∧ code u 0x51 ∧ shows u (entryWords (some e))) ∧
      (Gives (.update (.reg v) none) s fun u => code u 0 ∧ but u i ∧ u.slot t i = some { e with
        words := if t = 0 then e.words.take 2 ++ (w.drop 2).take 5 else w.take 7
        writer := none })) ∧
    (s.entryOk t w = false → ∀ c ∈ ([.insert (.reg v) none, .update (.reg v) none, .writeIndex (.reg v) none] : List Instr),
      Gives c s fun u => same u ∧ code u 0x53) ∧
    (s.findKey t w = some i → s.slot t i = some e →
      (Gives (.delete (.reg v) none) s fun u => u.slot t i = none ∧ but u i ∧ code u 0 ∧
        u.reg (Reg.TBL_USED t) = s.reg (Reg.TBL_USED t) - 1) ∧
      (e.hit = true → (t = 1 ∨ (e.w 2).getLsbD 15 = false) → Gives (.deleteIfIdle (.reg v) none) s fun u =>
        u.slot t i = some { e with hit := false } ∧ but u i ∧ code u 0x54) ∧
      (e.hit = false → (t = 1 ∨ (e.w 2).getLsbD 15 = false) → Gives (.deleteIfIdle (.reg v) none) s fun u =>
        u.slot t i = none ∧ but u i ∧ code u 0) ∧
      (t = 0 → (e.w 2).getLsbD 15 = true → Gives (.deleteIfIdle (.reg v) none) s fun u => same u ∧ code u 0x55) ∧
      (Gives (.lookup (.reg v) none) s fun u => same u ∧ code u 0 ∧ shows u (entryWords (some e)))) ∧
    (s.entryOk t w = true → s.findKey t w = none → Gives (.update (.reg v) none) s fun u => same u ∧ code u 0x50) ∧
    (s.findKey t w = none → ∀ c ∈ ([.delete (.reg v) none, .deleteIfIdle (.reg v) none, .lookup (.reg v) none] : List Instr),
      Gives c s fun u => same u ∧ code u 0x50) ∧
    (Gives (.readIndex (.reg v) none) s fun u => same u ∧ code u 0 ∧ shows u (entryWords (s.slot t idx)) ∧ answer u idx moves) ∧
    (s.entryOk t w = true → idx / 4 ∉ candidates (keyBytes t w) (s.seeds t) →
      Gives (.writeIndex (.reg v) none) s fun u => same u ∧ code u 0x56) ∧
    (s.entryOk t w = true → idx / 4 ∈ candidates (keyBytes t w) (s.seeds t) → s.slot t idx = none → s.findKey t w = none →
      Gives (.writeIndex (.reg v) none) s fun u => u.slot t idx = some fresh ∧ but u idx ∧ code u 0 ∧ answer u idx moves) ∧
    (∀ b : Fin 262144, (∀ c ∈ ([.insert (.reg v) (some b), .update (.reg v) (some b), .delete (.reg v) (some b), .deleteIfIdle (.reg v) (some b),
        .readIndex (.reg v) (some b), .writeIndex (.reg v) (some b)] : List Instr),
        Gives c s fun u => u.slot t b.val = none ∧ but u b.val ∧ code u 0x45) ∧
      Gives (.lookup (.reg v) (some b)) s fun u => same u ∧ code u 0x50) ∧
    (∀ (x : State) (b : Option (Fin 262144)), x.tblBusy = true → ∀ c ∈ ([.insert (.reg v) b, .update (.reg v) b, .delete (.reg v) b,
      .deleteIfIdle (.reg v) b, .lookup (.reg v) b, .readIndex (.reg v) b, .writeIndex (.reg v) b, .flushPort (.reg v), .flushVid (.reg v),
      .ageStep (.reg v)] : List Instr), Gives c x fun u => u.tbl = x.tbl ∧ u.reg Reg.TBL_CMD = x.reg Reg.TBL_CMD ∧
        u.reg Reg.BLK_VIOL_CNT = satFld (x.reg Reg.BLK_VIOL_CNT) 31 0 1 ∧ u.mem = x.mem ∧ u.threads = x.threads)

/-- Walks, rehash and scrub (R307, R315 to R320): a walk starts at its bucket, busy; its last step ends it, and in the bucket a flush removes what
it names while ageing clears HIT or removes; an uncorrectable slot ends it; a rehash makes the next seed pair current; a migration step
moves an entry, leaves one without room as stuck, and the last one ends it; scrub removes the entry it finds in error. -/
def Obligations.WalkResults : Prop :=
  ∀ (s : State) (v : Word) (w : Walk) (t : Fin 2) (i : Fin 262144) (e : TEntry),
    (s.tblBusy = false → let tv := if v.getLsbD 30 then 1 else 0
      (∀ x ∈ ([(.flushPort (.reg v), 8), (.flushVid (.reg v), 9)] : List (Instr × Nat)), Gives x.1 s fun u =>
        u.tbl.walk = some ⟨x.2, tv, 0, 0, 65536, s.regF Reg.TBL_WALK 11 0, s.regB Reg.TBL_WALK 31, 0, 0⟩ ∧ u.tblBusy = true ∧
        u.tbl.slots = s.tbl.slots) ∧
      (Gives (.ageStep (.reg v)) s fun u => ∃ y, u.tbl.walk = some y ∧ y.op = 10 ∧ y.table = tv ∧ u.tblBusy = true ∧
        y.next = Sparse.get (fun _ => 0) s.tbl.cursor tv ∧ y.left = s.regF Reg.TBL_AGE 15 0 + 1 ∧ u.tbl.slots = s.tbl.slots)) ∧
    (s.tbl.walk = none → ∀ b, exec (.walkStep b) s = .next s) ∧
    (∀ k : Fin 4, s.tbl.walk = some w → w.op < 16 → Gives (.walkStep (some k)) s fun u => u.tbl.walk = none ∧ u.tblBusy = false ∧
      u.regF Reg.TBL_CMD 23 16 = 0x45 ∧ u.slot w.table (w.next * 4 + k.val) = none) ∧
    (s.tbl.walk = some w → w.left = 1 → w.op = 8 ∨ w.op = 9 → w.table = 0 → w.next < 65536 → Gives (.walkStep none) s fun u =>
      u.tbl.walk = none ∧ u.tblBusy = false ∧ ∀ j ∈ bucketSlots w.next, u.slot 0 j = (s.slot 0 j).filter (fun e => !w.removes e)) ∧
    (s.tbl.walk = some w → 1 < w.left → w.op = 10 → w.table = 0 → w.next < 65535 → Gives (.walkStep none) s fun u =>
      (∃ y, u.tbl.walk = some y ∧ y.next = w.next + 1 ∧ y.left = w.left - 1 ∧ y.op = 10) ∧
      ∀ j ∈ bucketSlots w.next, u.slot 0 j = (s.slot 0 j).bind (fun e =>
        if (e.w 2).getLsbD 15 then some e else if e.hit then some { e with hit := false } else none)) ∧
    (s.rhsState t.val ≠ 1 → s.rhsState t.val ≠ 2 → Gives (.rehashStart t) s fun u => u.rhsState t.val = 1 ∧
      u.seeds t.val = ((s.reg (Reg.TBL_SEED t.val 2)).toNat, (s.reg (Reg.TBL_SEED t.val 3)).toNat) ∧
      u.prevSeeds t.val = s.seeds t.val ∧ ∀ j < 262144, u.slot t.val j = (s.slot t.val j).map (fun e => { e with prev := true })) ∧
    (s.rhsState t.val = 1 ∨ s.rhsState t.val = 2 → Gives (.rehashStart t) s fun u => u.tbl = s.tbl ∧
      u.reg (Reg.TBL_RHS t.val) = s.reg (Reg.TBL_RHS t.val)) ∧
    (s.rhsState t.val = 2 → Gives (.resume t) s fun u => u.rhsState t.val = 1 ∧ u.stuckCount t.val = 0 ∧
      u.regF (Reg.TBL_RHS t.val) 15 0 = 0 ∧ u.tbl.slots = s.tbl.slots ∧ u.mem = s.mem) ∧
    (s.rhsState t.val ≠ 2 → exec (.resume t) s = .next s) ∧
    (s.rhsState t.val ≠ 1 → ∀ b, exec (.migrationStep t b) s = .next s) ∧
    (∀ g, s.rhsState t.val = 1 → s.regF (Reg.TBL_RHS t.val) 15 0 = g → g < 65535 →
      ((∀ j ∈ bucketSlots g, s.slot t.val j = none) → exec (.migrationStep t none) s = .next (s.setRhs t.val 1 (g + 1))) ∧
      (∀ d, i.val ∈ bucketSlots g → (∀ j ∈ bucketSlots g, j ≠ i.val → s.slot t.val j = none) → s.slot t.val i.val = some e →
        e.prev = true → s.tbl.walk = none → d ≠ i.val → g ∈ candidates (keyBytes t.val e.words) (s.prevSeeds t.val) →
        (candidates (keyBytes t.val e.words) (s.seeds t.val)).findSome? (fun g => s.freeIn t.val g) = some d →
        Gives (.migrationStep t none) s fun u => u.slot t.val d = some { e with prev := false } ∧ u.slot t.val i.val = none ∧
          u.regF (Reg.TBL_RHS t.val) 15 0 = g + 1 ∧ u.rhsState t.val = 1) ∧
      (i.val ∈ bucketSlots g → (∀ j ∈ bucketSlots g, j ≠ i.val → s.slot t.val j = none) → s.slot t.val i.val = some e →
        e.prev = true → s.place t.val { e with prev := false } = none → slotKey t.val i.val ∉ s.tbl.stuck →
        Gives (.migrationStep t none) s fun u => u.tbl.slots = s.tbl.slots ∧ u.stuckCount t.val = s.stuckCount t.val + 1 ∧
          u.regF (Reg.TBL_RHS t.val) 15 0 = g + 1 ∧ u.rhsState t.val = 1)) ∧
    (s.rhsState t.val = 1 → s.regF (Reg.TBL_RHS t.val) 15 0 = 65535 → (∀ x ∈ s.tbl.slots, s.prevAt x.1 = false) →
      Gives (.migrationStep t none) s fun u => u.rhsState t.val = 3 ∧ u.tbl.slots = s.tbl.slots ∧ u.prevSeeds t.val = (0, 0)) ∧
    (s.slot t.val i.val = some e → e.writer = none → s.ras.length < 64 → Gives (.tableScrubError t i) s fun u =>
      u.slot t.val i.val = none ∧ (∃ r, u.ras = s.ras ++ [r] ∧ r.code = 5) ∧
      ∀ j : Fin 262144, j ≠ i → u.slot t.val j.val = s.slot t.val j.val) ∧
    (s.slot t.val i.val = none → exec (.tableScrubError t i) s = .next s)

/-- The start of the coprocessor command at the head of a queue (R204, R215 to R219, R307, R346, R354, R355, R379, R417, R420, R529): one that its
checks refuse runs with the code of the check; a DMA or CHK job that passes starts; a TBL, PEAT or SIG command acts at once. A row finds
nothing to do at a queue without a command, and leaves one of another opcode. The host's check job begins where its checks pass and
none runs.
How coprocessor commands end (R206, R207, R212, R214, R222, R396, R417, R420): a chunk that is the whole of a COPY writes its bytes and the command
has acted, one that is the whole source of a check job ends it with its value, and an uncorrectable read ends either UNCORR;
COMMAND_COMPLETE turns the tag DONE with the code and resumes a CQW that waits for it, EXPIRED ends with code 0x46, LATE_ERROR adds to the thread's ring; FRD_CQ_HSUB
queues a host command under the lowest free tag or answers FULL. -/
def Obligations.CommandStart : Prop :=
  (∀ (s : State) (f : Fin 16) (bad : Bool) (at_ : Option (Fin 16)) (v : Word) (c : Cmd),
    let runs (u : State) (k : Nat) (d : Cmd) : Prop := (u.frond f.val).running = (s.frond f.val).running ++ [d] ∧
      (u.frond f.val).queues = dropHead k (s.frond f.val).queues
    let dma : List (Instr × Nat) := [(.copy f, 1), (.fill f, 2), (.frameRead f, 3), (.list f, 4)]
    let chk : List (Instr × Nat) := [(.compute (.frond f), 1), (.compare (.frond f), 2)]
    let tbl : List (Instr × Nat) := [(.insert (.frond f) none, 1), (.update (.frond f) none, 2), (.delete (.frond f) none, 3),
      (.deleteIfIdle (.frond f) none, 4), (.lookup (.frond f) none, 5), (.readIndex (.frond f) none, 6), (.writeIndex (.frond f) none, 7)]
    let walks : List (Instr × Nat) := [(.flushPort (.frond f), 8), (.flushVid (.frond f), 9), (.ageStep (.frond f), 10)]
    let peat : List (Instr × Nat × Option Nat) := [(.readPage f at_, 1, at_.map (fun k => k.val)), (.find f bad, 2, if bad then some 0 else none),
      (.append f, 3, none)]
    let sig : List (Instr × Nat) := [(.read f, 1), (.readView f, 2), (.write f, 3), (.config f, 4), (.voteEval f, 5)]
    (∀ x ∈ ([(1, dma), (2, chk), (0, tbl), (0, walks), (3, peat.map (fun y => (y.1, y.2.1))), (4, sig)] : List (Nat × List (Instr × Nat))),
      (s.headCmd f.val x.1 = none → ∀ y ∈ x.2, exec y.1 s = .next s) ∧
      (s.headCmd f.val x.1 = some c → ∀ y ∈ x.2, c.opcode ≠ y.2 → exec y.1 s = .next s)) ∧
    (∀ x ∈ ([(.compute (.reg v), 1), (.compare (.reg v), 2)] : List (Instr × Nat)),
      (s.ck.job.isSome → Gives x.1 s fun u => u.ck = s.ck ∧ u.reg Reg.CHK_HJ_CMD = s.reg Reg.CHK_HJ_CMD ∧ u.mem = s.mem ∧
        u.reg Reg.BLK_VIOL_CNT = satFld (s.reg Reg.BLK_VIOL_CNT) 31 0 1) ∧
      (s.ck.job = none → Gives x.1 s fun u => u.mem = s.mem ∧ u.threads = s.threads ∧ u.fronds = s.fronds ∧
        (∀ d, u.ck.job = some d → u.regB Reg.CHK_HJ_CMD 31 = true ∧ d.kind = 2 ∧ d.opcode = x.2 ∧ d.who = .host 0 ∧ d.phase = .started 0 ∧
          (∀ k < 6, d.w (k + 2) = s.reg (Reg.CHK_HJ_W k)) ∧ s.dmaReads d.src d.chkLen = true ∧ d.chkRest = none) ∧
        (u.ck.job = none → u.regB Reg.CHK_HJ_CMD 31 = false ∧ u.regF Reg.CHK_HJ_CMD 15 8 ∈ [0x40, 0x43, 0x61, 0x62]))) ∧
    ((s.frond f.val).fencedKinds = 0 →
      (s.headCmd f.val 1 = some c → ∀ x ∈ dma, c.opcode = x.2 →
        (∀ e, s.dmaCheck f.val (s.withList c) = some e → Gives x.1 s fun u =>
          runs u 1 ((s.withList c).acted (BitVec.ofNat 8 e) []) ∧ u.mem = s.mem) ∧
        (s.dmaCheck f.val (s.withList c) = none → Gives x.1 s fun u => u.mem = s.mem ∧ u.dram = s.dram ∧
          runs u 1 (if x.2 = 4 then s.listNext (s.withList c) else { c with phase := .started 0 }))) ∧
      (s.headCmd f.val 2 = some c → ∀ x ∈ chk, c.opcode = x.2 →
        (∀ e, s.chkCheck f.val (s.withChannel c) = some e → Gives x.1 s fun u =>
          runs u 2 ((s.withChannel c).acted (BitVec.ofNat 8 e) []) ∧ u.mem = s.mem) ∧
        (s.chkCheck f.val (s.withChannel c) = none → Gives x.1 s fun u => runs u 2 (s.withChannel c).chkBegin ∧ u.mem = s.mem)) ∧
      (s.headCmd f.val 0 = some c → ∀ x ∈ tbl ++ walks, c.opcode = x.2 → ∀ e, s.tblCheck f.val x.2 c = some e → Gives x.1 s fun u =>
        runs u 0 (c.acted (BitVec.ofNat 8 e) []) ∧ u.tbl = s.tbl ∧ u.mem = s.mem) ∧
      (s.headCmd f.val 0 = some c → ∀ x ∈ tbl, c.opcode = x.2 → s.tblCheck f.val x.2 c = none →
        let a := s.tblAct f.val x.2 none c
        Gives x.1 s fun u => runs u 0 (c.acted a.2.1 a.2.2) ∧ u.tbl = a.1.tbl ∧ u.mem = s.mem) ∧
      (∀ x ∈ walks, ∃ e, s.tblCheck f.val x.2 c = some e) ∧
      (s.headCmd f.val 3 = some c → s.dramReady = true → ∀ x ∈ peat, c.opcode = x.2.1 →
        (∀ e, s.peatCheck f.val c = some e → Gives x.1 s fun u => runs u 3 (c.acted (BitVec.ofNat 8 e) []) ∧ u.pt = s.pt ∧ u.mem = s.mem) ∧
        (s.peatCheck f.val c = none →
          let a := s.peatAct f.val x.2.2 c
          Gives x.1 s fun u => runs u 3 (c.acted a.2.1 a.2.2) ∧ u.pt = a.1.pt ∧ u.mem = a.1.mem ∧ (x.2.1 ≠ 3 → u.pt = s.pt) ∧
            (x.2.1 ≠ 1 → u.mem = s.mem))) ∧
      (s.dramReady = false → exec (.readPage f at_) s = .next s ∧ exec (.find f bad) s = .next s) ∧
      (s.headCmd f.val 4 = some c → ∀ x ∈ sig, c.opcode = x.2 → ∀ e, s.sigCheck f.val c = some e → Gives x.1 s fun u =>
        runs u 4 (c.acted (BitVec.ofNat 8 e) []) ∧ u.sg = s.sg ∧ u.mem = s.mem) ∧
      (s.headCmd f.val 4 = some c → s.sigCheck f.val c = none →
        (c.opcode = 1 → Gives (.read f) s fun u => u.sg = s.sg ∧ u.mem = s.mem ∧
          runs u 4 (c.acted 0 (toWords (c.signals.flatMap (fun n => (s.sig n).bytes))))) ∧
        (c.opcode = 2 → Gives (.readView f) s fun u => u.sg = s.sg ∧ u.mem = s.mem ∧ ∃ d, runs u 4 (c.acted 0 d) ∧ d.length = 4 * c.count) ∧
        (c.opcode = 3 → c.count = 1 → (s.sig c.sig0).valid = true → (s.sig c.sig0).subst = false → Gives (.write f) s fun u =>
          runs u 4 (c.acted 0 [1, 0]) ∧ u.sig c.sig0 = (s.sig c.sig0).write s.sg.tick16
            (BitVec.ofNat 64 (leAt (nth [] (s.writeRecs f.val c) 0) 0 8)) (BitVec.ofNat 8 (byteAt (nth [] (s.writeRecs f.val c) 0) 8)) s.tb.now 2 ∧
          ∀ n, n ≠ c.sig0 → u.sig n = s.sig n) ∧
        (c.opcode = 4 → c.count = 1 → Gives (.config f) s fun u => runs u 4 (c.acted 0 [1, 0]) ∧
          u.sig c.sig0 = (s.sig c.sig0).config (c.w 4) ∧ ∀ n, n ≠ c.sig0 → u.sig n = s.sig n) ∧
        (c.opcode = 5 →
          let a := s.voteEval (fld (c.w 2) 15 0)
          Gives (.voteEval f) s fun u => u.sg = a.1.sg ∧
            runs u 4 (c.acted 0 [a.2.1.extractLsb' 0 32, a.2.1.extractLsb' 32 32, BitVec.ofNat 32 (a.2.2.1.toNat + a.2.2.2 * 256), 0]))))) ∧
  (∀ (s : State) (f : Fin 16) (i g : Nat) (c : Cmd) (t : Tid) (code : Byte) (v : Word) (late : Bool) (e : Word),
    (c.kind = 1 → c.opcode = 1 → c.phase = .started 0 → (s.frond f.val).running[i]? = some c → s.copyCode c.part = none →
      c.chunk 0 = c.part.len → s.dramWaits c.part.src = false → s.dramWaits c.part.dst = false → s.readRetired c.part.src = false →
      s.inActive c.part.dst c.part.len = false → s.orphanToReplaced c.who c.part.dst = false →
      (∀ j < c.part.len, s.readRetired (c.part.dst + j) = false) → Gives (.dmaChunk (some f) i false none) s fun u =>
        (∀ j < c.part.len, u.byte (c.part.dst + j) = s.byte (c.part.src + j)) ∧
        (∀ a, a < c.part.dst ∨ c.part.dst + c.part.len ≤ a → u.byte a = s.byte a) ∧ u.threads = s.threads ∧
        ∃ d, (u.frond f.val).running[i]? = some d ∧ d.phase = .acted 0 [BitVec.ofNat 32 (c.acc + c.part.len), 0]) ∧
    (∀ m, c.kind = 1 ∨ c.kind = 2 → c.phase = .started m → (s.frond f.val).running[i]? = some c → s.dramReady = true →
      Gives (.dmaChunk (some f) i true none) s fun u => u.mem = s.mem ∧ u.dram = s.dram ∧ u.threads = s.threads ∧
        ∃ d, (u.frond f.val).running[i]? = some d ∧ d.phase = .acted 0x45 (if c.kind = 1 then c.dmaResult else [])) ∧
    (c.kind = 2 → c.phase = .started 0 → (s.frond f.val).running[i]? = some c → chunkLen c.src c.chkLen = c.chkLen →
      s.dramWaits c.src = false → s.readRetired c.src = false →
      let r := c.chkEnd (crcFeed c.poly c.acc (s.chkBytes c 0 c.chkLen))
      Gives (.dmaChunk (some f) i false none) s fun u => u.dram = s.dram ∧
        (∃ d, (u.frond f.val).running[i]? = some d ∧ d.phase = .acted r.1 (c.chkResult r.2)) ∧ (r.1 = 0 → u.mem = s.mem)) ∧
    (s.ck.job = some c → c.phase = .started 0 → chunkLen c.src c.chkLen = c.chkLen → s.dramWaits c.src = false →
      s.readRetired c.src = false → c.who = .host 0 →
      let r := c.chkEnd (crcFeed c.poly c.acc (s.chkBytes c 0 c.chkLen))
      Gives (.dmaChunk none i false none) s fun u => u.ck.job = none ∧ u.regB Reg.CHK_HJ_CMD 31 = false ∧
        u.regF Reg.CHK_HJ_CMD 15 8 = r.1.toNat ∧ u.reg Reg.CHK_HJ_RES_LO = r.2.extractLsb' 0 32 ∧
        u.reg Reg.CHK_HJ_RES_HI = r.2.extractLsb' 32 32 ∧ u.mem = s.mem ∧ u.dram = s.dram) ∧
    ((s.frond f.val).running[i]? = none → ∀ late bad part,
      exec (.dmaChunk (some f) i bad part) s = .next s ∧ exec (.commandComplete f (.running i)) s = .next s ∧
      exec (.expired f i late) s = .next s) ∧
    (s.ck.job = none → ∀ bad part, exec (.dmaChunk none i bad part) s = .next s) ∧
    (g < 16 → (s.frond f.val).running = [c] → c.who = .thread t g (s.thr t).epoch → tidF t = f.val → c.noResult = true →
      (s.thr t).run = .running →
      (c.phase = .acted code [] → Gives (.commandComplete f (.running 0)) s fun u => (u.frond f.val).running = [] ∧
        (u.thr t).tag g = .done code ∧ (u.thr t).evpend = (if c.doneEv then (s.thr t).evpend ||| 32 else (s.thr t).evpend) ∧
        u.mem = s.mem) ∧
      (Gives (.expired f 0 late) s fun u => (u.frond f.val).running = [] ∧ (u.thr t).tag g = .done 0x46 ∧ u.mem = s.mem ∧
        u.reg (Reg.FRD_CQ_EXPIRED f.val) = satFld (s.reg (Reg.FRD_CQ_EXPIRED f.val)) 31 0 1)) ∧
    (g < 16 → (s.frond f.val).running = [c] → c.who = .thread t g (s.thr t).epoch → tidF t = f.val → c.noResult = true →
      (s.thr t).run = .waiting (.cq g) → (s.thr t).haltReq = false → (s.thr t).stepping = false → c.phase = .acted code [] →
      Gives (.commandComplete f (.running 0)) s fun u => (u.frond f.val).running = [] ∧ (u.thr t).tag g = .free ∧ (u.thr t).run = .running ∧
        (u.thr t).stack = code.setWidth 32 :: (s.thr t).stack ∧ u.mem = s.mem) ∧
    (s.headCmd f.val 1 = some c → opcodeKnown 1 c.opcode = false → (s.frond f.val).fencedKinds = 0 →
      Gives (.commandComplete f (.head 1)) s fun u => (u.frond f.val).running = (s.frond f.val).running ++ [c.acted 0x40 []]) ∧
    (∀ d : DoneCmd, (s.frond f.val).finished[i]? = some d → d.who = .thread t g e →
      ((s.thr t).epoch = e → s.tk.number.toNat ≤ d.tick + 16 → Gives (.lateError f i code) s fun u =>
        (u.thr t).lateSeq = (s.thr t).lateSeq + 1 ∧ (u.thr t).evpend = (s.thr t).evpend ||| 16 ∧ u.dram = s.dram ∧
        (let a := dmemBase (tidF t) (tidC t) + 0xE680 + tidT t * 0x40 + ((s.thr t).lateSeq + 1).toNat % 4 * 16;
          u.word a = (s.thr t).lateSeq + 1 ∧ u.word (a + 4) = BitVec.ofNat 32 (g + d.kind * 16 + code.toNat * 256) ∧ u.word (a + 8) = d.ptr ∧
          u.word (a + 12) = s.tick32 ∧ ∀ b, b < a ∨ a + 16 ≤ b → u.sram b = s.sram b)) ∧
      ((s.thr t).epoch ≠ e → s.ras.length < 64 → Gives (.lateError f i code) s fun u => u.threads = s.threads ∧
        ∃ r, u.ras = s.ras ++ [r] ∧ r.code = 6)) ∧
    ((s.frond f.val).finished[i]? = none → exec (.lateError f i code) s = .next s) ∧
    (∀ k p tag, v = BitVec.ofNat 32 (k * 2 ^ 29 + p * 32) → k < 5 → p < 32768 → (s.frond f.val).gated = false →
      (s.frond f.val).pllOff = false →
      (s.freeHostTag f.val = some tag → s.cqRoom f.val k = true → Gives (.frdCqHsub f v) s fun u => ∃ d,
        (u.frond f.val).queues = (s.frond f.val).queues ++ [d] ∧ d.kind = k ∧ d.who = .host tag ∧ d.phase = .queued ∧
        d.desc = (upTo 8).map (fun j => s.word (sharedBase f.val + p * 32 + 4 * j)) ∧
        u.reg (Reg.FRD_CQ_HSTAT f.val) = BitVec.ofNat 32 (2 ^ 31 + tag)) ∧
      (s.freeHostTag f.val = none ∨ s.cqRoom f.val k = false → Gives (.frdCqHsub f v) s fun u =>
        (u.frond f.val).queues = (s.frond f.val).queues ∧ u.reg (Reg.FRD_CQ_HSTAT f.val) = 0x8000001F ∧
        u.reg (Reg.FRD_CQ_FULL f.val) = satFld (s.reg (Reg.FRD_CQ_FULL f.val)) 31 0 1)) ∧
    (5 ≤ v.toNat / 2 ^ 29 → (s.frond f.val).gated = false → (s.frond f.val).pllOff = false → Gives (.frdCqHsub f v) s fun u =>
      u.fronds = s.fronds ∧ u.mem = s.mem ∧ u.reg (Reg.FRD_CQ_HSTAT f.val) = s.reg (Reg.FRD_CQ_HSTAT f.val)))

/-! ### Register rows -/

/-- The rows that commit a window record (R237, R269, R287, R292, R297, R324, R326, R328, R329, R341, R353, R356, R359, R364, R366, R367, R382, R512, R531):
the record takes the staged words, those not staged staying as committed, without their reserved bits; the status tells of it; nothing else
moves. A commit that its rule refuses leaves every record and tells why: CONTROL rules and admission are tested outside LOAD only. -/
def Obligations.RecordRows : Prop :=
  ∀ (s : State) (v : Word) (p : Fin 64) (x : Fin 4096) (l : Fin 4032), s.mode ≠ .keep →
    let staged (off n : Nat) (k : RecKind) (i : Nat) : List Word := s.windowWords k i off n
    (Gives (.swcMcgData v) s fun u => (u = { s with recs := u.recs }) ∧ Recorded s u .mcg (s.regF Reg.SWC_MCG_IDX 13 0) [v &&& 0x83FFFFFF]) ∧
    (Gives (.swcMcmData v) s fun u => (u = { s with recs := u.recs }) ∧ Recorded s u .mcm (s.regF Reg.SWC_MCM_IDX 15 0) [v &&& 0xFFFFFFF]) ∧
    ( let ws := (upTo 32).map (fun i => s.reg (Reg.CLS_RULE_W i))
      let ok := ruleOk (ws.flatMap (fun w => leBytes 4 w.toNat))
      let control := s.controlRule x.val = true ∨ fld (nth 0 ws 24) 10 8 = 0
      let done (op st : Nat) : Word := BitVec.ofNat 32 (st * 2 ^ 28 + op * 2 ^ 24 + x.val)
      (ok = true → s.mode = .load ∨ ¬ control → Gives (.ruleWrite x) s fun u => Committed s u .rule x.val ws 0 0 Reg.CLS_RULE_CMD (done 1 0)) ∧
      (ok = false → Gives (.ruleWrite x) s fun u => Committed s u .rule x.val [] 0 0 Reg.CLS_RULE_CMD (done 1 1)) ∧
      (ok = true → s.mode ≠ .load → control → Gives (.ruleWrite x) s fun u => Committed s u .rule x.val [] 0 0 Reg.CLS_RULE_CMD (done 1 2)) ∧
      (Gives (.ruleRead x) s fun u => (u = { s with regs := u.regs }) ∧ (∀ j < 32, u.reg (Reg.CLS_RULE_W j) = s.recW .rule x.val j) ∧
        u.reg Reg.CLS_RULE_CMD = done 2 0 ∧ ∀ o, o ≠ Reg.CLS_RULE_CMD → (∀ j < 32, o ≠ Reg.CLS_RULE_W j) → u.reg o = s.reg o) ∧
      (s.mode = .load ∨ s.controlRule x.val = false → Gives (.invalidate x) s fun u => (u = { s with regs := u.regs, recs := u.recs }) ∧
        (u.recW .rule x.val 23).getLsbD 0 = false ∧ (∀ b, 0 < b → (u.recW .rule x.val 23).getLsbD b = (s.recW .rule x.val 23).getLsbD b) ∧
        (∀ (k : RecKind) (i j : Nat), i < 2 ^ 20 → j < 64 → (k ≠ .rule ∨ i ≠ x.val ∨ j ≠ 23) → u.recW k i j = s.recW k i j) ∧
        u.reg Reg.CLS_RULE_CMD = done 3 0) ∧
      (s.mode ≠ .load → s.controlRule x.val = true → Gives (.invalidate x) s fun u =>
        Committed s u .rule x.val [] 0 0 Reg.CLS_RULE_CMD (done 3 2))) ∧
    ( let idx := s.reg (Reg.EGR_GCL_IDX p.val)
      let e := gclIndex p.val (idx.getLsbD 8) (idx.toNat % 256)
      let d := Reg.EGR_GCL_DATA0 p.val
      (idx.getLsbD 8 ≠ (s.port p.val).gateBank → Gives (.egrGclData1 p v) s fun u =>
        Committed s u .gcl e [nth 0 (staged d 1 .gcl e) 0 &&& 0x1FF, v] d 2 0 (s.reg 0)) ∧
      (idx.getLsbD 8 = (s.port p.val).gateBank → Gives (.egrGclData1 p v) s fun u => ∃ w, Committed s w .gcl e [] d 2 0 (s.reg 0) ∧
        Refused w u (BitVec.ofNat 32 (Reg.EGR_GCL_DATA1 p.val)) v)) ∧
    ( let i := s.regF Reg.EGR_CTX_IDX 11 0
      Gives (.egrCtxData1 v) s fun u =>
        Committed s u .ctx i [nth 0 (staged Reg.EGR_CTX_DATA0 1 .ctx i) 0 &&& 0x1FFFFF, v &&& 0xFFF] Reg.EGR_CTX_DATA0 2 0 (s.reg 0)) ∧
    ( let off := Reg.EGR_XP_L (64 + l.val)
      let peers := s.regs.filter (fun e => decide (Reg.EGR_XP_L 64 ≤ e.1 ∧ e.1 ≤ Reg.EGR_XP_L 4095 ∧ e.1 ≠ off) && e.2.getLsbD 31 &&
        decide (fld e.2 29 24 = fld v 29 24))
      let dup := peers.any (fun e => decide (fld e.2 11 0 = fld v 11 0))
      (v.getLsbD 31 = false ∨ (dup = false ∧ peers.length < 128) → Gives (.egrXpL l v) s fun u => u.reg off = v &&& 0xBFFFFFFF ∧
        u.reg Reg.EGR_XP_STAT = 0 ∧ (∀ o, o ≠ off → o ≠ Reg.EGR_XP_STAT → u.reg o = s.reg o) ∧
        (u = { s with regs := u.regs, sw.xpOld := u.sw.xpOld })) ∧
      (v.getLsbD 31 = true → dup = true → Gives (.egrXpL l v) s fun u => OnlyReg s u Reg.EGR_XP_STAT 1) ∧
      (v.getLsbD 31 = true → dup = false → 128 ≤ peers.length → Gives (.egrXpL l v) s fun u => OnlyReg s u Reg.EGR_XP_STAT 2)) ∧
    ( let h := s.regF Reg.CTL_SIDX 17 0
      let w := staged (Reg.CTL_SDATA 0) 3 .stream h ++ [v]
      let w0 := nth 0 w 0
      let w1 := nth 0 w 1
      let w2 := nth 0 w 2
      let form := fld w0 15 13 = 0 ∧ fld w1 7 3 = 0 ∧ w2.getLsbD 15 = false ∧ w2.getLsbD 31 = false ∧ fld v 31 14 = 0 ∧
        (w1.getLsbD 0 = true ∨ (w1.getLsbD 1 = false ∧ w1.getLsbD 2 = false)) ∧
        (w2.getLsbD 14 = false ∨ w1.getLsbD 1 = false ∨ (nth 0 (s.adaptWords (fld w2 13 0)) 0).getLsbD 2 = false)
      let named := w1.getLsbD 0 = false ∨ (s.frer (fld w0 31 16)).exist = true
      let same := s.recF .stream h 1 31 8 = fld w1 31 8 ∧ s.recF .stream h 2 30 16 = fld w2 30 16 ∧ s.recF .stream h 3 13 0 = fld v 13 0
      let t := (s.clearStage (Reg.CTL_SDATA 0) 4).setRecs .stream h 0 w
      (form → s.mode.serves = false ∨ (named ∧ same) → Gives (.ctlSdata3 v) s fun u =>
        Committed s u .stream h w (Reg.CTL_SDATA 0) 4 Reg.CTL_WSTAT 0) ∧
      (¬ form → Gives (.ctlSdata3 v) s fun u => Committed s u .stream h [] (Reg.CTL_SDATA 0) 4 Reg.CTL_WSTAT 1) ∧
      (form → s.mode.serves = true → ¬ named → Gives (.ctlSdata3 v) s fun u => Recorded s u .stream h [] ∧
        u.reg Reg.CTL_WSTAT = 2 ∧ u.reg Reg.CTL_ADMIT = 0x300 ∧ u.reg Reg.CTL_ADMIT_OBJ = BitVec.ofNat 32 h) ∧
      (form → s.mode.serves = true → named → ¬ same → t.admission.2 = none → Gives (.ctlSdata3 v) s fun u => Recorded s u .stream h w ∧
        u.reg Reg.CTL_WSTAT = 0 ∧ u.reg Reg.CTL_ADMIT = 0 ∧ CoresKept s u ∧ u.ct = s.ct) ∧
      (form → s.mode.serves = true → named → ¬ same → ∀ e, t.admission.2 = some e → Gives (.ctlSdata3 v) s fun u =>
        Recorded s u .stream h [] ∧ u.reg Reg.CTL_WSTAT = 2 ∧ u.reg Reg.CTL_ADMIT = BitVec.ofNat 32 (e.1 * 256) ∧
        u.reg Reg.CTL_ADMIT_OBJ = BitVec.ofNat 32 e.2 ∧ CoresKept s u ∧ u.ct = s.ct)) ∧
    ( let i := s.regF Reg.CTL_FIDX 11 0
      Gives (.ctlFdata1 v) s fun u =>
        Committed s u .filter i [nth 0 (staged (Reg.CTL_FDATA 0) 1 .filter i) 0 &&& 0x03FF007F, v &&& 0x3FFF0FFF] (Reg.CTL_FDATA 0) 2
          Reg.CTL_WSTAT 0x10) ∧
    ( let idx := s.reg Reg.CTL_GIDX
      let g := fld idx 9 0
      let e := sgIndex g (idx.getLsbD 14) (fld idx 13 10)
      (idx.getLsbD 14 ≠ (s.sgate g).bankB → Gives (.ctlGdata1 v) s fun u =>
        Committed { s with ct := u.ct } u .sgate e [nth 0 (staged (Reg.CTL_GDATA 0) 1 .sgate e) 0 &&& 0x1F, v] (Reg.CTL_GDATA 0) 2
          Reg.CTL_WSTAT 0x20 ∧
        (u.ct = { s.ct with gates := u.ct.gates }) ∧ ∀ j, u.sgate j = if j = g then { s.sgate g with pending := true } else s.sgate j) ∧
      (idx.getLsbD 14 = (s.sgate g).bankB → Gives (.ctlGdata1 v) s fun u =>
        Committed s u .sgate e [] (Reg.CTL_GDATA 0) 2 Reg.CTL_WSTAT 0x21)) ∧
    ( let m := s.regF Reg.CTL_MIDX 11 0
      let w := staged (Reg.CTL_MDATA 0) 4 .meter m ++ [v &&& 0xF]
      Gives (.ctlMdata4 v) s fun u => Committed { s with ct := u.ct } u .meter m w (Reg.CTL_MDATA 0) 5 Reg.CTL_WSTAT 0x30 ∧
        (u.ct = { s.ct with meters := u.ct.meters }) ∧
        ∀ j, Sparse.get (fun _ => Meter.reset) u.ct.meters j = if j = m then
          ⟨(nth 0 w 2).toNat * 8000000, (nth 0 w 3).toNat * 8000000, s.tb.now⟩ else Sparse.get (fun _ => Meter.reset) s.ct.meters j) ∧
    ( let r := s.regF Reg.CTL_RIDX 15 0
      let w := staged (Reg.CTL_RDATA 0) 2 .frer r ++ [v]
      let w0 := nth 0 w 0
      let ok := fld w0 15 12 = 0 ∧ fld w0 6 0 ≠ 0 ∧ 2 ≤ fld w0 11 9 ∧ fld w0 11 9 ≤ 4 ∧ fld w0 31 16 ≠ 0 ∧
        (w0.getLsbD 8 = true → fld (nth 0 w 1) 31 16 ≠ 0 ∧ fld v 15 0 ≠ 0)
      (ok → Gives (.ctlRdata2 v) s fun u => Committed { s with ct := u.ct } u .frer r w (Reg.CTL_RDATA 0) 8 Reg.CTL_WSTAT 0x40 ∧
        (u.frer r).exist = true ∧ (u.frer r).passed = 0 ∧ (u.frer r).discarded = 0 ∧
        ((s.frer r).exist = true → (u.frer r).takeAny = true ∧ (u.frer r).hist = 0) ∧ ∀ j, j ≠ r → u.frer j = s.frer j) ∧
      (¬ ok → Gives (.ctlRdata2 v) s fun u => Committed s u .frer r [] (Reg.CTL_RDATA 0) 8 Reg.CTL_WSTAT 0x41)) ∧
    ( let a := s.regF Reg.CTL_AIDX 13 0
      let w := (upTo 11).map (fun k => (s.staged? (Reg.CTL_ADATA k)).getD (nth 0 (s.adaptWords a) k)) ++ [v]
      (adaptOk w = true → Gives (.ctlAdata11 v) s fun u =>
        Committed { s with ct := u.ct } u .adapt a [] (Reg.CTL_ADATA 0) 12 Reg.CTL_WSTAT 0x50 ∧
        (u.adapt a = { s.adapt a with waiting := some w }) ∧ ∀ j, j ≠ a → u.adapt j = s.adapt j) ∧
      (adaptOk w = false → Gives (.ctlAdata11 v) s fun u => Committed s u .adapt a [] (Reg.CTL_ADATA 0) 12 Reg.CTL_WSTAT 0x51)) ∧
    ( let i := s.regF Reg.SIG_HV_IDX 15 0
      let w := (upTo 3).map (fun k => (s.staged? (Reg.SIG_HV_DATA k)).getD (s.hvWord i k)) ++ [v]
      (harvestOk w = true → Gives (.sigHvData3 v) s fun u =>
        Committed { s with mem := u.mem } u .harvest i [] (Reg.SIG_HV_DATA 0) 4 Reg.SIG_WSTAT 0 ∧ (∀ j < 4, u.hvWord i j = nth 0 w j) ∧
        ∀ b, b < 0x803000000000 + i * 16 ∨ 0x803000000010 + i * 16 ≤ b → u.sram b = s.sram b) ∧
      (harvestOk w = false → Gives (.sigHvData3 v) s fun u => Committed s u .harvest i [] (Reg.SIG_HV_DATA 0) 4 Reg.SIG_WSTAT 1)) ∧
    ( let g := s.regF Reg.SIG_VG_IDX 15 0
      let w := staged (Reg.SIG_VG_DATA 0) 7 .vote g ++ [v]
      (s.groupOk w = true → Gives (.sigVgData7 v) s fun u =>
        Committed { s with sg := u.sg } u .vote g w (Reg.SIG_VG_DATA 0) 8 Reg.SIG_WSTAT 0x10 ∧ (u.sg = { s.sg with votes := u.sg.votes }) ∧
        ∀ j, u.vgState j = if j = g then { s.vgState g with drun := 0, reported := false } else s.vgState j) ∧
      (s.groupOk w = false → Gives (.sigVgData7 v) s fun u => Committed s u .vote g [] (Reg.SIG_VG_DATA 0) 8 Reg.SIG_WSTAT 0x11)) ∧
    ( let i := s.regF Reg.SIG_PUB_IDX 11 0
      let w := staged (Reg.SIG_PUB_DATA 0) 6 .pub i ++ [v]
      let len := if (nth 0 w 0).getLsbD 0 then pubLen w (s.pubMsgs w) else 0
      (s.pubCheck w = 0 → Gives (.sigPubData6 v) s fun u =>
        Committed { s with sg := u.sg } u .pub i (w ++ [BitVec.ofNat 32 len]) (Reg.SIG_PUB_DATA 0) 8 Reg.SIG_WSTAT 0x20 ∧
        (u.sg = { s.sg with pubPos := u.sg.pubPos })) ∧
      (s.pubCheck w ≠ 0 → Gives (.sigPubData6 v) s fun u =>
        Committed s u .pub i [] (Reg.SIG_PUB_DATA 0) 8 Reg.SIG_WSTAT (BitVec.ofNat 32 (0x20 + s.pubCheck w)))) ∧
    ( let i := s.regF Reg.SIG_SVC_IDX 3 0
      let w := staged (Reg.SIG_SVC_DATA 0) 7 .svc i ++ [v]
      Gives (.sigSvcData7 v) s fun u =>
        Committed s u .svc i (List.zipWith (fun a b => a &&& b) w [0xFFFF, -1, 0xFFFF, -1, -1, -1, -1, -1]) (Reg.SIG_SVC_DATA 0) 8
          Reg.SIG_WSTAT 0x30) ∧
    ( let i := s.regF Reg.PEAT_P_IDX 7 0
      let w := staged (Reg.PEAT_P_DATA 0) 3 .policy i ++ [v]
      let w0 := nth 0 w 0
      let used := s.peatStreams.any (fun j => decide (psPolicy (s.peatRec j) = i))
      let ok := fld w0 15 4 = 0 ∧ nth 0 w 1 = 0 ∧
        ((fld w0 2 0 < 3 ∧ fld w0 31 16 = 0) ∨ ((fld w0 2 0 = 3 ∨ fld w0 2 0 = 4) ∧ fld w0 31 16 ≠ 0))
      (used = false → ok → Gives (.peatPData3 v) s fun u => Committed s u .policy i w (Reg.PEAT_P_DATA 0) 4 Reg.PEAT_WSTAT 0) ∧
      (used = false → ¬ ok → Gives (.peatPData3 v) s fun u => Committed s u .policy i [] (Reg.PEAT_P_DATA 0) 4 Reg.PEAT_WSTAT 1) ∧
      (used = true → Gives (.peatPData3 v) s fun u => Committed s u .policy i [] (Reg.PEAT_P_DATA 0) 4 Reg.PEAT_WSTAT 3)) ∧
    ( let i := s.regF Reg.PEAT_S_IDX 11 0
      let w := staged (Reg.PEAT_S_DATA 0) 7 .peat i ++ [v]
      let on := (nth 0 w 0).getLsbD 0
      let kept := List.zipWith (fun a b => a &&& b) w [0xFF03, 0x7FFFF, 0xFFFFF, -1, 0xFFFF, -1, 0x7FFFFF, 0]
      let t := s.clearStage (Reg.PEAT_S_DATA 0) 8
      let others := t.peatList
      let sums := (t.peatBudget (others.filter (fun e => decide (e.1 < i)) ++ [(i, w)] ++ others.filter (fun e => decide (i < e.1)))).2
      let taken (u : State) : Prop := Recorded s u .peat i kept ∧ u.reg Reg.PEAT_WSTAT = 0x10 ∧ (u.pstream i).dirty = true ∧
        (u.pstream i).appended = [] ∧ (∀ j, j ≠ i → u.pstream j = s.pstream j) ∧ CoresKept s u
      (on = false ∨ (s.peatValid i = false ∧ s.peatOk i w = true ∧ (s.mode.serves = false ∨ sums = none)) →
        Gives (.peatSData7 v) s taken) ∧
      (on = true → s.peatValid i = true → Gives (.peatSData7 v) s fun u =>
        Committed s u .peat i [] (Reg.PEAT_S_DATA 0) 8 Reg.PEAT_WSTAT 0x13) ∧
      (on = true → s.peatValid i = false → s.peatOk i w = false → Gives (.peatSData7 v) s fun u =>
        Committed s u .peat i [] (Reg.PEAT_S_DATA 0) 8 Reg.PEAT_WSTAT 0x11) ∧
      (on = true → s.peatValid i = false → s.peatOk i w = true → s.mode.serves = true → ∀ j, sums = some j → Gives (.peatSData7 v) s fun u =>
        Recorded s u .peat i [] ∧ u.reg Reg.PEAT_WSTAT = 0x12 ∧ u.reg Reg.CTL_ADMIT = 0x500 ∧ u.reg Reg.CTL_ADMIT_OBJ = BitVec.ofNat 32 j ∧
        u.pt = s.pt ∧ CoresKept s u)) ∧
    ( let i := s.regF Reg.PEAT_CL_IDX 5 0
      let w := staged (Reg.PEAT_CL_DATA 0) 7 .client i ++ [v]
      let w0 := nth 0 w 0
      let w1 := nth 0 w 1
      let ok := fld w0 23 16 ≤ (if w0.getLsbD 1 then 128 else 32) ∧ 576 ≤ fld w1 26 16 ∧ fld w1 26 16 ≤ 2000 ∧
        (∃ tc < 8, (s.queuePort (512 + fld w1 11 0 * 8 + tc)).isSome = true)
      (ok → Gives (.peatClData7 v) s fun u =>
        Committed s u .client i (List.zipWith (fun a b => a &&& b) w [0xFFFFFF, 0x07FF0FFF, -1, 0xFFFF, -1, -1, -1, -1]) (Reg.PEAT_CL_DATA 0) 8
          Reg.PEAT_WSTAT 0x20) ∧
      (¬ ok → Gives (.peatClData7 v) s fun u => Committed s u .client i [] (Reg.PEAT_CL_DATA 0) 8 Reg.PEAT_WSTAT 0x21))

/-- The rows that command a unit by one register (R34, R152, R153, R166, R167, R169, R276 to R279, R284, R292, R294, R328, R342, R365, R401, R408, R409, R428, R434,
R435, R438, R439, R477, R510, R530). The register of an RWL row changes in LOAD alone; a loading command outside its modes ends REFUSED with
reason MODE. -/
def Obligations.ControlRows : Prop :=
  ∀ (s : State) (v : Word) (p : Fin 64) (c : Fin 8) (r : Fin 16) (m : Bool) (services : BitVec 3), s.mode ≠ .keep →
    let load := s.mode = .load
    let run := s.mode = .run
    let word (n : Nat) : Word := BitVec.ofNat 32 n
    (∀ n, v.toNat % 64 = n → (s.pool n).valid = true → s.mayAlloc n .host = true → Gives (.bpmHalloc v) s fun u =>
      u.reg Reg.BPM_HALLOC = word (2 ^ 31 + (s.pool n).lowestFree) ∧
      (u.pool n).held = (s.pool n).held ++ [((s.pool n).lowestFree, .host)] ∧ (u.pool n).turn = 2049 ∧
      (∀ k, k ≠ n → u.pool k = s.pool k) ∧ u.dram = s.dram ∧ u.tbl = s.tbl) ∧
    (∀ n, v.toNat % 64 = n → (s.pool n).valid = false ∨ s.mayAlloc n .host = false → Gives (.bpmHalloc v) s fun u =>
      (u = { s with regs := u.regs }) ∧ u.reg Reg.BPM_HALLOC = 0xC0000000 ∧
      u.reg (Reg.BPM_EMPTY n) = satFld (s.reg (Reg.BPM_EMPTY n)) 31 0 1 ∧
      ∀ o, o ≠ Reg.BPM_HALLOC → o ≠ Reg.BPM_EMPTY n → u.reg o = s.reg o) ∧
    (∀ n i, fld v 29 24 = n → fld v 22 0 = i →
      let failed (u : State) (st : Word) : Prop := u.reg Reg.BPM_HSTATUS = st ∧ u.sw = s.sw ∧ CoresKept { s with mem := u.mem, host := u.host } u ∧
        u.reg Reg.BPM_FAILCNT = satFld (s.reg Reg.BPM_FAILCNT) 31 0 1 ∧
        (s.ras.length < 64 → ∃ e : RasRec, (u.ras = s.ras ++ [e]) ∧ e.severity = 1 ∧ e.tick = s.tick32)
      (i < s.poolCount n → (s.pool n).held.any (fun e => decide (e.1 = i)) = true → Gives (.bpmHfree v) s fun u =>
        u.reg Reg.BPM_HSTATUS = 0 ∧ (u.pool n).held = (s.pool n).held.filter (fun e => decide (e.1 ≠ i)) ∧
        ∀ k, k ≠ n → u.pool k = s.pool k) ∧
      (i < s.poolCount n → (s.pool n).held.any (fun e => decide (e.1 = i)) = false → Gives (.bpmHfree v) s fun u => failed u 3) ∧
      (s.poolCount n ≤ i → Gives (.bpmHfree v) s fun u => failed u 1)) ∧
    ( let k := v &&& 0x7E00001F
      let off := Reg.BPM_CFG p.val
      let ok := (s.setReg off k).poolCheck p.val
      (load → ok = true → Gives (.bpmCfgValid p v) s fun u => (u.pool p.val).valid = true ∧ (u.pool p.val).held = [] ∧
        u.reg off = setFld k 31 24 (fld k 31 24 ||| (if 4096 < s.poolCount p.val then 0x81 else 0x80)) ∧
        u.regB (Reg.BPM_STAT p.val) 31 = false ∧ ∀ j, j ≠ p.val → u.pool j = s.pool j) ∧
      (load → ok = false → Gives (.bpmCfgValid p v) s fun u => (u.pool p.val).valid = false ∧ (u.pool p.val).held = [] ∧
        (u.pool p.val).level = 0 ∧ u.reg off = k ∧ u.regB (Reg.BPM_STAT p.val) 31 = true ∧ ∀ j, j ≠ p.val → u.pool j = s.pool j) ∧
      (¬ load → Gives (.bpmCfgValid p v) s fun u => Violated s u 2 (word off) (setFld v 31 31 1))) ∧
    ( let t := s.tk.number.toNat / 2 ^ 32 * 2 ^ 32 + (s.reg (Reg.EGR_GCL_SWAP p.val)).toNat
      let off := Reg.EGR_GCL_SWSTAT p.val
      let moved (u : State) (a : Option (BitVec 48)) (st : Nat) : Prop :=
        OnlyReg { s with sw := u.sw } u off (setFld (s.reg off) 6 4 st) ∧ OnlyPort s u p.val { s.port p.val with armed := a }
      (s.tk.number.toNat + 2 ≤ t → t % (s.regF (Reg.EGR_GCL_CTRL p.val) 7 4 + 1) = 0 →
        Gives (.gateArm p) s fun u => moved u (some (BitVec.ofNat 48 t)) 1) ∧
      (s.tk.number.toNat + 2 ≤ t → t % (s.regF (Reg.EGR_GCL_CTRL p.val) 7 4 + 1) ≠ 0 → Gives (.gateArm p) s fun u => moved u none 4) ∧
      (t < s.tk.number.toNat + 2 → Gives (.gateArm p) s fun u => moved u none 3) ∧
      ((s.port p.val).armed.isSome = true → Gives (.gateCancel p) s fun u => moved u none 5) ∧
      ((s.port p.val).armed = none → exec (.gateCancel p) s = .next s)) ∧
    ( let off := Reg.PORT_CFG p.val
      let w := v &&& 0xFFFF3E0F
      (load → s.modeFits p.val (v.toNat % 16) = true → Gives (.portCfg p v) s fun u => u.reg off = w ∧
        ((s.port p.val).link = true → (s.regB off 10 ≠ v.getLsbD 10 ∨ s.regB off 11 ≠ v.getLsbD 11) →
          (u.port p.val).pactive = (v.getLsbD 10 && !v.getLsbD 11) ∧ (u.port p.val).vstate = (if v.getLsbD 10 && v.getLsbD 11 then 1 else 0))) ∧
      (load → s.modeFits p.val (v.toNat % 16) = false → Gives (.portCfg p v) s fun u =>
        ∃ x, OnlyReg s x off (setFld (s.reg off) 31 31 0) ∧ Refused x u (word off) v) ∧
      (¬ load → Gives (.portCfg p v) s fun u => Violated s u 2 (word off) v)) ∧
    ( let t := s.tk.number.toNat / 2 ^ 32 * 2 ^ 32 + (s.reg Reg.CTL_GSWAP_TICK).toNat
      let moved (u : State) (a : Option (BitVec 48)) (st : Nat) : Prop :=
        OnlyReg { s with ct.swapAt := a } u Reg.CTL_GSWSTAT (setFld (s.reg Reg.CTL_GSWSTAT) 6 4 st)
      (s.tk.number.toNat + 2 ≤ t → Gives .streamGateArm s fun u => moved u (some (BitVec.ofNat 48 t)) 1) ∧
      (t < s.tk.number.toNat + 2 → Gives .streamGateArm s fun u => moved u none 3) ∧
      (s.ct.swapAt.isSome = true → Gives .streamGateCancel s fun u => moved u none 5) ∧
      (s.ct.swapAt = none → exec .streamGateCancel s = .next s)) ∧
    (Gives .ctlAdmit s fun u => (u = { s with regs := u.regs }) ∧
      u.reg Reg.CTL_ADMIT = word ((s.admission.2.getD (0, 0)).1 * 256) ∧ u.reg Reg.CTL_ADMIT_OBJ = word (s.admission.2.getD (0, 0)).2) ∧
    ( let on := setFld (s.reg Reg.SIG_CFG) 31 31 1
      (load → s.regB Reg.SIG_CFG 31 = false → Gives .sigEnable s fun u => u.regB Reg.SIG_CFG 31 = true ∧
        ∀ n, u.sig n = { s.sig n with old := true }) ∧
      (load → s.regB Reg.SIG_CFG 31 = true → 7 ≤ s.regF Reg.SIG_CFG 3 0 → Gives .sigEnable s fun u => (u = { s with regs := u.regs }) ∧
        u.regB Reg.SIG_CFG 31 = true) ∧
      (¬ load → Gives .sigEnable s fun u => Violated s u 2 (word Reg.SIG_CFG) on)) ∧
    ((∀ k < 16, s.svcValid k = false) → Gives .announce s fun u => u = { s with regs := u.regs }) ∧
    ((∀ k, 0 < k → k < 16 → s.svcValid k = false) → s.svcValid 0 = true → Gives .announce s fun u =>
      ∃ (x : State) (q flow pcp : Nat) (tha : List Byte), x.sw = s.sw ∧ x.mem = s.mem ∧ x.out = s.out ∧ tha.length = 6 ∧ pcp < 8 ∧
        ( let tag : List Byte := if s.recF .svc 0 0 3 3 = 1 then [0x81, 0x00] ++ beBytes 2 (pcp * 8192 + s.recF .svc 0 0 15 4) else []
          u = (((x.sendSelf q (arpFrame (List.replicate 6 0xFF) (s.svcMac 0) tag 2 (s.svcMac 0) (s.svcIp4 0) tha (s.svcIp4 0))).1).sendSelf q
            (naFrame [0x33, 0x33, 0, 0, 0, 1] tag (s.svcMac 0) (s.svcIp6 0) [0xFF, 2, 0, 0, 0, 0, 0, 0, 0, 0, 0, 0, 0, 0, 0, 1] (2 ^ 29) flow)).1)) ∧
    ( let shown (u : State) (n : Nat) : Prop := u.reg Reg.MGT_LD_STATUS = word n
      let barred (c : Instr) : Prop := Gives c s fun u => (u = { s with regs := u.regs }) ∧ shown u 0x102
      let s1 := s.setReg Reg.MGT_LD_CMD 1
      let s2 := s.setReg Reg.MGT_LD_CMD 2
      (load ∨ run → ∀ e, s1.checkImage.bad = some e → Gives .check s fun u => shown u (2 + e.1 * 256) ∧
        u.reg Reg.MGT_LD_OFFSET = word e.2 ∧ u.threads = s.threads ∧ u.fronds = s.fronds) ∧
      (load ∨ run → ∀ im, s1.checkImage.bad = none → s1.checkImage.image = some im → Gives .check s fun u => shown u 1 ∧
        u.reg Reg.MGT_LD_OFFSET = 0 ∧ u.threads = s.threads ∧ u.fronds = s.fronds) ∧
      (load ∨ run → ∀ e, s2.checkImage.bad = some e → Gives .checkAndCommit s fun u => shown u (2 + e.1 * 256) ∧
        u.reg Reg.MGT_LD_OFFSET = word e.2 ∧ u.threads = s.threads ∧ u.fronds = s.fronds) ∧
      (∀ im, s2.checkImage.bad = none → s2.checkImage.image = some im →
        (load → Gives .checkAndCommit s fun u => shown u 3 ∧ (∀ f ∈ maskFronds im.fronds, (u.frond f).imgLive = some im ∧
            (u.frond f).staged = false ∧ (u.frond f).armed = false ∧
            ∀ c < 16, ∀ t < 8, (u.thr (mkTid f c t)).role = roleOf (nth ⟨0, 0, false, false, false⟩ im.roles c) t) ∧
          ∀ f < 16, f ∉ maskFronds im.fronds → (u.frond f).imgLive = (s.frond f).imgLive ∧ (u.frond f).imgIdle = (s.frond f).imgIdle) ∧
        (run → Gives .checkAndCommit s fun u => shown u 4 ∧ u.threads = s.threads ∧
          (∀ f ∈ maskFronds im.fronds, (u.frond f = { s.frond f with imgIdle := some im, staged := true })) ∧
          ∀ f, f ∉ maskFronds im.fronds → u.frond f = s.frond f)) ∧
      (¬ load → ¬ run → barred .check ∧ barred .checkAndCommit) ∧
      (¬ run → barred .armSwap ∧ barred .cancelSwap) ∧
      (run → let t := s.reg64 Reg.MGT_SWAP_TICK_LO Reg.MGT_SWAP_TICK_HI % 2 ^ 48
        let some_ := ∃ f < 16, (s.frond f).staged = true
        (some_ → s.tk.number.toNat + 2 ≤ t → Gives .armSwap s fun u => u.swapArm = some (BitVec.ofNat 48 t) ∧ shown u 5 ∧
          u.threads = s.threads ∧ ∀ f < 16, (u.frond f = { s.frond f with armed := (s.frond f).staged })) ∧
        (some_ → t < s.tk.number.toNat + 2 → Gives .armSwap s fun u => u.swapArm = none ∧ shown u 7 ∧ u.threads = s.threads ∧
          ∀ f < 16, (u.frond f = { s.frond f with armed := false })) ∧
        (¬ some_ → Gives .armSwap s fun u => (u = { s with regs := u.regs }) ∧ shown u 2) ∧
        (s.swapArm.isSome = true → Gives .cancelSwap s fun u => u.swapArm = none ∧ shown u 6 ∧ u.threads = s.threads ∧
          ∀ f < 16, (u.frond f = { s.frond f with armed := false })) ∧
        (s.swapArm = none → Gives .cancelSwap s fun u => (u = { s with regs := u.regs }) ∧ shown u 0)) ∧
      (¬ load → barred (.loadResident services)) ∧
      ( let tasks := ∀ k ∈ s.residentCores, ∀ t ∈ coreTids k, (s.thr t).role = .task
        (load → s.residentCores = [] ∨ ¬ tasks → Gives (.loadResident services) s fun u => (u = { s with regs := u.regs }) ∧ shown u 0x802) ∧
        (load → s.residentCores ≠ [] → tasks → Gives (.loadResident services) s fun u => shown u 3 ∧
          (services.getLsbD 0 = true → (∀ f < 16, (s.frond f).services.testBit 0 = false) → u.regB Reg.PTP_CTRL 0 = true) ∧
          (∀ f < 16, (∃ k ∈ s.residentCores, k / 16 = f) → ∀ b < 3, services.getLsbD b = true →
            ∃ g < 16, (u.frond g).services.testBit b = true) ∧
          ∀ k ∈ s.residentCores, ∀ i < 0x4000, u.sram (iramBase (k / 16) (k % 16) (s.core k).bankB + i) = s.byte (0x805000000000 + i)))) ∧
    (c.val < 4 → (s.bulk c.val).queue = [] → (s.bulk c.val).fenced = false → Gives (.blkChAddrHi c v) s fun u =>
      (u.bulk c.val = { s.bulk c.val with armed := true }) ∧ u.reg (Reg.BLK_CH_ADDR_HI c.val) = v &&& 0xFFFF ∧
      u.regF (Reg.BLK_CH_STAT c.val) 30 24 = 0 ∧ ∀ k, k ≠ c.val → u.bulk k = s.bulk k) ∧
    (c.val < 4 → (s.bulk c.val).queue ≠ [] ∨ (s.bulk c.val).fenced = true → Gives (.blkChAddrHi c v) s fun u => u.host = s.host ∧
      u.reg (Reg.BLK_CH_ADDR_HI c.val) = v &&& 0xFFFF ∧ u.regF (Reg.BLK_CH_STAT c.val) 1 0 = 2) ∧
    (4 ≤ c.val → exec (.blkChAddrHi c v) s = .next (s.setReg (Reg.BLK_CH_ADDR_HI c.val) (v &&& 0xFFFF))) ∧
    (Gives (.blkRngRd r v) s fun u => u.reg (Reg.BLK_RNG_RD r.val) = v &&& 0xFFFF) ∧
    ((∀ b < 8, (s.bulk b).queue = []) → (s.ring r.val).held = [] →
      exec (.blkRngRd r v) s = .next (s.setReg (Reg.BLK_RNG_RD r.val) (v &&& 0xFFFF))) ∧
    ( let size := if v.toNat % 32 < 4 ∨ 16 < v.toNat % 32 then s.regF (Reg.BLK_RNG_CFG r.val) 4 0 else v.toNat % 32
      (Gives (.blkRngCfg r v) s fun u => u.reg (Reg.BLK_RNG_CFG r.val) = setFld (v &&& 0xBFE0FF1F) 4 0 size) ∧
      (v.getLsbD 30 = true → Gives (.blkRngCfg r v) s fun u => (u.ring r.val).held = [] ∧
        ((∀ b < 8, (s.bulk b).queue = []) →
          u.reg (Reg.BLK_RNG_LOST r.val) = satFld (s.reg (Reg.BLK_RNG_LOST r.val)) 31 0 (s.ring r.val).held.length))) ∧
    (exec (.mgtHeartbeat v) s = .next { s with host := { s.host with hbTicks := 0, lastHbValue := v }, md.hbWritten := true }) ∧
    ( let en := v.getLsbD 31 = true ∧ s.dc.board.mismatch = false
      let speed := if 3 < fld v 10 8 then s.regF Reg.DRC_CFG 10 8 else fld v 10 8
      (load → en → Gives (.drcCfg v) s fun u => u.reg Reg.DRC_CFG = word (2 ^ 31 + speed * 256) ∧
        (s.regB Reg.DRC_CFG 31 = false ∨ speed ≠ s.regF Reg.DRC_CFG 10 8 → u.dc.training = true ∧ u.dc.ready = false) ∧
        (s.regB Reg.DRC_CFG 31 = true → speed = s.regF Reg.DRC_CFG 10 8 → u.dc.training = s.dc.training ∧ u.dc.ready = s.dc.ready)) ∧
      (load → ¬ en → Gives (.drcCfg v) s fun u => u.dc.training = false ∧ u.dc.ready = false ∧ u.reg Reg.DRC_CFG = word (speed * 256)) ∧
      (load → v.getLsbD 31 = true ∧ s.dc.board.mismatch = true ∨ 3 < fld v 10 8 → Gives (.drcCfg v) s fun u =>
        u.reg Reg.BLK_VIOL_CNT = satFld (s.reg Reg.BLK_VIOL_CNT) 31 0 1) ∧
      (¬ load → Gives (.drcCfg v) s fun u => Violated s u 2 (word Reg.DRC_CFG) v)) ∧
    (Gives (.drcRetire v) s fun u => ∀ k < 8, u.chRetired k = true ↔
      s.chRetired k = true ∨ ∃ j < 8, j / 4 = k / 4 ∧ v.getLsbD j = true ∧ s.chRetired j = false) ∧
    (keepMaskOk (v.toNat % 65536) = true → exec (.drcKeep v) s = .next (s.setReg Reg.DRC_KEEP (v &&& 0xFFFF))) ∧
    (keepMaskOk (v.toNat % 65536) = false → Gives (.drcKeep v) s fun u =>
      OnlyReg s u Reg.DRC_KEEP (setFld (s.reg Reg.DRC_KEEP) 31 31 1)) ∧
    (Gives (.blkMbxDb v m) s fun u => (u = { s with threads := u.threads, regs := u.regs }) ∧
      (u.thr (v.truncate 11) = { s.thr (v.truncate 11) with evpend := (s.thr (v.truncate 11)).evpend ||| 0x4000 }) ∧
      OthersKept s u (v.truncate 11) ∧ (m = false → u.regs = s.regs) ∧
      (m = true → u.regB Reg.CLK_CDC_OVR 0 = true ∧ u.reg Reg.CLK_CDC_OVRCNT = satFld (s.reg Reg.CLK_CDC_OVRCNT) 31 0 1))

/-- Access to registers (R3, R4, R36, R42, R184, R222, R404, R423 to R425, R441, R452, R486, R494, R510 to R514): an access that is not word-aligned is
dropped and logged, an RWL register changes in LOAD alone, an offset without a register ignores a write, JTAG reaches RAS and DBG alone; a
read answers the value, latches the upper half of a pair, and has the side effect of its row; in KEEP no access does anything. The
configuration space and BAR4 are the host's, over a link that is up. -/
def Obligations.RegisterAccess : Prop :=
  ∀ (s : State) (off : BitVec 25) (v : Word) (f i : Fin 16) (c : Fin 17) (d : Fin 8) (dw : BitVec 14) (item : CfgItem) (q : Party),
    let o := off.toNat
    let answers (u : State) (o : Nat) : Prop := u.out.head? = some (.readData .host (s.valueFor .host o))
    (s.mode = .keep → exec (.registerWrite q (.bar0 off) v) s = .next s ∧ exec (.latchingPairRead q (.bar0 off)) s = .next s) ∧
    (s.hostSees q = false → exec (.registerWrite q (.bar4 dw) v) s = .next s ∧ exec (.registerWrite q (.config item) v) s = .next s ∧
      exec (.latchingPairRead q (.bar4 dw)) s = .next s ∧ exec (.latchingPairRead q (.config item)) s = .next s) ∧
    (s.hostSees .host = true →
      (dw.toNat < 2048 → Gives (.registerWrite .host (.bar4 dw) v) s fun u => u.regs = s.regs ∧ u.mem = s.mem ∧ u.threads = s.threads ∧
        (u.msixVec (dw.toNat / 4) = ( let x := s.msixVec (dw.toNat / 4)
          if dw.toNat % 4 = 0 then { x with addr := x.addr.extractLsb' 32 32 ++ (v &&& 0xFFFFFFFC) }
          else if dw.toNat % 4 = 1 then { x with addr := v ++ x.addr.extractLsb' 0 32 }
          else if dw.toNat % 4 = 2 then { x with data := v }
          else { x with masked := v.getLsbD 0 })) ∧
        ∀ k, k ≠ dw.toNat / 4 → u.msixVec k = s.msixVec k) ∧
      (2048 ≤ dw.toNat → exec (.registerWrite .host (.bar4 dw) v) s = .next s) ∧
      (dw.toNat < 2048 → exec (.latchingPairRead .host (.bar4 dw)) s = .next (s.emit (.readData .host
        ( let x := s.msixVec (dw.toNat / 4)
          if dw.toNat % 4 = 0 then x.addr.extractLsb' 0 32 else if dw.toNat % 4 = 1 then x.addr.extractLsb' 32 32
          else if dw.toNat % 4 = 2 then x.data else if x.masked then 1 else 0)))) ∧
      (exec (.latchingPairRead .host (.config .vendor)) s = .next (s.emit (.readData .host 0x1E5C))) ∧
      (exec (.latchingPairRead .host (.config .device)) s = .next (s.emit (.readData .host 0x7264))) ∧
      (exec (.latchingPairRead .host (.config .classCode)) s = .next (s.emit (.readData .host 0x028000))) ∧
      (exec (.latchingPairRead .host (.config .serialLo)) s = .next (s.emit (.readData .host (s.fuses.serial.extractLsb' 0 32)))) ∧
      (exec (.latchingPairRead .host (.config .serialHi)) s = .next (s.emit (.readData .host (s.fuses.serial.extractLsb' 32 32)))) ∧
      (item ∈ [CfgItem.vendor, .device, .revision, .classCode, .subVendor, .subsystem, .serialLo, .serialHi] →
        exec (.registerWrite .host (.config item) v) s = .next s) ∧
      (v.toNat ≤ 2 → exec (.registerWrite .host (.config .maxPayload) v) s = .next { s with host.mps := 128 * 2 ^ v.toNat }) ∧
      (v.toNat ≤ 5 → exec (.registerWrite .host (.config .maxReadRequest) v) s = .next { s with host.mrrs := 128 * 2 ^ v.toNat }) ∧
      (Gives (.registerWrite .host (.config .busMaster) v) s fun u => u.host.bme = v.getLsbD 0)) ∧
    (s.mode ≠ .keep →
      (o % 4 ≠ 0 → Gives (.registerWrite .host (.bar0 off) v) s fun u => Violated s u 1 (BitVec.ofNat 32 o) v) ∧
      (o % 4 ≠ 0 → Gives (.latchingPairRead .host (.bar0 off)) s fun u => u.out = .unsupported :: s.out ∧
        ∃ x, Violated { s with draws := u.draws } { u with out := s.out } 1 (BitVec.ofNat 32 o) x) ∧
      (∀ r, o % 4 = 0 → o < 0x200000 → regRow o = some r → r.rwl ≠ 0 → s.mode ≠ .load → Gives (.registerWrite .host (.bar0 off) v) s fun u =>
        Violated s u 2 (BitVec.ofNat 32 o) v) ∧
      (o % 4 = 0 → o < 0x1000000 → regRow o = none → statusChan o = none → exec (.registerWrite .host (.bar0 off) v) s = .next s) ∧
      (∀ k, o % 4 = 0 → o < 0x1000000 → regRow o = none → statusChan o = some k → Gives (.registerWrite .host (.bar0 off) v) s fun u =>
        (u.chan k = { s.chan k with hwm := if v.getLsbD 31 then (s.chan k).msgs.length else (s.chan k).hwm }) ∧
        (∀ j, j ≠ k → u.chan j = s.chan j) ∧ u.regs = s.regs) ∧
      (s.reaches .jtag o = false → exec (.registerWrite .jtag (.bar0 off) v) s = .next s) ∧
      (s.mode = .load → exec (.registerWrite .host (.bar0 (BitVec.ofNat 25 Reg.TICK_PHASE)) v) s = .next (s.setReg Reg.TICK_PHASE v)) ∧
      (isLo o = true → o < 0x1000000 → o % 4 = 0 → Gives (.latchingPairRead .host (.bar0 off)) s fun u => answers u o ∧
        u.latched .host (o + 4) = some (s.regWord (o + 4)) ∧ u.regs = s.regs ∧ u.mem = s.mem ∧ u.threads = s.threads) ∧
      (s.reaches .jtag o = false → o % 4 = 0 → exec (.latchingPairRead .jtag (.bar0 off)) s = .next (s.emit (.readData .jtag 0))) ∧
      ( let only (u x : State) (o : Nat) : Prop := u = { x with out := .readData .host (s.valueFor .host o) :: x.out }
        (Gives .ptpTxtsHi s fun u => only u { s with tb.txts := s.tb.txts.drop 1 } Reg.PTP_TXTS_HI) ∧
        (Gives .tickOvrLog1 s fun u => only u { s with tk.log := s.tk.log.drop 1 } Reg.TICK_OVR_LOG1) ∧
        (Gives .chkMlog5 s fun u => only u { s with ck.log := s.ck.log.drop 1 } (Reg.CHK_MLOG1 4)) ∧
        (Gives .blkViol2 s fun u => only u { s with host.viol := s.host.viol.drop 1 } Reg.BLK_VIOL2) ∧
        (Gives .chnReplLog s fun u => only u { s with cn.replLog := s.cn.replLog.drop 1 } Reg.CHN_REPL_LOG)) ∧
      (Gives (.rasLog4 .host) s fun u => answers u (Reg.RAS_LOG 4) ∧ (u = { s with ras := s.ras.drop 1, out := u.out })) ∧
      (s.jtagShut .jtag = false → Gives (.rasLog4 .jtag) s fun u => (u = { s with ras := s.ras.drop 1, out := u.out }) ∧
        u.out.head? = some (.readData .jtag (s.valueFor .jtag (Reg.RAS_LOG 4)))) ∧
      ((s.frond f.val).gated = false → (s.frond f.val).pllOff = false →
        (Gives (.coreFaultLast1 f c) s fun u => answers u (Reg.CORE_FAULT_LAST1 f.val c.val) ∧
          OnlyReg { s with out := u.out } u (Reg.CORE_FAULT_LAST0 f.val c.val) (setFld (s.reg (Reg.CORE_FAULT_LAST0 f.val c.val)) 31 31 0)) ∧
        (∀ code, Sparse.get (fun _ => TagState.free) (s.frond f.val).hostTags i.val = .done code → Gives (.frdCqHtag f i) s fun u =>
          u.out.head? = some (.readData .host (BitVec.ofNat 32 (3 * 2 ^ 30 + code.toNat))) ∧
          Sparse.get (fun _ => TagState.free) (u.frond f.val).hostTags i.val = .free) ∧
        (∀ n x, (x, n) ∈ [(TagState.free, 0), (.queued, 1), (.started, 2)] →
          Sparse.get (fun _ => TagState.free) (s.frond f.val).hostTags i.val = x →
          exec (.frdCqHtag f i) s = .next (s.emit (.readData .host (BitVec.ofNat 32 (n * 2 ^ 30)))))) ∧
      (Sparse.get (fun _ => []) s.dc.elogs d.val = [] → Gives (.drcChElog2 d) s fun u => answers u (Reg.DRC_CH_ELOG2 d.val) ∧
        OnlyReg { s with out := u.out } u (Reg.DRC_CH_ELOG0 d.val) (setFld (s.reg (Reg.DRC_CH_ELOG0 d.val)) 31 31 0)) ∧
      (∀ w, Sparse.get (fun _ => []) s.dc.elogs d.val = w → w ≠ [] → Gives (.drcChElog2 d) s fun u => answers u (Reg.DRC_CH_ELOG2 d.val) ∧
        (∀ k < 3, u.reg (Reg.DRC_CH_ELOG0 d.val + 4 * k) = nth 0 w k) ∧ Sparse.get (fun _ => []) u.dc.elogs d.val = []))

/-! ### Time base, engines -/

/-- The time base and the pulse pins (R21, R22, R23, R29, R45): PTP_PADJ starts a slew, PTP_STEP_HI steps the time base in LOAD, for the host while
PTP_CTRL.OWNER is 0 and for the time service while it is 1; a slew is absorbed by its instants of the clock, and SLEW_END is the
instant by which it is; PPS_IN is timestamped; the output pulses rise and fall when the rules say. -/
def Obligations.TimeBaseResults : Prop :=
  ∀ (s : State) (v : Word) (t : DWord) (p : Party),
    let on (x : DWord) : State := s.advanceTo x
    let owned := s.regB Reg.PTP_CTRL 0 = true
    let may := (p = .host ∧ ¬ owned) ∨ (p = .service ∧ owned)
    let step : Int := (s.tb.now.toNat : Int) + (pair (s.reg Reg.PTP_STEP_LO) v).toInt
    let second := BitVec.ofNat 64 (ceilDiv s.tb.now.toNat 1000000000 * 1000000000)
    let padj (q : Party) : Instr := .ptpPadj v q
    let hi (q : Party) : Instr := .ptpStepHi v q
    (∃ n, on t = { s with tb := { s.tb with
      now := if s.tb.now < t then t else s.tb.now
      frac := if s.tb.now < t then 0 else s.tb.frac
      slew := if s.tb.now < t then s.slewAfter n else s.tb.slew } }) ∧
    (s.mode ≠ .keep → may → exec (padj p) s = .next { s with tb := { s.tb with slew := v.toInt * 2 ^ 40 } }) ∧
    (s.mode = .load → may → 0 ≤ step → step < 2 ^ 64 → Gives (hi p) s fun u =>
      (u.tb = { s.tb with now := BitVec.ofInt 64 step }) ∧ u.reg Reg.PTP_STEP_HI = v ∧ (∀ o, o ≠ Reg.PTP_STEP_HI → u.reg o = s.reg o) ∧
      (u.tk = { s.tk with ahead := s.tk.ahead + s.jumped step.toNat, started := u.tk.started }) ∧ CoresKept s u) ∧
    (s.mode = .load → may → step < 0 ∨ 2 ^ 64 ≤ step → Gives (hi p) s fun u =>
      ∃ x, OnlyReg s x Reg.PTP_STEP_HI v ∧ Refused x u (BitVec.ofNat 32 Reg.PTP_STEP_HI) v) ∧
    (s.mode ≠ .keep → owned → Gives (padj .host) s fun u => Refused s u (BitVec.ofNat 32 Reg.PTP_PADJ) v) ∧
    (s.mode = .load → owned → Gives (hi .host) s fun u => Refused s u (BitVec.ofNat 32 Reg.PTP_STEP_HI) v) ∧
    (s.mode ≠ .keep → s.mode ≠ .load → p = .host ∨ may → Gives (hi p) s fun u => Violated s u 2 (BitVec.ofNat 32 Reg.PTP_STEP_HI) v) ∧
    (s.mode = .keep ∨ p = .jtag ∨ (p = .service ∧ ¬ owned) → exec (padj p) s = .next s ∧ exec (hi p) s = .next s) ∧
    (s.tb.slew ≠ 0 → (on t).tb.slew = 0 → exec (.slewEnd t) s = .next (on t)) ∧
    (s.tb.slew = 0 ∨ (on t).tb.slew ≠ 0 → exec (.slewEnd t) s = .next s) ∧
    (Gives (.ppsIn t) s fun u => (u = { on t with regs := u.regs }) ∧ u.reg Reg.PTP_PPSIN_LO = t.truncate 32 ∧
      u.reg Reg.PTP_PPSIN_HI = (t >>> 32).truncate 32 ∧
      ∀ o, o ≠ Reg.PTP_PPSIN_LO → o ≠ Reg.PTP_PPSIN_HI → u.reg o = s.reg o) ∧
    (s.regB Reg.PTP_CTRL 4 = true → s.tb.ppsHigh = none → exec .ppsOut s = .next { on second with
      tb.ppsHigh := some second
      out := .pin "PPS_OUT" true :: s.out }) ∧
    (s.regB Reg.PTP_CTRL 4 = false ∨ s.tb.ppsHigh.isSome = true → exec .ppsOut s = .next s) ∧
    (∀ h, s.tb.ppsHigh = some h → exec .ppsOutPulseEnd s = .next { on (h + BitVec.ofNat 64 (s.regF Reg.PTP_PPSOUT_W 19 0 * 1000)) with
      tb.ppsHigh := none
      out := .pin "PPS_OUT" false :: s.out }) ∧
    (s.tb.ppsHigh = none → exec .ppsOutPulseEnd s = .next s) ∧
    (∀ h, s.tb.tickHigh = some h → exec .tickOutPulseEnd s = .next { on (h + BitVec.ofNat 64 (s.regF Reg.TICK_OUT_CTRL 15 1 * 1000)) with
      tb.tickHigh := none
      out := .pin "TICK_OUT" false :: s.out }) ∧
    (s.tb.tickHigh = none → exec .tickOutPulseEnd s = .next s)

/-- Engines that work between boundaries: the sweep (R347), publication queueing (R264, R362), peat commits (R377), the responder (R365), the trend
service (R381, R386, R387) and the timers of sequence recovery (R331, R334). -/
def Obligations.EngineResults : Prop :=
  ∀ (s : State) (scan n : Nat) (i : Fin 32) (t : DWord) (h : Half) (bad : List DWord),
    let swept (k : Nat) : Prop := (k + 524288 - s.sg.sweepPos) % 524288 < 2 ^ s.regF Reg.SIG_CFG 3 0
    (s.regB Reg.SIG_CFG 31 = true → s.sg.swept = false → Sparse.wf (fun _ => { Sig.reset with old := s.sg.oldAll }) s.sg.entries = true →
      Gives .sweep s fun u => u.sg.swept = true ∧ u.sg.sweepPos = (s.sg.sweepPos + 2 ^ s.regF Reg.SIG_CFG 3 0) % 524288 ∧
        (∀ k, swept k → u.sig k = (s.sig k).sweep s.sg.tick16) ∧ (∀ k, ¬ swept k → u.sig k = s.sig k) ∧ u.regs = s.regs ∧ u.mem = s.mem) ∧
    (s.regB Reg.SIG_CFG 31 = false ∨ s.sg.swept = true → exec .sweep s = .next s) ∧
    (∀ b l, s.sg.built = b :: l → s.injectRoom (cellsOf b.finish.length) = true → Gives .publicationQueue s fun u =>
      u.sg = { s.sg with built := l } ∧ u.reg Reg.SIG_PUB_SENT = s.reg Reg.SIG_PUB_SENT + 1 ∧
      u.reg Reg.SIG_PUB_STALE = (if b.late then satFld (s.reg Reg.SIG_PUB_STALE) 31 0 1 else s.reg Reg.SIG_PUB_STALE)) ∧
    (∀ b l, s.sg.built = b :: l → s.injectRoom (cellsOf b.finish.length) = false → exec .publicationQueue s = .next s) ∧
    (s.sg.built = [] → exec .publicationQueue s = .next s) ∧
    (s.pt.todo = [] → s.dramReady = true → Gives (.peatCommit scan n) s fun u => u.pt.fifo = s.pt.fifo.drop n ∧
      ∀ j, (∀ r ∈ s.pt.fifo.take n, r.stream ≠ j) → u.pstream j = s.pstream j) ∧
    (s.pt.todo = [] → s.dramReady = false → exec (.peatCommit scan n) s = .next s) ∧
    (∀ j k l, s.pt.todo = (j, k) :: l → s.peatAppends j = false → s.dramReady = false → Gives (.peatCommit 1 n) s fun u =>
      u.pt.todo = (if k + 1 < psCount (s.pstream j).run then (j, k + 1) :: l else l) ∧ u.dram = s.dram ∧ u.threads = s.threads ∧
      ∀ e, e ≠ j → u.pstream e = s.pstream e) ∧
    (let f := s.regF Reg.DSP_SLOW_CFG 3 0
     let k := f * 64 + s.regF Reg.DSP_SLOW_CFG 9 4
     s.service f 2 = true → s.mode.threadsRun = true →
      ((s.chan k).msgs = [] → exec .responderRecord s = .next s) ∧
      ∀ m x, s.takeMsg k = some (m, x) →
        (∀ bs arp, x.draw.2.answer (x.slowRec m) x.draw.1.toNat = some (bs, arp) → x.emitFull (cellsOf bs.length) = false →
          (x.queuePort (512 + (x.slowRec m).lport * 8 + s.regF Reg.SIG_SVC_CFG 19 17)).isSome = true →
          Gives .responderRecord s fun u => (u.chan k).msgs = (s.chan k).msgs.tail ∧
            u.reg (Reg.SIG_SVC_CNT (if arp then 0 else 1)) = satFld (s.reg (Reg.SIG_SVC_CNT (if arp then 0 else 1))) 31 0 1) ∧
        (x.draw.2.answer (x.slowRec m) x.draw.1.toNat = none → s.regB Reg.SIG_SVC_CFG 16 = false → Gives .responderRecord s fun u =>
          (u.chan k).msgs = (s.chan k).msgs.tail ∧ u.reg (Reg.SIG_SVC_CNT 3) = satFld (s.reg (Reg.SIG_SVC_CNT 3)) 31 0 1)) ∧
    (let k := 1024 + s.regF Reg.PEAT_TRP_CFG1 7 0
     s.regB Reg.PEAT_TRP_CFG1 31 = true → s.serviceUp 1 = true → s.mode.threadsRun = true →
      let ask : Instr := .trpRequest bad
      let lost := bad.map (fun a => a.toNat)
      let counted (u : State) (k : Nat) : Prop := u.reg (Reg.PEAT_TRP_CNT k) = satFld (s.reg (Reg.PEAT_TRP_CNT k)) 31 0 1
      (∀ f q, s.pt.reply = some (f, q) → s.emitFull (cellsOf f.length) = false → (s.queuePort q).isSome = true →
        Gives ask s fun u => (u.pt = { s.pt with reply := none }) ∧ u.chans = s.chans) ∧
      (∀ f q, s.pt.reply = some (f, q) → s.emitFull (cellsOf f.length) = true ∨ s.queuePort q = none → exec ask s = .next s) ∧
      (s.pt.reply = none → (s.chan k).msgs = [] → exec ask s = .next s) ∧
      (∀ m x, s.pt.reply = none → s.takeMsg k = some (m, x) →
        let taken (u : State) : Prop := (u.chan k).msgs = (s.chan k).msgs.tail
        let r := x.slowRec m
        let y := x.freeRec r
        (x.trpDatagram r = none → Gives ask s fun u => taken u ∧ u.pt = s.pt ∧ counted u 3) ∧
        (∀ c v6 src port data, x.trpDatagram r = some (c, v6, src, port, data) → y.client v6 src = none →
          Gives ask s fun u => taken u ∧ u.pt = s.pt ∧ counted u 2) ∧
        (∀ c v6 src port data j, x.trpDatagram r = some (c, v6, src, port, data) → y.client v6 src = some j →
          let z := (y.padHead data).2
          let q : TrpReq := ⟨c, j, v6, src, port, (y.padHead data).1, data.length, r.lport⟩
          let part := z.trpPart lost q.type q.body (trpStart q.type q.body) true (z.trpCap q)
          let old := z.cursor (q.token / 2 ^ 27)
          let mine := old.used = true ∧ old.addr = src ∧ old.port = port ∧ old.type = q.type
          (z.trpCheck q ≠ 0 → Gives ask s fun u => taken u ∧ u.pt.cursors = s.pt.cursors ∧ counted u 1) ∧
          (z.trpCheck q = 0 → q.token = 0 → part.2.next = none → Gives ask s fun u => taken u ∧ u.pt.cursors = s.pt.cursors ∧ counted u 0) ∧
          (∀ pos n, z.trpCheck q = 0 → q.token = 0 → part.2.next = some pos → (upTo 32).find? (fun i => !(z.cursor i).used) = some n →
            Gives ask s fun u => taken u ∧ counted u 0 ∧ (u.cursor n).used = true ∧ (u.cursor n).addr = src ∧ (u.cursor n).port = port ∧
              (u.cursor n).type = q.type ∧ (u.cursor n).gen = nextGen (z.cursor n).gen ∧ ∀ k, k ≠ n → u.cursor k = s.cursor k) ∧
          (∀ pos, z.trpCheck q = 0 → q.token = 0 → part.2.next = some pos → (∀ i < 32, (z.cursor i).used = true) →
            Gives ask s fun u => taken u ∧ u.pt.cursors = s.pt.cursors ∧ counted u 1 ∧ counted u 6) ∧
          (z.trpCheck q = 0 → q.token ≠ 0 → ¬ mine → Gives ask s fun u => taken u ∧ u.pt.cursors = s.pt.cursors ∧ counted u 1) ∧
          (z.trpCheck q = 0 → q.token ≠ 0 → mine → q.token % 2 ^ 27 = old.gen → Gives ask s fun u => taken u ∧ counted u 0 ∧ counted u 4 ∧
            ∀ k, k ≠ q.token / 2 ^ 27 → u.cursor k = s.cursor k)))) ∧
    (let c := s.cursor i.val
     let now := s.advanceTo t
     let end_ := c.issued.toNat + s.regF Reg.PEAT_TRP_CFG1 15 8 * 1000000000
     (c.used = true → end_ ≤ now.tb.now.toNat → Gives (.cursorExpiry i t) s fun u => (u.cursor i.val = { c with used := false }) ∧
        (u = { now with regs := u.regs, pt.cursors := u.pt.cursors }) ∧
        u.reg (Reg.PEAT_TRP_CNT 5) = satFld (s.reg (Reg.PEAT_TRP_CNT 5)) 31 0 1 ∧ ∀ j : Fin 32, j ≠ i → u.cursor j.val = s.cursor j.val) ∧
     (c.used = false ∨ now.tb.now.toNat < end_ → exec (.cursorExpiry i t) s = .next now)) ∧
    (let k := h.toNat
     let x := s.frer k
     let off := ((x.discarded : Int) - (x.passed : Int) * ((s.recF .frer k 0 11 9 : Int) - 1)).natAbs
     (x.exist = true → s.recF .frer k 0 31 16 ≤ x.idle → exec (.frerReset h) s =
        .next (s.setFrer k { x.count 6 with takeAny := true, hist := 0, idle := 0 })) ∧
      (x.exist = false ∨ x.idle < s.recF .frer k 0 31 16 → exec (.frerReset h) s = .next s) ∧
      (x.exist = true → s.recF .frer k 0 8 8 = 1 → s.recF .frer k 1 31 16 ≤ x.latAge →
        (off ≤ s.recF .frer k 1 15 0 → x.resetAge < s.recF .frer k 2 15 0 → exec (.latentPeriod h) s =
          .next (s.setFrer k { x with latAge := 0 })) ∧
        (s.recF .frer k 1 15 0 < off → x.resetAge < s.recF .frer k 2 15 0 → s.ringRoom 0 = true → Gives (.latentPeriod h) s fun u =>
          u.frer k = { x with latAge := 0 }.count 7 ∧ (u.ring 0).seq = (s.ring 0).seq + 1) ∧
        (s.recF .frer k 2 15 0 ≤ x.resetAge → Gives (.latentPeriod h) s fun u =>
          (u.frer k).passed = 0 ∧ (u.frer k).discarded = 0 ∧ (u.frer k).resetAge = 0 ∧ (u.frer k).latAge = 0)) ∧
      (x.exist = false ∨ s.recF .frer k 0 8 8 ≠ 1 ∨ x.latAge < s.recF .frer k 1 31 16 → exec (.latentPeriod h) s = .next s))

/-! ### The rhizoid chain -/

/-- The tick controller (R24, R27, R29, R31, R527): it starts at the present instant in LOAD with the selected source; a controller that runs goes on;
TICK_NUMBER_HI sets the number of the next boundary, unless a swap is armed; outside LOAD both are violations of cause 2. -/
def Obligations.TickControl : Prop :=
  ∀ (s : State) (v : Word),
    let swap := s.swapArm.isSome = true ∨ s.ct.swapAt.isSome = true ∨ ∃ e ∈ s.sw.ports, e.2.armed.isSome = true
    (s.mode = .load → s.regB Reg.TICK_CTRL 0 = false → s.srcPri ≠ 3 → Gives .tickControllerStart s fun u =>
      u.regB Reg.TICK_CTRL 0 = true ∧ u.srcPri = s.srcPri ∧ u.srcFb = s.srcFb ∧ u.tk.started = some s.tb.now ∧ u.tk.last = none ∧
      u.tk.number = s.tk.number ∧ u.tk.btime = s.tk.btime ∧ u.tb = s.tb ∧ CoresKept { s with mem := u.mem, host := u.host } u ∧
      (s.srcPri = 0 → s.regB Reg.PTP_STATUS 0 = true → u.tk.active = 0 ∧ u.tk.holdover = false) ∧
      (s.srcPri = 2 → u.tk.active = 2 ∧ u.tk.holdover = false) ∧
      (s.srcPri = 1 → s.cn.head = false → u.tk.active = 1 ∧ u.tk.holdover = false) ∧
      (s.srcPri = 0 → s.regB Reg.PTP_STATUS 0 = false → s.srcFb = 2 → u.tk.active = 2 ∧ u.tk.holdover = false) ∧
      (s.srcPri = 0 → s.regB Reg.PTP_STATUS 0 = false → s.srcFb = 3 → u.tk.active = 3 ∧ u.tk.holdover = true)) ∧
    (s.mode = .load → s.regB Reg.TICK_CTRL 0 = true → s.srcPri ≠ 3 → Gives .tickControllerStart s fun u =>
      u.tk.started = s.tk.started ∧ u.tk.last = s.tk.last ∧ u.tk.number = s.tk.number ∧ u.tb = s.tb) ∧
    (s.mode = .load → ¬ swap → exec (.tickNumberHi v) s =
      .next { s with tk := { s.tk with
        setTo := some (BitVec.ofNat 48 (v.toNat % 65536 * 2 ^ 32 + (s.reg Reg.TICK_NUMBER_LO).toNat)) } }) ∧
    (s.mode = .load → swap → Gives (.tickNumberHi v) s fun u => Refused s u (BitVec.ofNat 32 Reg.TICK_NUMBER_HI) v) ∧
    (s.mode ≠ .load → Gives .tickControllerStart s fun u =>
      Violated s u 2 (BitVec.ofNat 32 Reg.TICK_CTRL) (setFld (s.reg Reg.TICK_CTRL) 0 0 1)) ∧
    (s.mode ≠ .load → Gives (.tickNumberHi v) s fun u => Violated s u 2 (BitVec.ofNat 32 Reg.TICK_NUMBER_HI) v)

/-- The copies of a chain frame (R444, R445, R453): without a correct one the frame is counted exhausted, a repeated sequence number is dropped, one with
HOPS above 31 is counted and discarded; an accepted HEARTBEAT refreshes the input and goes no further, unless the device has no
address or it carries the device's own without having been sent. -/
def Obligations.ChainCopies : Prop :=
  ∀ (s : State) (f : ChainFrame) (g : List Bool) (t : DWord) (fail : BitVec 16) (ok : Bool), s.tb.now ≤ t →
    let l : List Instr := [.enum f g t, .abort f g t, .msg f g t, .wake f g t fail ok, .replace f g t, .heartbeat f g t, .ack f g t]
    let now : State := s.advanceTo t
    let fresh := true ∈ g ∧ s.cn.seqIn ≠ some f.seq
    let own := s.cn.addr = some f.src ∧ (CType.heartbeat.code, (0 : Half)) ∉ s.cn.flying
    ((∀ b ∈ g, b = false) → ∀ c ∈ l, exec c s = .next (now.bump Reg.CHN_CNT_EXHAUSTED)) ∧
    (true ∈ g → s.cn.seqIn = some f.seq → ∀ c ∈ l, exec c s = .next now) ∧
    (fresh → 31 < f.hops.toNat → ∀ c ∈ l, Gives c s fun u =>
      u.reg Reg.CHN_CNT_BADADDR = satFld (s.reg Reg.CHN_CNT_BADADDR) 31 0 1 ∧ u.threads = s.threads ∧ u.chans = s.chans ∧
      u.cn.addr = s.cn.addr ∧ u.cn.out = s.cn.out ∧ u.cn.seqOut = s.cn.seqOut) ∧
    (fresh → f.hops.toNat ≤ 31 → s.cn.addr.isSome = true → ¬ own → exec (.heartbeat f g t) s = .next
      { (if g.head? = some true then now else now.bump Reg.CHN_CNT_RECOVERED) with cn := { s.cn with
        seqIn := some f.seq
        lastRx := t
        upSince := some (if t.toNat < s.cn.lastRx.toNat + 8000 then s.cn.upSince.getD t else t) } }) ∧
    (fresh → f.hops.toNat ≤ 31 → own → Gives (.heartbeat f g t) s fun u => u.reg Reg.CHN_CNT_BADADDR = satFld (s.reg Reg.CHN_CNT_BADADDR) 31 0 1 ∧ u.cn.seqOut = s.cn.seqOut) ∧
    (fresh → f.hops.toNat ≤ 31 → s.cn.addr = none → Gives (.heartbeat f g t) s fun u => u.cn.seqOut = s.cn.seqOut + 1 ∧
      u.out = List.replicate 3 (Out.chain (chainBytes { f with
        seq := s.cn.seqOut
        hops := f.hops + 1 } .heartbeat)) ++ s.out)

/-- Enumeration (R445, R446, R447): the head takes the count from a returned ENUM; another device takes the token as its address and passes on the
next, or tells of overflow or of an address error; the head sends ENUM on command and again each millisecond; a foreign ENUM with the device's own
address is counted and discarded. -/
def Obligations.EnumerationResults : Prop :=
  ∀ (s : State) (f : ChainFrame) (g : List Bool) (t : DWord),
    let token := f.tag.toNat % 256
    let ovf := f.tag.getLsbD 8
    let passes (u : State) (n : Nat) (o : Bool) : Prop := Out.chain (chainBytes { f with
      seq := s.cn.seqOut
      hops := f.hops + 1
      tag := BitVec.ofNat 16 (n % 256 + (if o then 256 else 0)) } .enum) ∈ u.out
    let starts (u : State) (now : DWord) : Prop := u.cn.enumAt = some now ∧ u.cn.seqOut = s.cn.seqOut + 1 ∧
      ∃ dst bcast, u.out = List.replicate 3 (Out.chain (chainBytes ⟨dst, bcast, s.chainAddr, s.cn.seqOut, 0, 0, 1, []⟩ .enum)) ++ s.out
    let own := s.cn.addr = some f.src
    (s.tb.now ≤ t → true ∈ g → s.cn.seqIn ≠ some f.seq → f.hops.toNat ≤ 31 → own → (CType.enum.code, (0 : Half)) ∉ s.cn.flying →
      Gives (.enum f g t) s fun u => u.cn.addr = s.cn.addr ∧ u.cn.count = s.cn.count ∧ u.cn.enumAt = s.cn.enumAt ∧ u.cn.seqOut = s.cn.seqOut ∧
        u.reg Reg.CHN_CNT_BADADDR = satFld (s.reg Reg.CHN_CNT_BADADDR) 31 0 1) ∧
    (s.tb.now ≤ t → true ∈ g → s.cn.seqIn ≠ some f.seq → f.hops.toNat ≤ 31 → (own → (CType.enum.code, (0 : Half)) ∈ s.cn.flying) →
      (s.cn.head = true → Gives (.enum f g t) s fun u => u.cn.count = min token 32 ∧ u.cn.ovf = (s.cn.ovf || ovf) ∧ u.cn.enumAt = none ∧
        u.cn.addr = s.cn.addr ∧ (s.cn.addr.isSome = true → s.mode = .enumerate → u.mode = .load) ∧ (s.mode ≠ .enumerate → u.mode = s.mode)) ∧
      (s.cn.head = false → s.cn.addr = none → token ≤ 31 → Gives (.enum f g t) s fun u => u.cn.addr = some (BitVec.ofNat 5 token) ∧
        passes u (token + 1) ovf ∧ (s.mode = .enumerate → u.mode = .load)) ∧
      (s.cn.head = false → s.cn.addr = none → 31 < token → Gives (.enum f g t) s fun u => u.cn.addr = none ∧ u.cn.ovf = true ∧
        passes u token true ∧ u.mode = s.mode) ∧
      (∀ a, s.cn.head = false → s.cn.addr = some a → Gives (.enum f g t) s fun u => u.cn.addr = some a ∧
        u.cn.addrErr = (s.cn.addrErr || decide (token ≠ a.toNat)) ∧ passes u (token + 1) ovf)) ∧
    (s.mode ≠ .keep → s.cn.head = true → Gives .enumCommand s fun u => starts u s.tb.now) ∧
    (s.mode ≠ .keep → s.cn.head = false → Gives .enumCommand s fun u => u.cn = s.cn ∧ u.out = s.out) ∧
    (∀ a, s.mode ≠ .keep → s.cn.head = true → s.cn.enumAt = some a → s.tb.now ≤ a + 1000000 →
      Gives .enumResend s fun u => starts u (a + 1000000)) ∧
    (s.mode = .enumerate → s.cn.head = true → s.cn.enumAt = none → Gives .enumResend s fun u => starts u s.tb.now) ∧
    (s.cn.head = false → exec .enumResend s = .next s)

/-- Messages of the chain (R449 to R451): what the host's and a thread's message send and note, what a received MSG delivers, answers and passes on,
what ends an outstanding message: its ACK, its return, its timeout. -/
def Obligations.ChainMessages : Prop :=
  ∀ (s : State) (f : ChainFrame) (g : List Bool) (t : DWord) (a : BitVec 5) (tag : Half), s.mode ≠ .keep → s.cn.addr = some a →
    let sent (u : State) (ty : CType) (x : ChainFrame) : Prop :=
      u.out = List.replicate 3 (.chain (chainBytes { x with seq := s.cn.seqOut } ty)) ++ s.out ∧ u.cn.seqOut = s.cn.seqOut + 1
    let h := s.reg Reg.CHN_TX_HDR
    let k := 1024 + f.chan.toNat
    let words : List Word := (upTo 8).map (fun i => BitVec.ofNat 32 (leAt f.payload (4 * i) 4))
    let ours (m : OutMsg) (n : Half) : Prop := s.cn.out.find? (fun m => decide (m.tag = n)) = some m ∧ m.host = true
    let tk := 1024 + s.regF Reg.CHN_CFG 15 8
    (fld h 2 0 = 0 → s.cn.out.length < 16 → Gives .txMsg s fun u =>
      u.cn.out = s.cn.out ++ [⟨s.cn.nextTag, true, 0, BitVec.ofNat 5 (fld h 12 8), h.getLsbD 13, s.tb.now⟩] ∧
      sent u .msg ⟨BitVec.ofNat 5 (fld h 12 8), h.getLsbD 13, a, 0, 0, BitVec.ofNat 8 (fld h 23 16), s.cn.nextTag,
        (upTo 8).flatMap (fun i => leBytes 4 (s.reg (Reg.CHN_TX_DATA i)).toNat)⟩) ∧
    (fld h 2 0 = 0 → 16 ≤ s.cn.out.length → exec .txMsg s = .next { s with cn := { s.cn with status := 1 } }) ∧
    (∀ c ∈ ([(.txAbort, 1), (.txWake, 2)] : List (Instr × Nat)), fld h 2 0 = c.2 → Gives c.1 s fun u => u.cn.out = s.cn.out ∧
      u.cn.seqOut = s.cn.seqOut + 1 ∧ ∃ dst tag, u.out = List.replicate 3 (.chain (chainBytes ⟨dst, true, a, s.cn.seqOut, 0, 0, tag,
        if c.2 = 1 then (upTo 2).flatMap (fun i => leBytes 4 (s.reg (Reg.CHN_TX_DATA i)).toNat) else []⟩
        (if c.2 = 1 then .abort else .wake))) ++ s.out) ∧
    (∀ c ∈ ([(.txMsg, 0), (.txAbort, 1), (.txWake, 2)] : List (Instr × Nat)), fld h 2 0 ≠ c.2 → exec c.1 s = .next s) ∧
    ((s.chan tk).msgs = [] → exec .threadMessage s = .next s) ∧
    (∀ m l, (s.chan tk).msgs = m :: l → s.regB Reg.CHN_CFG 0 = true → s.cn.out.length < 16 →
      let w := nth 0 m 0
      (m.length = 9 → w &&& 0xC0FF = 0 → Gives .threadMessage s fun u => (u.chan tk).msgs = l ∧
        u.cn.out = s.cn.out ++ [⟨s.cn.nextTag, false, fld w 31 24, BitVec.ofNat 5 (fld w 12 8), w.getLsbD 13, s.tb.now⟩] ∧
        sent u .msg ⟨BitVec.ofNat 5 (fld w 12 8), w.getLsbD 13, a, 0, 0, BitVec.ofNat 8 (fld w 23 16), s.cn.nextTag,
          (m.drop 1).flatMap (fun x => leBytes 4 x.toNat)⟩) ∧
      (m.length ≠ 9 → Gives .threadMessage s fun u => (u.chan tk).msgs = l ∧ u.cn = s.cn ∧ u.out = s.out ∧
        u.reg Reg.CHN_CNT_BADADDR = satFld (s.reg Reg.CHN_CNT_BADADDR) 31 0 1)) ∧
    (s.tb.now ≤ t → true ∈ g → s.cn.seqIn ≠ some f.seq → f.hops.toNat ≤ 31 →
      (f.src ≠ a → f.dst = a → f.bcast = false → (s.chan k).readers = [] →
        ((s.chan k).msgs.length < 16 → Gives (.msg f g t) s fun u =>
          (u.chan k).msgs = (s.chan k).msgs ++ [BitVec.ofNat 32 f.src.toNat :: words] ∧ sent u .ack ⟨f.src, false, a, 0, 0, 0, f.tag, []⟩) ∧
        (16 ≤ (s.chan k).msgs.length → Gives (.msg f g t) s fun u =>
          (u.chan k).msgs = (s.chan k).msgs ∧ sent u .ack ⟨f.src, false, a, 0, 0, 2, f.tag, []⟩)) ∧
      (f.src ≠ a → f.bcast = true → (s.chan k).readers = [] → (s.chan k).msgs.length < 16 → Gives (.msg f g t) s fun u =>
        (u.chan k).msgs = (s.chan k).msgs ++ [BitVec.ofNat 32 (f.src.toNat + 32) :: words] ∧ sent u .msg { f with hops := f.hops + 1 }) ∧
      (f.src ≠ a → f.dst ≠ a → f.bcast = false → Gives (.msg f g t) s fun u => u.chans = s.chans ∧ sent u .msg { f with hops := f.hops + 1 }) ∧
      (∀ m, f.src = a → ours m f.tag → f.bcast = true ∨ f.dst ≠ a → Gives (.msg f g t) s fun u =>
        u.cn.status = (if f.bcast then 0 else 3) ∧ u.cn.out = s.cn.out.filter (fun x => decide (x.tag ≠ m.tag)) ∧ u.out = s.out) ∧
      (∀ m, f.dst = a → ours m f.tag → Gives (.ack f g t) s fun u =>
        u.cn.status = (if f.chan = 0 then 0 else 2) ∧ u.cn.out = s.cn.out.filter (fun x => decide (x.tag ≠ m.tag)) ∧ u.out = s.out) ∧
      ((∀ m ∈ s.cn.out, m.tag ≠ f.tag) →
        let counted (c : Instr) (o : Nat) : Prop := Gives c s fun u => u.reg o = satFld (s.reg o) 31 0 1 ∧ u.cn.out = s.cn.out ∧
          u.cn.status = s.cn.status ∧ u.chans = s.chans ∧ u.cn.seqOut = s.cn.seqOut
        (f.src = a → f.bcast = true ∨ f.dst ≠ a → f.tag ∈ s.cn.expired → counted (.msg f g t) Reg.CHN_CNT_LATECOMP) ∧
        (f.src = a → f.bcast = true ∨ f.dst ≠ a → f.tag ∉ s.cn.expired → counted (.msg f g t) Reg.CHN_CNT_BADADDR) ∧
        (f.dst = a → f.tag ∈ s.cn.expired → counted (.ack f g t) Reg.CHN_CNT_LATECOMP)) ∧
      (f.dst ≠ a → f.src = a → (CType.ack.code, f.tag) ∉ s.cn.flying → Gives (.ack f g t) s fun u =>
        u.reg Reg.CHN_CNT_BADADDR = satFld (s.reg Reg.CHN_CNT_BADADDR) 31 0 1 ∧ u.cn.seqOut = s.cn.seqOut) ∧
      (f.dst ≠ a → f.src ≠ a → Gives (.ack f g t) s fun u => u.cn.out = s.cn.out ∧ sent u .ack { f with hops := f.hops + 1 })) ∧
    (∀ m, s.tb.now ≤ t → ours m tag →
      (m.start.toNat + s.regF Reg.CHN_MSGTO 15 0 * 1000 ≤ t.toNat → Gives (.messageTimeout tag t) s fun u => u.cn.status = 4 ∧
        u.cn.out = s.cn.out.filter (fun x => decide (x.tag ≠ m.tag)) ∧ tag ∈ u.cn.expired ∧
        u.reg Reg.CHN_CNT_TIMEOUT = satFld (s.reg Reg.CHN_CNT_TIMEOUT) 31 0 1) ∧
      (t.toNat < m.start.toNat + s.regF Reg.CHN_MSGTO 15 0 * 1000 → exec (.messageTimeout tag t) s = .next (s.advanceTo t))) ∧
    ((∀ m ∈ s.cn.out, m.tag ≠ tag) → exec (.messageTimeout tag t) s = .next (s.advanceTo t))

/-- Notices and the state of the links (R445, R447, R452, R453, R466, R480, R484): the sender of a notice removes it; another device acts on ABORT, WAKE and REPLACE and passes
them on; a HEARTBEAT is sent after 1 µs of silence; the input goes down by RING_BREAK and comes back by INPUT_UP. -/
def Obligations.ChainNotices : Prop :=
  ∀ (s : State) (f : ChainFrame) (g : List Bool) (t : DWord) (a : BitVec 5) (fail : BitVec 16) (ok lock : Bool), s.tb.now ≤ t →
    let l : List (Instr × CType) := [(.abort f g t, .abort), (.wake f g t fail ok, .wake), (.replace f g t, .replace)]
    let passes (u : State) (ty : CType) : Prop := ∃ q, u.out.take 3 = List.replicate 3 (.chain (chainBytes { f with
      seq := q
      hops := f.hops + 1 } ty))
    let lo := BitVec.ofNat 32 (leAt f.payload 0 4)
    let hi := BitVec.ofNat 32 (leAt f.payload 4 4)
    let heard := lock = true ∧ t.toNat < s.cn.lastRx.toNat + 8000
    (true ∈ g → s.cn.seqIn ≠ some f.seq → f.hops.toNat ≤ 31 → s.cn.addr = some a →
      (f.src = a → ∀ c ∈ l, (c.2.code, (0 : Half)) ∈ s.cn.flying → Gives c.1 s fun u =>
        u.cn.flying = s.cn.flying.erase (c.2.code, 0) ∧ u.out = s.out ∧ u.mode = s.mode ∧ u.cn.replLog = s.cn.replLog ∧
        CoresKept s u) ∧
      (f.src = a → ∀ c ∈ l, (c.2.code, (0 : Half)) ∉ s.cn.flying → Gives c.1 s fun u =>
        u.reg Reg.CHN_CNT_BADADDR = satFld (s.reg Reg.CHN_CNT_BADADDR) 31 0 1 ∧ u.cn.seqOut = s.cn.seqOut ∧ u.mode = s.mode ∧
        u.cn.replLog = s.cn.replLog ∧ u.rs = s.rs) ∧
      (f.src ≠ a → s.cn.replLog.length < 8 → Gives (.replace f g t) s fun u => passes u .replace ∧
        u.cn.replLog = s.cn.replLog ++ [(f.src, BitVec.ofNat 16 (leAt f.payload 0 2))]) ∧
      (f.src ≠ a → 8 ≤ s.cn.replLog.length → Gives (.replace f g t) s fun u => passes u .replace ∧ u.cn.replLog = s.cn.replLog) ∧
      (f.src ≠ a → s.mode ≠ .keep → s.md.entering = false → Gives (.wake f g t fail ok) s fun u => passes u .wake ∧ u.mode = s.mode ∧
        u.md = s.md) ∧
      (∀ x, f.src ≠ a → s.mode = .keep → s.md.snap = some x → Gives (.wake f g t fail false) s fun u => passes u .wake ∧ u.mode = .load ∧
        u.md.cause = 5) ∧
      ( let ours := hi.getLsbD 13 = true ∨ fld hi 12 8 = a.toNat
        let known := abortExists (fld lo 3 0) (fld lo 15 4) = true
        (f.src ≠ a → ¬ ours → Gives (.abort f g t) s fun u => passes u .abort ∧ u.rs = s.rs ∧ CoresKept s u ∧
          u.reg Reg.MGT_ABORT_LO = s.reg Reg.MGT_ABORT_LO ∧ u.sw.frames = s.sw.frames) ∧
        (f.src ≠ a → ours → fld hi 7 0 ≠ 0x5A → Gives (.abort f g t) s fun u => passes u .abort ∧ u.rs = s.rs ∧
          CoresKept { s with host := u.host } u ∧ u.reg Reg.BLK_VIOL_CNT = satFld (s.reg Reg.BLK_VIOL_CNT) 31 0 1 ∧
          u.reg Reg.MGT_ABORT_LO = lo &&& 0xFFFF) ∧
        (f.src ≠ a → ours → fld hi 7 0 = 0x5A → s.mode.acceptsReset = false ∨ ¬ known ∨ 4 ≤ s.rs.waiting.length →
          Gives (.abort f g t) s fun u => passes u .abort ∧ u.rs = s.rs ∧ CoresKept { s with host := u.host } u ∧
            u.regB Reg.MGT_ABORT_STAT 28 = true) ∧
        (f.src ≠ a → ours → fld hi 7 0 = 0x5A → s.mode.acceptsReset = true → known → s.rs.waiting = [] → s.rs.cur = none →
          s.abortsAtOnce (fld lo 3 0) (fld lo 15 4) = false → Gives (.abort f g t) s fun u => passes u .abort ∧
            u.rs.last = some (fld lo 3 0, fld lo 15 4) ∧ u.rs.cur.isSome = true ∧ u.rs.waiting = []) ∧
        (f.src ≠ a → ours → fld hi 7 0 = 0x5A → s.mode.acceptsReset = true → known → s.rs.waiting.length < 4 →
          (s.advanceTo t).abortBusy = true → Gives (.abort f g t) s fun u => passes u .abort ∧ CoresKept s u ∧
            (u.rs = { s.rs with waiting := s.rs.waiting ++ [lo &&& 0xFFFF] })))) ∧
    (s.cn.addr.isSome = true → s.cn.lastTx.toNat + 1000 ≤ t.toNat → Gives (.chainHeartbeatSend t) s fun u =>
      u.cn.seqOut = s.cn.seqOut + 1 ∧ u.cn.lastTx = t ∧ CoresKept s u ∧
      ∃ dst bcast tag, u.out = List.replicate 3 (.chain (chainBytes ⟨dst, bcast, s.chainAddr, s.cn.seqOut, 0, 0, tag, []⟩ .heartbeat)) ++ s.out) ∧
    (s.cn.addr = none ∨ t.toNat < s.cn.lastTx.toNat + 1000 → exec (.chainHeartbeatSend t) s = .next (s.advanceTo t)) ∧
    (s.cn.segHead = false → ¬ heard → Gives (.ringBreak t lock) s fun u => u.cn = { s.cn with
        segHead := true
        inLink := false
        upSince := none } ∧
      u.reg Reg.CHN_CNT_BREAKS = satFld (s.reg Reg.CHN_CNT_BREAKS) 31 0 1 ∧
      (s.ras.length < 64 → ∃ r, u.ras = s.ras ++ [r] ∧ r.code = 13) ∧
      (s.tickRuns = true → s.srcPri = 1 ∨ s.srcFb = 1 → s.cn.head = false → (u.source 1).lost = true)) ∧
    (s.cn.segHead = true ∨ heard → exec (.ringBreak t lock) s = .next (s.advanceTo t)) ∧
    (∀ x, s.cn.upSince = some x →
      (x.toNat + 100000 ≤ t.toNat → t.toNat < s.cn.lastRx.toNat + 8000 → exec (.inputUp t) s = .next { s.advanceTo t with cn := { s.cn with
        segHead := false
        inLink := true } }) ∧
      (t.toNat < x.toNat + 100000 ∨ s.cn.lastRx.toNat + 8000 ≤ t.toNat → exec (.inputUp t) s = .next (s.advanceTo t))) ∧
    (s.cn.upSince = none → exec (.inputUp t) s = .next (s.advanceTo t))

/-! ### Boundaries -/

/-- The rows at which a tick boundary occurs (R23 to R30, R32, R439, R448, R459, R461, R527), and where each makes none: a boundary advances the tick
number by one, or to the number set, and is recorded with its instant. -/
def Obligations.BoundaryResults : Prop :=
  ∀ (s : State) (ptp locked : Bool) (b v : Nat) (t : DWord) (f : ChainFrame),
    let at_ (u : State) (n : Nat) : Prop := u.tk.number = s.tk.setTo.getD (s.tk.number + 1) ∧ u.tk.setTo = none ∧
      u.tk.last = some (BitVec.ofNat 64 n) ∧ u.tk.btime = BitVec.ofNat 64 n ∧ u.tk.ahead = 0 ∧
      u.tk.history = (BitVec.ofNat 64 n, u.tk.number.toNat) :: s.tk.history
    let none_ (u : State) : Prop := u.tk.number = s.tk.number ∧ u.tk.last = s.tk.last ∧ u.tk.setTo = s.tk.setTo ∧ u.tk.btime = s.tk.btime
    let hops := t.toNat - f.hops.toNat * 48 - s.regF Reg.CHN_TICKADJ 15 0
    let tail := s.cn.head = false ∧ s.cn.segHead = false
    let unowned := s.regB Reg.PTP_CTRL 0 = true → locked = true
    let uses (c : Nat) : Prop := s.tk.active = c ∧ s.tk.leaving = false
    let picked (c : Nat) : Prop := s.srcPri = c ∨ s.srcFb = c
    let free_ := max s.tb.now.toNat s.holdoverAt
    (s.tickRuns = true → picked 0 → uses 0 → (s.source 0).lost = false → unowned → s.tb.now.toNat ≤ s.ptpAt → s.ptpAt < 2 ^ 64 →
      (s.halfAfter s.ptpAt = true → Gives (.tickBoundary true locked b v) s fun u => at_ u s.ptpAt ∧ u.tb.now.toNat = s.ptpAt) ∧
      (s.halfAfter s.ptpAt = false → Gives (.tickBoundary true locked b v) s fun u => none_ u ∧ u.tb.now.toNat = s.ptpAt)) ∧
    (s.tickRuns = true → uses 3 → unowned → Gives (.tickBoundary false locked b v) s fun u => at_ u free_) ∧
    (s.tickRuns = true → s.tk.active ≠ 3 ∨ s.tk.leaving = true → s.regB Reg.PTP_CTRL 0 = false →
      exec (.tickBoundary false locked b v) s = .next s) ∧
    (s.tickRuns = false → s.regB Reg.PTP_CTRL 0 = false → exec (.tickBoundary ptp locked b v) s = .next s) ∧
    (s.tickRuns = true → s.regB Reg.PTP_CTRL 0 = true → picked 0 → uses 0 → (s.source 0).lost = false → locked = false →
      Gives (.tickBoundary true locked b v) s fun u => none_ u ∧ u.regB Reg.PTP_STATUS 0 = false ∧ (u.source 0).lost = true) ∧
    (s.tb.now ≤ t → s.tickRuns = true → picked 2 →
      ((s.source 2).lost = false → uses 2 →
        (s.inWindow t.toNat = true → Gives (.tickInEdge t b v) s fun u => at_ u t.toNat ∧ u.tb.now = t) ∧
        (s.inWindow t.toNat = false → Gives (.tickInEdge t b v) s fun u => none_ u ∧
          u.reg Reg.TICK_STRAY = (if s.inSpan t.toNat then s.reg Reg.TICK_STRAY else satFld (s.reg Reg.TICK_STRAY) 31 0 1))) ∧
      ((s.source 2).lost = false → ¬ uses 2 → s.srcChoice = 2 → s.tk.last ≠ some t →
        (s.halfAfter t.toNat = true → Gives (.tickInEdge t b v) s fun u => at_ u t.toNat ∧ u.tb.now = t) ∧
        (s.halfAfter t.toNat = false → Gives (.tickInEdge t b v) s fun u => none_ u ∧ u.tk.leaving = true)) ∧
      ((s.source 2).lost = true → Gives (.tickInEdge t b v) s fun u => none_ u ∧
        (u.source 2 = (s.source 2).requalify t.toNat s.periodNs s.windowNs))) ∧
    (s.tickRuns = true → ∀ c, s.awaited = c → c = 1 ∨ c = 2 → picked c → Gives (.tickWindowClose b v) s fun u =>
      at_ u (max s.tb.now.toNat s.windowClose) ∧ (u.source c).lost = true) ∧
    (s.tickRuns = false ∨ (s.awaited ≠ 1 ∧ s.awaited ≠ 2) → exec (.tickWindowClose b v) s = .next s) ∧
    (s.tickRuns = true → uses 3 → unowned → s.md.cmd = none →
      (s.mode = .drain → s.md.entering = false → s.drained = false → s.regF Reg.MGT_DRAIN_LIMIT 15 0 ≤ s.md.drainTicks + 1 →
        Gives (.drainLimit false locked b v) s fun u => at_ u free_ ∧ u.mode = .load ∧ u.md.cause = 4) ∧
      (s.mode = .run → s.md.hbWritten = false → s.regF Reg.MGT_HB_TICKS 15 0 ≠ 0 →
        s.regF Reg.MGT_HB_TICKS 15 0 ≤ s.host.hbTicks + 1 → Gives (.heartbeatLapse false locked b v) s fun u =>
          at_ u free_ ∧ u.mode = .island ∧ u.md.cause = 2)) ∧
    (s.mode ≠ .drain ∨ s.drained = true ∨ s.md.drainTicks + 1 < s.regF Reg.MGT_DRAIN_LIMIT 15 0 →
      exec (.drainLimit ptp locked b v) s = .next s) ∧
    (s.mode ≠ .run ∨ s.regF Reg.MGT_HB_TICKS 15 0 = 0 ∨ s.md.hbWritten = true ∨ s.host.hbTicks + 1 < s.regF Reg.MGT_HB_TICKS 15 0 →
      exec (.heartbeatLapse ptp locked b v) s = .next s) ∧
    (s.tb.now ≤ t → f.hops.toNat ≤ 32 → s.chainOwn f = false → tail → s.tickRuns = true → picked 1 → (s.source 1).lost = false →
      (uses 1 → s.inWindow hops = true → Gives (.tick f true t b v) s fun u => at_ u hops) ∧
      (uses 1 → s.inWindow hops = false → Gives (.tick f true t b v) s fun u => none_ u ∧
        (leAt f.payload 0 6 ≠ s.tk.number.toNat → u.regB Reg.TICK_STATUS 5 = true) ∧
        u.reg Reg.TICK_STRAY = (if s.inSpan hops then s.reg Reg.TICK_STRAY else satFld (s.reg Reg.TICK_STRAY) 31 0 1))) ∧
    (s.tb.now ≤ t → f.hops.toNat ≤ 32 → s.chainOwn f = false → tail → ¬ picked 1 → s.tk.active ≠ 1 →
      Gives (.tick f true t b v) s fun u => none_ u ∧ u.cn.lastRx = t ∧
        u.out = .chain (chainBytes { f with hops := f.hops + 1 } .tick) :: s.out) ∧
    (s.tb.now ≤ t → f.hops.toNat ≤ 32 → s.cn.head = true → s.tk.active ≠ 1 → Gives (.tick f true t b v) s fun u => none_ u ∧
      u.cn.lastRx = t ∧ u.out = s.out) ∧
    (s.tb.now ≤ t → 32 < f.hops.toNat → Gives (.tick f true t b v) s fun u => none_ u ∧
      u.reg Reg.CHN_CNT_BADADDR = satFld (s.reg Reg.CHN_CNT_BADADDR) 31 0 1) ∧
    (s.tb.now ≤ t → Gives (.tick f false t b v) s fun u => none_ u ∧
      u.reg Reg.CHN_CNT_TICKBAD = satFld (s.reg Reg.CHN_CNT_TICKBAD) 31 0 1)

/-! ### The machine -/

/-- A step with a command at the front of the queue is that command's effect on the state with the rest of the queue. With none waiting a clock of
the time base passes (the model's choice, log entries 5 and 6), in which one thread at most issues: the instruction that its I-RAM bank
holds at its pc (R71), where a reserved opcode takes FAULT ILLEGAL (R72). -/
def Obligations.StepRunsFront : Prop :=
  (∀ (s : State) (c : Instr) (rest : List Instr), step { s with pending := c :: rest } = exec c { s with pending := rest }) ∧
  (∀ s : State, s.pending = [] → s.idle.issuers = [] → step s = .next s.idle) ∧
  (∀ s : State, s.pending = [] → s.idle.issuers ≠ [] → step s = .next s.idle.draw.2 ∨
    ∃ t ∈ s.idle.issuers, step s = s.idle.draw.2.fetchIssue t) ∧
  (∀ (s : State) (t : Tid), let h := s.code t (s.thr t).pc
    (∀ c, decodeOpvis t h (s.code t ((s.thr t).pc + 1)) = some c → s.fetchIssue t = exec c s) ∧
    (decodeOpvis t h (s.code t ((s.thr t).pc + 1)) = none → s.Ready t → ∃ u, s.fetchIssue t = .next u ∧ Faulted s u t .illegal 0)) ∧
  (∀ s : State, s.mode ≠ .enumerate → s.rs.waiting = [] → s.tb.slew = 0 → s.reg Reg.PTP_FADJ = 0 → s.tb.frac < 2 ^ 40 →
    (s.idle = { s with tb.now := s.tb.now + 1 }))

/-- What reset leaves (R458, R468, Table 20-7): mode ENUMERATE, every register at its reset value, no command waiting, time base and tick number 0,
memory in canonical form and all 0, every thread in its power-on state. Values that no rule
states are the model's (log entries 14, 15, 17 and 25). -/
def Obligations.ResetState : Prop :=
  State.reset.mode = .enumerate ∧ State.reset.pending = [] ∧ State.reset.tb.now = 0 ∧ State.reset.tk.number = 0 ∧
  (∀ o, State.reset.reg o = regReset o) ∧ State.reset.memWf = true ∧ State.reset.regsWf = true ∧
  (∀ a, State.reset.sram a = 0) ∧ (∀ t : Tid, State.reset.thr t = Thread.reset) ∧ State.reset.ras = [] ∧ State.reset.out = []

/-- Every command answers a next state, in every state: no command of this block faults or is refused. -/
def Obligations.EveryCommandAnswers : Prop := ∀ (c : Instr) (s : State), ∃ u, exec c s = .next u

/-- Every step keeps the canonical form of the memories, from every state that has it: addresses strictly rising, no byte listed that an unlisted
address reads as; that reset has it stands in ResetState. -/
def Obligations.StepKeepsMemory : Prop :=
  ∀ s u : State, s.memWf = true → step s = .next u → u.memWf = true
end

