-- ==== Sys2Proof/Laws/Sparse.lean ====
section
/-! SUPPORT. Sparse data: a read after a write, and the canonical form that every update keeps. -/

namespace Sys2Proof.Machine
variable {α : Type}

@[simp] theorem Sparse.get_put_self (d : Nat → α) (m : Sparse α) (k : Nat) (v : α) :
    Sparse.get d (Sparse.put m k v) k = v := by
  induction m with
  | nil => simp [Sparse.put, Sparse.get]
  | cons e m ih =>
    obtain ⟨j, w⟩ := e
    simp only [Sparse.put]
    split
    · simp [Sparse.get]
    · split
      · simp [Sparse.get]
      · simp [Sparse.get, *]

theorem Sparse.get_put_other (d : Nat → α) (m : Sparse α) (k q : Nat) (v : α) (h : q ≠ k) :
    Sparse.get d (Sparse.put m k v) q = Sparse.get d m q := by
  induction m with
  | nil => simp [Sparse.put, Sparse.get, h]
  | cons e m ih =>
    obtain ⟨j, w⟩ := e
    simp only [Sparse.put]
    split
    · simp [Sparse.get, h]
    · split
      · subst_vars
        simp [Sparse.get, h]
      · simp [Sparse.get, ih]

@[simp] theorem Sparse.get_drop_self (d : Nat → α) (m : Sparse α) (k : Nat) :
    Sparse.get d (Sparse.drop m k) k = d k := by
  induction m with
  | nil => rfl
  | cons e m ih =>
    obtain ⟨j, w⟩ := e
    simp only [Sparse.drop]
    split
    · exact ih
    · simp [Sparse.get, *]

theorem Sparse.get_drop_other (d : Nat → α) (m : Sparse α) (k q : Nat) (h : q ≠ k) :
    Sparse.get d (Sparse.drop m k) q = Sparse.get d m q := by
  induction m with
  | nil => rfl
  | cons e m ih =>
    obtain ⟨j, w⟩ := e
    simp only [Sparse.drop]
    split
    · subst_vars
      simp [Sparse.get, h, ih]
    · simp [Sparse.get, ih]

@[simp] theorem Sparse.get_set_self [DecidableEq α] (d : Nat → α) (m : Sparse α) (k : Nat) (v : α) :
    Sparse.get d (Sparse.set d m k v) k = v := by
  simp only [Sparse.set]
  split
  · simp [*]
  · simp

theorem Sparse.get_set_other [DecidableEq α] (d : Nat → α) (m : Sparse α) (k q : Nat) (v : α) (h : q ≠ k) :
    Sparse.get d (Sparse.set d m k v) q = Sparse.get d m q := by
  simp only [Sparse.set]
  split
  · exact Sparse.get_drop_other d m k q h
  · exact Sparse.get_put_other d m k q v h

theorem Sparse.get_set [DecidableEq α] (d : Nat → α) (m : Sparse α) (k q : Nat) (v : α) :
    Sparse.get d (Sparse.set d m k v) q = if q = k then v else Sparse.get d m q := by
  split
  · subst_vars
    simp
  · exact Sparse.get_set_other d m k q v ‹_›

/-- A bound below the keys may be lowered. -/
theorem Sparse.rising_mono (m : Sparse α) (lo hi : Nat) (h : lo ≤ hi) (r : Sparse.rising (some hi) m = true) :
    Sparse.rising (some lo) m = true := by
  cases m with
  | nil => rfl
  | cons e m =>
    simp only [Sparse.rising, Bool.and_eq_true, decide_eq_true_eq] at r ⊢
    exact ⟨by omega, r.2⟩

theorem Sparse.rising_none (m : Sparse α) (hi : Nat) (r : Sparse.rising (some hi) m = true) :
    Sparse.rising none m = true := by
  cases m with
  | nil => rfl
  | cons e m =>
    simp only [Sparse.rising, Bool.and_eq_true] at r ⊢
    exact r.2

theorem Sparse.rising_drop (m : Sparse α) (k lo : Nat) (r : Sparse.rising (some lo) m = true) :
    Sparse.rising (some lo) (Sparse.drop m k) = true := by
  induction m generalizing lo with
  | nil => rfl
  | cons e m ih =>
    obtain ⟨j, w⟩ := e
    simp only [Sparse.rising, Bool.and_eq_true, decide_eq_true_eq] at r
    simp only [Sparse.drop]
    split
    · exact ih lo (Sparse.rising_mono m lo j (by omega) r.2)
    · simp only [Sparse.rising, Bool.and_eq_true, decide_eq_true_eq]
      exact ⟨r.1, ih j r.2⟩

theorem Sparse.rising_put (m : Sparse α) (k lo : Nat) (v : α) (h : lo < k) (r : Sparse.rising (some lo) m = true) :
    Sparse.rising (some lo) (Sparse.put m k v) = true := by
  induction m generalizing lo with
  | nil => simp [Sparse.put, Sparse.rising, h]
  | cons e m ih =>
    obtain ⟨j, w⟩ := e
    simp only [Sparse.rising, Bool.and_eq_true, decide_eq_true_eq] at r
    simp only [Sparse.put]
    split
    · simp [Sparse.rising, *]
    · split
      · subst_vars
        simp [Sparse.rising, *]
      · simp only [Sparse.rising, Bool.and_eq_true, decide_eq_true_eq]
        exact ⟨r.1, ih j (by omega) r.2⟩

theorem Sparse.rising_drop_none (m : Sparse α) (k : Nat) (r : Sparse.rising none m = true) :
    Sparse.rising none (Sparse.drop m k) = true := by
  cases m with
  | nil => rfl
  | cons e m =>
    obtain ⟨j, w⟩ := e
    simp only [Sparse.rising] at r
    simp only [Sparse.drop]
    split
    · exact Sparse.rising_none _ j (Sparse.rising_drop m k j r)
    · exact Sparse.rising_drop m k j r

theorem Sparse.rising_put_none (m : Sparse α) (k : Nat) (v : α) (r : Sparse.rising none m = true) :
    Sparse.rising none (Sparse.put m k v) = true := by
  cases m with
  | nil => rfl
  | cons e m =>
    obtain ⟨j, w⟩ := e
    simp only [Sparse.rising] at r
    simp only [Sparse.put]
    split
    · simp [Sparse.rising, *]
    · split
      · subst_vars
        simpa [Sparse.rising] using r
      · exact Sparse.rising_put m k j v (by omega) r

theorem Sparse.mem_drop (m : Sparse α) (k : Nat) (e : Nat × α) (h : e ∈ Sparse.drop m k) : e ∈ m := by
  induction m with
  | nil => exact h
  | cons a m ih =>
    obtain ⟨j, w⟩ := a
    simp only [Sparse.drop] at h
    split at h
    · exact List.mem_cons_of_mem _ (ih h)
    · rcases List.mem_cons.1 h with h | h
      · exact h ▸ List.mem_cons_self
      · exact List.mem_cons_of_mem _ (ih h)

theorem Sparse.mem_put (m : Sparse α) (k : Nat) (v : α) (e : Nat × α) (h : e ∈ Sparse.put m k v) : e = (k, v) ∨ e ∈ m := by
  induction m with
  | nil => exact Or.inl (List.mem_singleton.1 h)
  | cons a m ih =>
    obtain ⟨j, w⟩ := a
    simp only [Sparse.put] at h
    split at h
    · rcases List.mem_cons.1 h with h | h
      · exact Or.inl h
      · exact Or.inr h
    · split at h
      · rcases List.mem_cons.1 h with h | h
        · exact Or.inl h
        · exact Or.inr (List.mem_cons_of_mem _ h)
      · rcases List.mem_cons.1 h with h | h
        · exact Or.inr (h ▸ List.mem_cons_self)
        · exact (ih h).imp id (List.mem_cons_of_mem _)

/-- Every write keeps the canonical form. -/
theorem Sparse.wf_set [DecidableEq α] (d : Nat → α) (m : Sparse α) (k : Nat) (v : α) (h : Sparse.wf d m = true) :
    Sparse.wf d (Sparse.set d m k v) = true := by
  simp only [Sparse.wf, Bool.and_eq_true, List.all_eq_true, decide_eq_true_eq] at h ⊢
  simp only [Sparse.set]
  split
  · exact ⟨Sparse.rising_drop_none m k h.1, fun e he => h.2 e (Sparse.mem_drop m k e he)⟩
  · refine ⟨Sparse.rising_put_none m k v h.1, fun e he => ?_⟩
    rcases Sparse.mem_put m k v e he with rfl | he
    · assumption
    · exact h.2 e he

theorem Sparse.rising_keep (p : Nat → Bool) (m : Sparse α) (lo : Nat) (r : Sparse.rising (some lo) m = true) :
    Sparse.rising (some lo) (Sparse.keep p m) = true := by
  induction m generalizing lo with
  | nil => rfl
  | cons e m ih =>
    obtain ⟨j, w⟩ := e
    simp only [Sparse.rising, Bool.and_eq_true, decide_eq_true_eq] at r
    have hm := ih lo (Sparse.rising_mono m lo j (by omega) r.2)
    have hj := ih j r.2
    simp only [Sparse.keep] at hm hj ⊢
    simp only [List.filter_cons]
    split
    · simp only [Sparse.rising, Bool.and_eq_true, decide_eq_true_eq]
      exact ⟨r.1, hj⟩
    · exact hm

/-- Keeping some keys keeps the canonical form. -/
theorem Sparse.wf_keep [DecidableEq α] (d : Nat → α) (p : Nat → Bool) (m : Sparse α) (h : Sparse.wf d m = true) :
    Sparse.wf d (Sparse.keep p m) = true := by
  simp only [Sparse.wf, Bool.and_eq_true, List.all_eq_true, decide_eq_true_eq] at h ⊢
  refine ⟨?_, fun e he => h.2 e (List.mem_filter.1 he).1⟩
  cases m with
  | nil => rfl
  | cons e m =>
    obtain ⟨j, w⟩ := e
    have r := h.1
    simp only [Sparse.rising] at r
    have hj := Sparse.rising_keep p m j r
    simp only [Sparse.keep] at hj ⊢
    simp only [List.filter_cons]
    split
    · exact hj
    · exact Sparse.rising_none _ j hj

/-- The byte at a key of the kept part. -/
theorem Sparse.get_keep (d : Nat → α) (p : Nat → Bool) (m : Sparse α) (k : Nat) :
    Sparse.get d (Sparse.keep p m) k = if p k then Sparse.get d m k else d k := by
  induction m with
  | nil => simp [Sparse.keep, Sparse.get]
  | cons e m ih =>
    obtain ⟨j, w⟩ := e
    simp only [Sparse.keep] at ih
    by_cases hk : k = j
    · subst hk
      by_cases hp : p k <;> simp [Sparse.keep, Sparse.get, hp] at ih ⊢
      exact ih
    · by_cases hp : p j <;> simp [Sparse.keep, Sparse.get, hp, hk] at ih ⊢ <;> exact ih

end Sys2Proof.Machine
end

