-- ==== Sys2Proof/Laws/State.lean ====
section
/-! SUPPORT. What each base update of the state leaves alone: one lemma per field and update. -/

namespace Sys2Proof.Machine

variable (s : State)

@[simp] theorem State.setReg_pending (off : Nat) (v : Word) : (s.setReg off v).pending = s.pending := rfl
@[simp] theorem State.setReg_mode (off : Nat) (v : Word) : (s.setReg off v).mode = s.mode := rfl
@[simp] theorem State.setReg_tb (off : Nat) (v : Word) : (s.setReg off v).tb = s.tb := rfl
@[simp] theorem State.setReg_tk (off : Nat) (v : Word) : (s.setReg off v).tk = s.tk := rfl
@[simp] theorem State.setReg_recs (off : Nat) (v : Word) : (s.setReg off v).recs = s.recs := rfl
@[simp] theorem State.setReg_stage (off : Nat) (v : Word) : (s.setReg off v).stage = s.stage := rfl
@[simp] theorem State.setReg_latch (off : Nat) (v : Word) : (s.setReg off v).latch = s.latch := rfl
@[simp] theorem State.setReg_mem (off : Nat) (v : Word) : (s.setReg off v).mem = s.mem := rfl
@[simp] theorem State.setReg_dram (off : Nat) (v : Word) : (s.setReg off v).dram = s.dram := rfl
@[simp] theorem State.setReg_dramGen (off : Nat) (v : Word) : (s.setReg off v).dramGen = s.dramGen := rfl
@[simp] theorem State.setReg_threads (off : Nat) (v : Word) : (s.setReg off v).threads = s.threads := rfl
@[simp] theorem State.setReg_cores (off : Nat) (v : Word) : (s.setReg off v).cores = s.cores := rfl
@[simp] theorem State.setReg_fronds (off : Nat) (v : Word) : (s.setReg off v).fronds = s.fronds := rfl
@[simp] theorem State.setReg_chans (off : Nat) (v : Word) : (s.setReg off v).chans = s.chans := rfl
@[simp] theorem State.setReg_dlocks (off : Nat) (v : Word) : (s.setReg off v).dlocks = s.dlocks := rfl
@[simp] theorem State.setReg_dlockHwm (off : Nat) (v : Word) : (s.setReg off v).dlockHwm = s.dlockHwm := rfl
@[simp] theorem State.setReg_touchedLocks (off : Nat) (v : Word) : (s.setReg off v).touchedLocks = s.touchedLocks := rfl
@[simp] theorem State.setReg_touchedChans (off : Nat) (v : Word) : (s.setReg off v).touchedChans = s.touchedChans := rfl
@[simp] theorem State.setReg_swapArm (off : Nat) (v : Word) : (s.setReg off v).swapArm = s.swapArm := rfl
@[simp] theorem State.setReg_sw (off : Nat) (v : Word) : (s.setReg off v).sw = s.sw := rfl
@[simp] theorem State.setReg_tbl (off : Nat) (v : Word) : (s.setReg off v).tbl = s.tbl := rfl
@[simp] theorem State.setReg_sg (off : Nat) (v : Word) : (s.setReg off v).sg = s.sg := rfl
@[simp] theorem State.setReg_ct (off : Nat) (v : Word) : (s.setReg off v).ct = s.ct := rfl
@[simp] theorem State.setReg_dc (off : Nat) (v : Word) : (s.setReg off v).dc = s.dc := rfl
@[simp] theorem State.setReg_host (off : Nat) (v : Word) : (s.setReg off v).host = s.host := rfl
@[simp] theorem State.setReg_cn (off : Nat) (v : Word) : (s.setReg off v).cn = s.cn := rfl
@[simp] theorem State.setReg_ck (off : Nat) (v : Word) : (s.setReg off v).ck = s.ck := rfl
@[simp] theorem State.setReg_pt (off : Nat) (v : Word) : (s.setReg off v).pt = s.pt := rfl
@[simp] theorem State.setReg_ras (off : Nat) (v : Word) : (s.setReg off v).ras = s.ras := rfl
@[simp] theorem State.setReg_replHist (off : Nat) (v : Word) : (s.setReg off v).replHist = s.replHist := rfl
@[simp] theorem State.setReg_rs (off : Nat) (v : Word) : (s.setReg off v).rs = s.rs := rfl
@[simp] theorem State.setReg_md (off : Nat) (v : Word) : (s.setReg off v).md = s.md := rfl
@[simp] theorem State.setReg_fuses (off : Nat) (v : Word) : (s.setReg off v).fuses = s.fuses := rfl
@[simp] theorem State.setReg_draws (off : Nat) (v : Word) : (s.setReg off v).draws = s.draws := rfl
@[simp] theorem State.setReg_out (off : Nat) (v : Word) : (s.setReg off v).out = s.out := rfl

@[simp] theorem State.setRec_pending (k : RecKind) (i w : Nat) (v : Word) : (s.setRec k i w v).pending = s.pending := rfl
@[simp] theorem State.setRec_mode (k : RecKind) (i w : Nat) (v : Word) : (s.setRec k i w v).mode = s.mode := rfl
@[simp] theorem State.setRec_tb (k : RecKind) (i w : Nat) (v : Word) : (s.setRec k i w v).tb = s.tb := rfl
@[simp] theorem State.setRec_tk (k : RecKind) (i w : Nat) (v : Word) : (s.setRec k i w v).tk = s.tk := rfl
@[simp] theorem State.setRec_regs (k : RecKind) (i w : Nat) (v : Word) : (s.setRec k i w v).regs = s.regs := rfl
@[simp] theorem State.setRec_stage (k : RecKind) (i w : Nat) (v : Word) : (s.setRec k i w v).stage = s.stage := rfl
@[simp] theorem State.setRec_latch (k : RecKind) (i w : Nat) (v : Word) : (s.setRec k i w v).latch = s.latch := rfl
@[simp] theorem State.setRec_mem (k : RecKind) (i w : Nat) (v : Word) : (s.setRec k i w v).mem = s.mem := rfl
@[simp] theorem State.setRec_dram (k : RecKind) (i w : Nat) (v : Word) : (s.setRec k i w v).dram = s.dram := rfl
@[simp] theorem State.setRec_dramGen (k : RecKind) (i w : Nat) (v : Word) : (s.setRec k i w v).dramGen = s.dramGen := rfl
@[simp] theorem State.setRec_threads (k : RecKind) (i w : Nat) (v : Word) : (s.setRec k i w v).threads = s.threads := rfl
@[simp] theorem State.setRec_cores (k : RecKind) (i w : Nat) (v : Word) : (s.setRec k i w v).cores = s.cores := rfl
@[simp] theorem State.setRec_fronds (k : RecKind) (i w : Nat) (v : Word) : (s.setRec k i w v).fronds = s.fronds := rfl
@[simp] theorem State.setRec_chans (k : RecKind) (i w : Nat) (v : Word) : (s.setRec k i w v).chans = s.chans := rfl
@[simp] theorem State.setRec_dlocks (k : RecKind) (i w : Nat) (v : Word) : (s.setRec k i w v).dlocks = s.dlocks := rfl
@[simp] theorem State.setRec_dlockHwm (k : RecKind) (i w : Nat) (v : Word) : (s.setRec k i w v).dlockHwm = s.dlockHwm := rfl
@[simp] theorem State.setRec_touchedLocks (k : RecKind) (i w : Nat) (v : Word) : (s.setRec k i w v).touchedLocks = s.touchedLocks := rfl
@[simp] theorem State.setRec_touchedChans (k : RecKind) (i w : Nat) (v : Word) : (s.setRec k i w v).touchedChans = s.touchedChans := rfl
@[simp] theorem State.setRec_swapArm (k : RecKind) (i w : Nat) (v : Word) : (s.setRec k i w v).swapArm = s.swapArm := rfl
@[simp] theorem State.setRec_sw (k : RecKind) (i w : Nat) (v : Word) : (s.setRec k i w v).sw = s.sw := rfl
@[simp] theorem State.setRec_tbl (k : RecKind) (i w : Nat) (v : Word) : (s.setRec k i w v).tbl = s.tbl := rfl
@[simp] theorem State.setRec_sg (k : RecKind) (i w : Nat) (v : Word) : (s.setRec k i w v).sg = s.sg := rfl
@[simp] theorem State.setRec_ct (k : RecKind) (i w : Nat) (v : Word) : (s.setRec k i w v).ct = s.ct := rfl
@[simp] theorem State.setRec_dc (k : RecKind) (i w : Nat) (v : Word) : (s.setRec k i w v).dc = s.dc := rfl
@[simp] theorem State.setRec_host (k : RecKind) (i w : Nat) (v : Word) : (s.setRec k i w v).host = s.host := rfl
@[simp] theorem State.setRec_cn (k : RecKind) (i w : Nat) (v : Word) : (s.setRec k i w v).cn = s.cn := rfl
@[simp] theorem State.setRec_ck (k : RecKind) (i w : Nat) (v : Word) : (s.setRec k i w v).ck = s.ck := rfl
@[simp] theorem State.setRec_pt (k : RecKind) (i w : Nat) (v : Word) : (s.setRec k i w v).pt = s.pt := rfl
@[simp] theorem State.setRec_ras (k : RecKind) (i w : Nat) (v : Word) : (s.setRec k i w v).ras = s.ras := rfl
@[simp] theorem State.setRec_replHist (k : RecKind) (i w : Nat) (v : Word) : (s.setRec k i w v).replHist = s.replHist := rfl
@[simp] theorem State.setRec_rs (k : RecKind) (i w : Nat) (v : Word) : (s.setRec k i w v).rs = s.rs := rfl
@[simp] theorem State.setRec_md (k : RecKind) (i w : Nat) (v : Word) : (s.setRec k i w v).md = s.md := rfl
@[simp] theorem State.setRec_fuses (k : RecKind) (i w : Nat) (v : Word) : (s.setRec k i w v).fuses = s.fuses := rfl
@[simp] theorem State.setRec_draws (k : RecKind) (i w : Nat) (v : Word) : (s.setRec k i w v).draws = s.draws := rfl
@[simp] theorem State.setRec_out (k : RecKind) (i w : Nat) (v : Word) : (s.setRec k i w v).out = s.out := rfl

@[simp] theorem State.setStaged_pending (off : Nat) (v : Option Word) : (s.setStaged off v).pending = s.pending := rfl
@[simp] theorem State.setStaged_mode (off : Nat) (v : Option Word) : (s.setStaged off v).mode = s.mode := rfl
@[simp] theorem State.setStaged_tb (off : Nat) (v : Option Word) : (s.setStaged off v).tb = s.tb := rfl
@[simp] theorem State.setStaged_tk (off : Nat) (v : Option Word) : (s.setStaged off v).tk = s.tk := rfl
@[simp] theorem State.setStaged_regs (off : Nat) (v : Option Word) : (s.setStaged off v).regs = s.regs := rfl
@[simp] theorem State.setStaged_recs (off : Nat) (v : Option Word) : (s.setStaged off v).recs = s.recs := rfl
@[simp] theorem State.setStaged_latch (off : Nat) (v : Option Word) : (s.setStaged off v).latch = s.latch := rfl
@[simp] theorem State.setStaged_mem (off : Nat) (v : Option Word) : (s.setStaged off v).mem = s.mem := rfl
@[simp] theorem State.setStaged_dram (off : Nat) (v : Option Word) : (s.setStaged off v).dram = s.dram := rfl
@[simp] theorem State.setStaged_dramGen (off : Nat) (v : Option Word) : (s.setStaged off v).dramGen = s.dramGen := rfl
@[simp] theorem State.setStaged_threads (off : Nat) (v : Option Word) : (s.setStaged off v).threads = s.threads := rfl
@[simp] theorem State.setStaged_cores (off : Nat) (v : Option Word) : (s.setStaged off v).cores = s.cores := rfl
@[simp] theorem State.setStaged_fronds (off : Nat) (v : Option Word) : (s.setStaged off v).fronds = s.fronds := rfl
@[simp] theorem State.setStaged_chans (off : Nat) (v : Option Word) : (s.setStaged off v).chans = s.chans := rfl
@[simp] theorem State.setStaged_dlocks (off : Nat) (v : Option Word) : (s.setStaged off v).dlocks = s.dlocks := rfl
@[simp] theorem State.setStaged_dlockHwm (off : Nat) (v : Option Word) : (s.setStaged off v).dlockHwm = s.dlockHwm := rfl
@[simp] theorem State.setStaged_touchedLocks (off : Nat) (v : Option Word) : (s.setStaged off v).touchedLocks = s.touchedLocks := rfl
@[simp] theorem State.setStaged_touchedChans (off : Nat) (v : Option Word) : (s.setStaged off v).touchedChans = s.touchedChans := rfl
@[simp] theorem State.setStaged_swapArm (off : Nat) (v : Option Word) : (s.setStaged off v).swapArm = s.swapArm := rfl
@[simp] theorem State.setStaged_sw (off : Nat) (v : Option Word) : (s.setStaged off v).sw = s.sw := rfl
@[simp] theorem State.setStaged_tbl (off : Nat) (v : Option Word) : (s.setStaged off v).tbl = s.tbl := rfl
@[simp] theorem State.setStaged_sg (off : Nat) (v : Option Word) : (s.setStaged off v).sg = s.sg := rfl
@[simp] theorem State.setStaged_ct (off : Nat) (v : Option Word) : (s.setStaged off v).ct = s.ct := rfl
@[simp] theorem State.setStaged_dc (off : Nat) (v : Option Word) : (s.setStaged off v).dc = s.dc := rfl
@[simp] theorem State.setStaged_host (off : Nat) (v : Option Word) : (s.setStaged off v).host = s.host := rfl
@[simp] theorem State.setStaged_cn (off : Nat) (v : Option Word) : (s.setStaged off v).cn = s.cn := rfl
@[simp] theorem State.setStaged_ck (off : Nat) (v : Option Word) : (s.setStaged off v).ck = s.ck := rfl
@[simp] theorem State.setStaged_pt (off : Nat) (v : Option Word) : (s.setStaged off v).pt = s.pt := rfl
@[simp] theorem State.setStaged_ras (off : Nat) (v : Option Word) : (s.setStaged off v).ras = s.ras := rfl
@[simp] theorem State.setStaged_replHist (off : Nat) (v : Option Word) : (s.setStaged off v).replHist = s.replHist := rfl
@[simp] theorem State.setStaged_rs (off : Nat) (v : Option Word) : (s.setStaged off v).rs = s.rs := rfl
@[simp] theorem State.setStaged_md (off : Nat) (v : Option Word) : (s.setStaged off v).md = s.md := rfl
@[simp] theorem State.setStaged_fuses (off : Nat) (v : Option Word) : (s.setStaged off v).fuses = s.fuses := rfl
@[simp] theorem State.setStaged_draws (off : Nat) (v : Option Word) : (s.setStaged off v).draws = s.draws := rfl
@[simp] theorem State.setStaged_out (off : Nat) (v : Option Word) : (s.setStaged off v).out = s.out := rfl

@[simp] theorem State.clearStage_pending (off n : Nat) : (s.clearStage off n).pending = s.pending := rfl
@[simp] theorem State.clearStage_mode (off n : Nat) : (s.clearStage off n).mode = s.mode := rfl
@[simp] theorem State.clearStage_tb (off n : Nat) : (s.clearStage off n).tb = s.tb := rfl
@[simp] theorem State.clearStage_tk (off n : Nat) : (s.clearStage off n).tk = s.tk := rfl
@[simp] theorem State.clearStage_regs (off n : Nat) : (s.clearStage off n).regs = s.regs := rfl
@[simp] theorem State.clearStage_recs (off n : Nat) : (s.clearStage off n).recs = s.recs := rfl
@[simp] theorem State.clearStage_latch (off n : Nat) : (s.clearStage off n).latch = s.latch := rfl
@[simp] theorem State.clearStage_mem (off n : Nat) : (s.clearStage off n).mem = s.mem := rfl
@[simp] theorem State.clearStage_dram (off n : Nat) : (s.clearStage off n).dram = s.dram := rfl
@[simp] theorem State.clearStage_dramGen (off n : Nat) : (s.clearStage off n).dramGen = s.dramGen := rfl
@[simp] theorem State.clearStage_threads (off n : Nat) : (s.clearStage off n).threads = s.threads := rfl
@[simp] theorem State.clearStage_cores (off n : Nat) : (s.clearStage off n).cores = s.cores := rfl
@[simp] theorem State.clearStage_fronds (off n : Nat) : (s.clearStage off n).fronds = s.fronds := rfl
@[simp] theorem State.clearStage_chans (off n : Nat) : (s.clearStage off n).chans = s.chans := rfl
@[simp] theorem State.clearStage_dlocks (off n : Nat) : (s.clearStage off n).dlocks = s.dlocks := rfl
@[simp] theorem State.clearStage_dlockHwm (off n : Nat) : (s.clearStage off n).dlockHwm = s.dlockHwm := rfl
@[simp] theorem State.clearStage_touchedLocks (off n : Nat) : (s.clearStage off n).touchedLocks = s.touchedLocks := rfl
@[simp] theorem State.clearStage_touchedChans (off n : Nat) : (s.clearStage off n).touchedChans = s.touchedChans := rfl
@[simp] theorem State.clearStage_swapArm (off n : Nat) : (s.clearStage off n).swapArm = s.swapArm := rfl
@[simp] theorem State.clearStage_sw (off n : Nat) : (s.clearStage off n).sw = s.sw := rfl
@[simp] theorem State.clearStage_tbl (off n : Nat) : (s.clearStage off n).tbl = s.tbl := rfl
@[simp] theorem State.clearStage_sg (off n : Nat) : (s.clearStage off n).sg = s.sg := rfl
@[simp] theorem State.clearStage_ct (off n : Nat) : (s.clearStage off n).ct = s.ct := rfl
@[simp] theorem State.clearStage_dc (off n : Nat) : (s.clearStage off n).dc = s.dc := rfl
@[simp] theorem State.clearStage_host (off n : Nat) : (s.clearStage off n).host = s.host := rfl
@[simp] theorem State.clearStage_cn (off n : Nat) : (s.clearStage off n).cn = s.cn := rfl
@[simp] theorem State.clearStage_ck (off n : Nat) : (s.clearStage off n).ck = s.ck := rfl
@[simp] theorem State.clearStage_pt (off n : Nat) : (s.clearStage off n).pt = s.pt := rfl
@[simp] theorem State.clearStage_ras (off n : Nat) : (s.clearStage off n).ras = s.ras := rfl
@[simp] theorem State.clearStage_replHist (off n : Nat) : (s.clearStage off n).replHist = s.replHist := rfl
@[simp] theorem State.clearStage_rs (off n : Nat) : (s.clearStage off n).rs = s.rs := rfl
@[simp] theorem State.clearStage_md (off n : Nat) : (s.clearStage off n).md = s.md := rfl
@[simp] theorem State.clearStage_fuses (off n : Nat) : (s.clearStage off n).fuses = s.fuses := rfl
@[simp] theorem State.clearStage_draws (off n : Nat) : (s.clearStage off n).draws = s.draws := rfl
@[simp] theorem State.clearStage_out (off n : Nat) : (s.clearStage off n).out = s.out := rfl

@[simp] theorem State.setThr_pending (t : Tid) (th : Thread) : (s.setThr t th).pending = s.pending := rfl
@[simp] theorem State.setThr_mode (t : Tid) (th : Thread) : (s.setThr t th).mode = s.mode := rfl
@[simp] theorem State.setThr_tb (t : Tid) (th : Thread) : (s.setThr t th).tb = s.tb := rfl
@[simp] theorem State.setThr_tk (t : Tid) (th : Thread) : (s.setThr t th).tk = s.tk := rfl
@[simp] theorem State.setThr_regs (t : Tid) (th : Thread) : (s.setThr t th).regs = s.regs := rfl
@[simp] theorem State.setThr_recs (t : Tid) (th : Thread) : (s.setThr t th).recs = s.recs := rfl
@[simp] theorem State.setThr_stage (t : Tid) (th : Thread) : (s.setThr t th).stage = s.stage := rfl
@[simp] theorem State.setThr_latch (t : Tid) (th : Thread) : (s.setThr t th).latch = s.latch := rfl
@[simp] theorem State.setThr_mem (t : Tid) (th : Thread) : (s.setThr t th).mem = s.mem := rfl
@[simp] theorem State.setThr_dram (t : Tid) (th : Thread) : (s.setThr t th).dram = s.dram := rfl
@[simp] theorem State.setThr_dramGen (t : Tid) (th : Thread) : (s.setThr t th).dramGen = s.dramGen := rfl
@[simp] theorem State.setThr_cores (t : Tid) (th : Thread) : (s.setThr t th).cores = s.cores := rfl
@[simp] theorem State.setThr_fronds (t : Tid) (th : Thread) : (s.setThr t th).fronds = s.fronds := rfl
@[simp] theorem State.setThr_chans (t : Tid) (th : Thread) : (s.setThr t th).chans = s.chans := rfl
@[simp] theorem State.setThr_dlocks (t : Tid) (th : Thread) : (s.setThr t th).dlocks = s.dlocks := rfl
@[simp] theorem State.setThr_dlockHwm (t : Tid) (th : Thread) : (s.setThr t th).dlockHwm = s.dlockHwm := rfl
@[simp] theorem State.setThr_touchedLocks (t : Tid) (th : Thread) : (s.setThr t th).touchedLocks = s.touchedLocks := rfl
@[simp] theorem State.setThr_touchedChans (t : Tid) (th : Thread) : (s.setThr t th).touchedChans = s.touchedChans := rfl
@[simp] theorem State.setThr_swapArm (t : Tid) (th : Thread) : (s.setThr t th).swapArm = s.swapArm := rfl
@[simp] theorem State.setThr_sw (t : Tid) (th : Thread) : (s.setThr t th).sw = s.sw := rfl
@[simp] theorem State.setThr_tbl (t : Tid) (th : Thread) : (s.setThr t th).tbl = s.tbl := rfl
@[simp] theorem State.setThr_sg (t : Tid) (th : Thread) : (s.setThr t th).sg = s.sg := rfl
@[simp] theorem State.setThr_ct (t : Tid) (th : Thread) : (s.setThr t th).ct = s.ct := rfl
@[simp] theorem State.setThr_dc (t : Tid) (th : Thread) : (s.setThr t th).dc = s.dc := rfl
@[simp] theorem State.setThr_host (t : Tid) (th : Thread) : (s.setThr t th).host = s.host := rfl
@[simp] theorem State.setThr_cn (t : Tid) (th : Thread) : (s.setThr t th).cn = s.cn := rfl
@[simp] theorem State.setThr_ck (t : Tid) (th : Thread) : (s.setThr t th).ck = s.ck := rfl
@[simp] theorem State.setThr_pt (t : Tid) (th : Thread) : (s.setThr t th).pt = s.pt := rfl
@[simp] theorem State.setThr_ras (t : Tid) (th : Thread) : (s.setThr t th).ras = s.ras := rfl
@[simp] theorem State.setThr_replHist (t : Tid) (th : Thread) : (s.setThr t th).replHist = s.replHist := rfl
@[simp] theorem State.setThr_rs (t : Tid) (th : Thread) : (s.setThr t th).rs = s.rs := rfl
@[simp] theorem State.setThr_md (t : Tid) (th : Thread) : (s.setThr t th).md = s.md := rfl
@[simp] theorem State.setThr_fuses (t : Tid) (th : Thread) : (s.setThr t th).fuses = s.fuses := rfl
@[simp] theorem State.setThr_draws (t : Tid) (th : Thread) : (s.setThr t th).draws = s.draws := rfl
@[simp] theorem State.setThr_out (t : Tid) (th : Thread) : (s.setThr t th).out = s.out := rfl

@[simp] theorem State.modThr_pending (t : Tid) (g : Thread → Thread) : (s.modThr t g).pending = s.pending := rfl
@[simp] theorem State.modThr_mode (t : Tid) (g : Thread → Thread) : (s.modThr t g).mode = s.mode := rfl
@[simp] theorem State.modThr_tb (t : Tid) (g : Thread → Thread) : (s.modThr t g).tb = s.tb := rfl
@[simp] theorem State.modThr_tk (t : Tid) (g : Thread → Thread) : (s.modThr t g).tk = s.tk := rfl
@[simp] theorem State.modThr_regs (t : Tid) (g : Thread → Thread) : (s.modThr t g).regs = s.regs := rfl
@[simp] theorem State.modThr_recs (t : Tid) (g : Thread → Thread) : (s.modThr t g).recs = s.recs := rfl
@[simp] theorem State.modThr_stage (t : Tid) (g : Thread → Thread) : (s.modThr t g).stage = s.stage := rfl
@[simp] theorem State.modThr_latch (t : Tid) (g : Thread → Thread) : (s.modThr t g).latch = s.latch := rfl
@[simp] theorem State.modThr_mem (t : Tid) (g : Thread → Thread) : (s.modThr t g).mem = s.mem := rfl
@[simp] theorem State.modThr_dram (t : Tid) (g : Thread → Thread) : (s.modThr t g).dram = s.dram := rfl
@[simp] theorem State.modThr_dramGen (t : Tid) (g : Thread → Thread) : (s.modThr t g).dramGen = s.dramGen := rfl
@[simp] theorem State.modThr_cores (t : Tid) (g : Thread → Thread) : (s.modThr t g).cores = s.cores := rfl
@[simp] theorem State.modThr_fronds (t : Tid) (g : Thread → Thread) : (s.modThr t g).fronds = s.fronds := rfl
@[simp] theorem State.modThr_chans (t : Tid) (g : Thread → Thread) : (s.modThr t g).chans = s.chans := rfl
@[simp] theorem State.modThr_dlocks (t : Tid) (g : Thread → Thread) : (s.modThr t g).dlocks = s.dlocks := rfl
@[simp] theorem State.modThr_dlockHwm (t : Tid) (g : Thread → Thread) : (s.modThr t g).dlockHwm = s.dlockHwm := rfl
@[simp] theorem State.modThr_touchedLocks (t : Tid) (g : Thread → Thread) : (s.modThr t g).touchedLocks = s.touchedLocks := rfl
@[simp] theorem State.modThr_touchedChans (t : Tid) (g : Thread → Thread) : (s.modThr t g).touchedChans = s.touchedChans := rfl
@[simp] theorem State.modThr_swapArm (t : Tid) (g : Thread → Thread) : (s.modThr t g).swapArm = s.swapArm := rfl
@[simp] theorem State.modThr_sw (t : Tid) (g : Thread → Thread) : (s.modThr t g).sw = s.sw := rfl
@[simp] theorem State.modThr_tbl (t : Tid) (g : Thread → Thread) : (s.modThr t g).tbl = s.tbl := rfl
@[simp] theorem State.modThr_sg (t : Tid) (g : Thread → Thread) : (s.modThr t g).sg = s.sg := rfl
@[simp] theorem State.modThr_ct (t : Tid) (g : Thread → Thread) : (s.modThr t g).ct = s.ct := rfl
@[simp] theorem State.modThr_dc (t : Tid) (g : Thread → Thread) : (s.modThr t g).dc = s.dc := rfl
@[simp] theorem State.modThr_host (t : Tid) (g : Thread → Thread) : (s.modThr t g).host = s.host := rfl
@[simp] theorem State.modThr_cn (t : Tid) (g : Thread → Thread) : (s.modThr t g).cn = s.cn := rfl
@[simp] theorem State.modThr_ck (t : Tid) (g : Thread → Thread) : (s.modThr t g).ck = s.ck := rfl
@[simp] theorem State.modThr_pt (t : Tid) (g : Thread → Thread) : (s.modThr t g).pt = s.pt := rfl
@[simp] theorem State.modThr_ras (t : Tid) (g : Thread → Thread) : (s.modThr t g).ras = s.ras := rfl
@[simp] theorem State.modThr_replHist (t : Tid) (g : Thread → Thread) : (s.modThr t g).replHist = s.replHist := rfl
@[simp] theorem State.modThr_rs (t : Tid) (g : Thread → Thread) : (s.modThr t g).rs = s.rs := rfl
@[simp] theorem State.modThr_md (t : Tid) (g : Thread → Thread) : (s.modThr t g).md = s.md := rfl
@[simp] theorem State.modThr_fuses (t : Tid) (g : Thread → Thread) : (s.modThr t g).fuses = s.fuses := rfl
@[simp] theorem State.modThr_draws (t : Tid) (g : Thread → Thread) : (s.modThr t g).draws = s.draws := rfl
@[simp] theorem State.modThr_out (t : Tid) (g : Thread → Thread) : (s.modThr t g).out = s.out := rfl

@[simp] theorem State.setCore_pending (k : Nat) (c : CoreUnit) : (s.setCore k c).pending = s.pending := rfl
@[simp] theorem State.setCore_mode (k : Nat) (c : CoreUnit) : (s.setCore k c).mode = s.mode := rfl
@[simp] theorem State.setCore_tb (k : Nat) (c : CoreUnit) : (s.setCore k c).tb = s.tb := rfl
@[simp] theorem State.setCore_tk (k : Nat) (c : CoreUnit) : (s.setCore k c).tk = s.tk := rfl
@[simp] theorem State.setCore_regs (k : Nat) (c : CoreUnit) : (s.setCore k c).regs = s.regs := rfl
@[simp] theorem State.setCore_recs (k : Nat) (c : CoreUnit) : (s.setCore k c).recs = s.recs := rfl
@[simp] theorem State.setCore_stage (k : Nat) (c : CoreUnit) : (s.setCore k c).stage = s.stage := rfl
@[simp] theorem State.setCore_latch (k : Nat) (c : CoreUnit) : (s.setCore k c).latch = s.latch := rfl
@[simp] theorem State.setCore_mem (k : Nat) (c : CoreUnit) : (s.setCore k c).mem = s.mem := rfl
@[simp] theorem State.setCore_dram (k : Nat) (c : CoreUnit) : (s.setCore k c).dram = s.dram := rfl
@[simp] theorem State.setCore_dramGen (k : Nat) (c : CoreUnit) : (s.setCore k c).dramGen = s.dramGen := rfl
@[simp] theorem State.setCore_threads (k : Nat) (c : CoreUnit) : (s.setCore k c).threads = s.threads := rfl
@[simp] theorem State.setCore_fronds (k : Nat) (c : CoreUnit) : (s.setCore k c).fronds = s.fronds := rfl
@[simp] theorem State.setCore_chans (k : Nat) (c : CoreUnit) : (s.setCore k c).chans = s.chans := rfl
@[simp] theorem State.setCore_dlocks (k : Nat) (c : CoreUnit) : (s.setCore k c).dlocks = s.dlocks := rfl
@[simp] theorem State.setCore_dlockHwm (k : Nat) (c : CoreUnit) : (s.setCore k c).dlockHwm = s.dlockHwm := rfl
@[simp] theorem State.setCore_touchedLocks (k : Nat) (c : CoreUnit) : (s.setCore k c).touchedLocks = s.touchedLocks := rfl
@[simp] theorem State.setCore_touchedChans (k : Nat) (c : CoreUnit) : (s.setCore k c).touchedChans = s.touchedChans := rfl
@[simp] theorem State.setCore_swapArm (k : Nat) (c : CoreUnit) : (s.setCore k c).swapArm = s.swapArm := rfl
@[simp] theorem State.setCore_sw (k : Nat) (c : CoreUnit) : (s.setCore k c).sw = s.sw := rfl
@[simp] theorem State.setCore_tbl (k : Nat) (c : CoreUnit) : (s.setCore k c).tbl = s.tbl := rfl
@[simp] theorem State.setCore_sg (k : Nat) (c : CoreUnit) : (s.setCore k c).sg = s.sg := rfl
@[simp] theorem State.setCore_ct (k : Nat) (c : CoreUnit) : (s.setCore k c).ct = s.ct := rfl
@[simp] theorem State.setCore_dc (k : Nat) (c : CoreUnit) : (s.setCore k c).dc = s.dc := rfl
@[simp] theorem State.setCore_host (k : Nat) (c : CoreUnit) : (s.setCore k c).host = s.host := rfl
@[simp] theorem State.setCore_cn (k : Nat) (c : CoreUnit) : (s.setCore k c).cn = s.cn := rfl
@[simp] theorem State.setCore_ck (k : Nat) (c : CoreUnit) : (s.setCore k c).ck = s.ck := rfl
@[simp] theorem State.setCore_pt (k : Nat) (c : CoreUnit) : (s.setCore k c).pt = s.pt := rfl
@[simp] theorem State.setCore_ras (k : Nat) (c : CoreUnit) : (s.setCore k c).ras = s.ras := rfl
@[simp] theorem State.setCore_replHist (k : Nat) (c : CoreUnit) : (s.setCore k c).replHist = s.replHist := rfl
@[simp] theorem State.setCore_rs (k : Nat) (c : CoreUnit) : (s.setCore k c).rs = s.rs := rfl
@[simp] theorem State.setCore_md (k : Nat) (c : CoreUnit) : (s.setCore k c).md = s.md := rfl
@[simp] theorem State.setCore_fuses (k : Nat) (c : CoreUnit) : (s.setCore k c).fuses = s.fuses := rfl
@[simp] theorem State.setCore_draws (k : Nat) (c : CoreUnit) : (s.setCore k c).draws = s.draws := rfl
@[simp] theorem State.setCore_out (k : Nat) (c : CoreUnit) : (s.setCore k c).out = s.out := rfl

@[simp] theorem State.setFrond_pending (f : Nat) (fr : Frond) : (s.setFrond f fr).pending = s.pending := rfl
@[simp] theorem State.setFrond_mode (f : Nat) (fr : Frond) : (s.setFrond f fr).mode = s.mode := rfl
@[simp] theorem State.setFrond_tb (f : Nat) (fr : Frond) : (s.setFrond f fr).tb = s.tb := rfl
@[simp] theorem State.setFrond_tk (f : Nat) (fr : Frond) : (s.setFrond f fr).tk = s.tk := rfl
@[simp] theorem State.setFrond_regs (f : Nat) (fr : Frond) : (s.setFrond f fr).regs = s.regs := rfl
@[simp] theorem State.setFrond_recs (f : Nat) (fr : Frond) : (s.setFrond f fr).recs = s.recs := rfl
@[simp] theorem State.setFrond_stage (f : Nat) (fr : Frond) : (s.setFrond f fr).stage = s.stage := rfl
@[simp] theorem State.setFrond_latch (f : Nat) (fr : Frond) : (s.setFrond f fr).latch = s.latch := rfl
@[simp] theorem State.setFrond_mem (f : Nat) (fr : Frond) : (s.setFrond f fr).mem = s.mem := rfl
@[simp] theorem State.setFrond_dram (f : Nat) (fr : Frond) : (s.setFrond f fr).dram = s.dram := rfl
@[simp] theorem State.setFrond_dramGen (f : Nat) (fr : Frond) : (s.setFrond f fr).dramGen = s.dramGen := rfl
@[simp] theorem State.setFrond_threads (f : Nat) (fr : Frond) : (s.setFrond f fr).threads = s.threads := rfl
@[simp] theorem State.setFrond_cores (f : Nat) (fr : Frond) : (s.setFrond f fr).cores = s.cores := rfl
@[simp] theorem State.setFrond_chans (f : Nat) (fr : Frond) : (s.setFrond f fr).chans = s.chans := rfl
@[simp] theorem State.setFrond_dlocks (f : Nat) (fr : Frond) : (s.setFrond f fr).dlocks = s.dlocks := rfl
@[simp] theorem State.setFrond_dlockHwm (f : Nat) (fr : Frond) : (s.setFrond f fr).dlockHwm = s.dlockHwm := rfl
@[simp] theorem State.setFrond_touchedLocks (f : Nat) (fr : Frond) : (s.setFrond f fr).touchedLocks = s.touchedLocks := rfl
@[simp] theorem State.setFrond_touchedChans (f : Nat) (fr : Frond) : (s.setFrond f fr).touchedChans = s.touchedChans := rfl
@[simp] theorem State.setFrond_swapArm (f : Nat) (fr : Frond) : (s.setFrond f fr).swapArm = s.swapArm := rfl
@[simp] theorem State.setFrond_sw (f : Nat) (fr : Frond) : (s.setFrond f fr).sw = s.sw := rfl
@[simp] theorem State.setFrond_tbl (f : Nat) (fr : Frond) : (s.setFrond f fr).tbl = s.tbl := rfl
@[simp] theorem State.setFrond_sg (f : Nat) (fr : Frond) : (s.setFrond f fr).sg = s.sg := rfl
@[simp] theorem State.setFrond_ct (f : Nat) (fr : Frond) : (s.setFrond f fr).ct = s.ct := rfl
@[simp] theorem State.setFrond_dc (f : Nat) (fr : Frond) : (s.setFrond f fr).dc = s.dc := rfl
@[simp] theorem State.setFrond_host (f : Nat) (fr : Frond) : (s.setFrond f fr).host = s.host := rfl
@[simp] theorem State.setFrond_cn (f : Nat) (fr : Frond) : (s.setFrond f fr).cn = s.cn := rfl
@[simp] theorem State.setFrond_ck (f : Nat) (fr : Frond) : (s.setFrond f fr).ck = s.ck := rfl
@[simp] theorem State.setFrond_pt (f : Nat) (fr : Frond) : (s.setFrond f fr).pt = s.pt := rfl
@[simp] theorem State.setFrond_ras (f : Nat) (fr : Frond) : (s.setFrond f fr).ras = s.ras := rfl
@[simp] theorem State.setFrond_replHist (f : Nat) (fr : Frond) : (s.setFrond f fr).replHist = s.replHist := rfl
@[simp] theorem State.setFrond_rs (f : Nat) (fr : Frond) : (s.setFrond f fr).rs = s.rs := rfl
@[simp] theorem State.setFrond_md (f : Nat) (fr : Frond) : (s.setFrond f fr).md = s.md := rfl
@[simp] theorem State.setFrond_fuses (f : Nat) (fr : Frond) : (s.setFrond f fr).fuses = s.fuses := rfl
@[simp] theorem State.setFrond_draws (f : Nat) (fr : Frond) : (s.setFrond f fr).draws = s.draws := rfl
@[simp] theorem State.setFrond_out (f : Nat) (fr : Frond) : (s.setFrond f fr).out = s.out := rfl

@[simp] theorem State.modFrond_pending (f : Nat) (g : Frond → Frond) : (s.modFrond f g).pending = s.pending := rfl
@[simp] theorem State.modFrond_mode (f : Nat) (g : Frond → Frond) : (s.modFrond f g).mode = s.mode := rfl
@[simp] theorem State.modFrond_tb (f : Nat) (g : Frond → Frond) : (s.modFrond f g).tb = s.tb := rfl
@[simp] theorem State.modFrond_tk (f : Nat) (g : Frond → Frond) : (s.modFrond f g).tk = s.tk := rfl
@[simp] theorem State.modFrond_regs (f : Nat) (g : Frond → Frond) : (s.modFrond f g).regs = s.regs := rfl
@[simp] theorem State.modFrond_recs (f : Nat) (g : Frond → Frond) : (s.modFrond f g).recs = s.recs := rfl
@[simp] theorem State.modFrond_stage (f : Nat) (g : Frond → Frond) : (s.modFrond f g).stage = s.stage := rfl
@[simp] theorem State.modFrond_latch (f : Nat) (g : Frond → Frond) : (s.modFrond f g).latch = s.latch := rfl
@[simp] theorem State.modFrond_mem (f : Nat) (g : Frond → Frond) : (s.modFrond f g).mem = s.mem := rfl
@[simp] theorem State.modFrond_dram (f : Nat) (g : Frond → Frond) : (s.modFrond f g).dram = s.dram := rfl
@[simp] theorem State.modFrond_dramGen (f : Nat) (g : Frond → Frond) : (s.modFrond f g).dramGen = s.dramGen := rfl
@[simp] theorem State.modFrond_threads (f : Nat) (g : Frond → Frond) : (s.modFrond f g).threads = s.threads := rfl
@[simp] theorem State.modFrond_cores (f : Nat) (g : Frond → Frond) : (s.modFrond f g).cores = s.cores := rfl
@[simp] theorem State.modFrond_chans (f : Nat) (g : Frond → Frond) : (s.modFrond f g).chans = s.chans := rfl
@[simp] theorem State.modFrond_dlocks (f : Nat) (g : Frond → Frond) : (s.modFrond f g).dlocks = s.dlocks := rfl
@[simp] theorem State.modFrond_dlockHwm (f : Nat) (g : Frond → Frond) : (s.modFrond f g).dlockHwm = s.dlockHwm := rfl
@[simp] theorem State.modFrond_touchedLocks (f : Nat) (g : Frond → Frond) : (s.modFrond f g).touchedLocks = s.touchedLocks := rfl
@[simp] theorem State.modFrond_touchedChans (f : Nat) (g : Frond → Frond) : (s.modFrond f g).touchedChans = s.touchedChans := rfl
@[simp] theorem State.modFrond_swapArm (f : Nat) (g : Frond → Frond) : (s.modFrond f g).swapArm = s.swapArm := rfl
@[simp] theorem State.modFrond_sw (f : Nat) (g : Frond → Frond) : (s.modFrond f g).sw = s.sw := rfl
@[simp] theorem State.modFrond_tbl (f : Nat) (g : Frond → Frond) : (s.modFrond f g).tbl = s.tbl := rfl
@[simp] theorem State.modFrond_sg (f : Nat) (g : Frond → Frond) : (s.modFrond f g).sg = s.sg := rfl
@[simp] theorem State.modFrond_ct (f : Nat) (g : Frond → Frond) : (s.modFrond f g).ct = s.ct := rfl
@[simp] theorem State.modFrond_dc (f : Nat) (g : Frond → Frond) : (s.modFrond f g).dc = s.dc := rfl
@[simp] theorem State.modFrond_host (f : Nat) (g : Frond → Frond) : (s.modFrond f g).host = s.host := rfl
@[simp] theorem State.modFrond_cn (f : Nat) (g : Frond → Frond) : (s.modFrond f g).cn = s.cn := rfl
@[simp] theorem State.modFrond_ck (f : Nat) (g : Frond → Frond) : (s.modFrond f g).ck = s.ck := rfl
@[simp] theorem State.modFrond_pt (f : Nat) (g : Frond → Frond) : (s.modFrond f g).pt = s.pt := rfl
@[simp] theorem State.modFrond_ras (f : Nat) (g : Frond → Frond) : (s.modFrond f g).ras = s.ras := rfl
@[simp] theorem State.modFrond_replHist (f : Nat) (g : Frond → Frond) : (s.modFrond f g).replHist = s.replHist := rfl
@[simp] theorem State.modFrond_rs (f : Nat) (g : Frond → Frond) : (s.modFrond f g).rs = s.rs := rfl
@[simp] theorem State.modFrond_md (f : Nat) (g : Frond → Frond) : (s.modFrond f g).md = s.md := rfl
@[simp] theorem State.modFrond_fuses (f : Nat) (g : Frond → Frond) : (s.modFrond f g).fuses = s.fuses := rfl
@[simp] theorem State.modFrond_draws (f : Nat) (g : Frond → Frond) : (s.modFrond f g).draws = s.draws := rfl
@[simp] theorem State.modFrond_out (f : Nat) (g : Frond → Frond) : (s.modFrond f g).out = s.out := rfl

@[simp] theorem State.setChan_pending (k : Nat) (c : Channel) : (s.setChan k c).pending = s.pending := rfl
@[simp] theorem State.setChan_mode (k : Nat) (c : Channel) : (s.setChan k c).mode = s.mode := rfl
@[simp] theorem State.setChan_tb (k : Nat) (c : Channel) : (s.setChan k c).tb = s.tb := rfl
@[simp] theorem State.setChan_tk (k : Nat) (c : Channel) : (s.setChan k c).tk = s.tk := rfl
@[simp] theorem State.setChan_regs (k : Nat) (c : Channel) : (s.setChan k c).regs = s.regs := rfl
@[simp] theorem State.setChan_recs (k : Nat) (c : Channel) : (s.setChan k c).recs = s.recs := rfl
@[simp] theorem State.setChan_stage (k : Nat) (c : Channel) : (s.setChan k c).stage = s.stage := rfl
@[simp] theorem State.setChan_latch (k : Nat) (c : Channel) : (s.setChan k c).latch = s.latch := rfl
@[simp] theorem State.setChan_mem (k : Nat) (c : Channel) : (s.setChan k c).mem = s.mem := rfl
@[simp] theorem State.setChan_dram (k : Nat) (c : Channel) : (s.setChan k c).dram = s.dram := rfl
@[simp] theorem State.setChan_dramGen (k : Nat) (c : Channel) : (s.setChan k c).dramGen = s.dramGen := rfl
@[simp] theorem State.setChan_threads (k : Nat) (c : Channel) : (s.setChan k c).threads = s.threads := rfl
@[simp] theorem State.setChan_cores (k : Nat) (c : Channel) : (s.setChan k c).cores = s.cores := rfl
@[simp] theorem State.setChan_fronds (k : Nat) (c : Channel) : (s.setChan k c).fronds = s.fronds := rfl
@[simp] theorem State.setChan_dlocks (k : Nat) (c : Channel) : (s.setChan k c).dlocks = s.dlocks := rfl
@[simp] theorem State.setChan_dlockHwm (k : Nat) (c : Channel) : (s.setChan k c).dlockHwm = s.dlockHwm := rfl
@[simp] theorem State.setChan_touchedLocks (k : Nat) (c : Channel) : (s.setChan k c).touchedLocks = s.touchedLocks := rfl
@[simp] theorem State.setChan_touchedChans (k : Nat) (c : Channel) : (s.setChan k c).touchedChans = s.touchedChans := rfl
@[simp] theorem State.setChan_swapArm (k : Nat) (c : Channel) : (s.setChan k c).swapArm = s.swapArm := rfl
@[simp] theorem State.setChan_sw (k : Nat) (c : Channel) : (s.setChan k c).sw = s.sw := rfl
@[simp] theorem State.setChan_tbl (k : Nat) (c : Channel) : (s.setChan k c).tbl = s.tbl := rfl
@[simp] theorem State.setChan_sg (k : Nat) (c : Channel) : (s.setChan k c).sg = s.sg := rfl
@[simp] theorem State.setChan_ct (k : Nat) (c : Channel) : (s.setChan k c).ct = s.ct := rfl
@[simp] theorem State.setChan_dc (k : Nat) (c : Channel) : (s.setChan k c).dc = s.dc := rfl
@[simp] theorem State.setChan_host (k : Nat) (c : Channel) : (s.setChan k c).host = s.host := rfl
@[simp] theorem State.setChan_cn (k : Nat) (c : Channel) : (s.setChan k c).cn = s.cn := rfl
@[simp] theorem State.setChan_ck (k : Nat) (c : Channel) : (s.setChan k c).ck = s.ck := rfl
@[simp] theorem State.setChan_pt (k : Nat) (c : Channel) : (s.setChan k c).pt = s.pt := rfl
@[simp] theorem State.setChan_ras (k : Nat) (c : Channel) : (s.setChan k c).ras = s.ras := rfl
@[simp] theorem State.setChan_replHist (k : Nat) (c : Channel) : (s.setChan k c).replHist = s.replHist := rfl
@[simp] theorem State.setChan_rs (k : Nat) (c : Channel) : (s.setChan k c).rs = s.rs := rfl
@[simp] theorem State.setChan_md (k : Nat) (c : Channel) : (s.setChan k c).md = s.md := rfl
@[simp] theorem State.setChan_fuses (k : Nat) (c : Channel) : (s.setChan k c).fuses = s.fuses := rfl
@[simp] theorem State.setChan_draws (k : Nat) (c : Channel) : (s.setChan k c).draws = s.draws := rfl
@[simp] theorem State.setChan_out (k : Nat) (c : Channel) : (s.setChan k c).out = s.out := rfl

@[simp] theorem State.setRing_pending (r : Nat) (x : Ring) : (s.setRing r x).pending = s.pending := rfl
@[simp] theorem State.setRing_mode (r : Nat) (x : Ring) : (s.setRing r x).mode = s.mode := rfl
@[simp] theorem State.setRing_tb (r : Nat) (x : Ring) : (s.setRing r x).tb = s.tb := rfl
@[simp] theorem State.setRing_tk (r : Nat) (x : Ring) : (s.setRing r x).tk = s.tk := rfl
@[simp] theorem State.setRing_regs (r : Nat) (x : Ring) : (s.setRing r x).regs = s.regs := rfl
@[simp] theorem State.setRing_recs (r : Nat) (x : Ring) : (s.setRing r x).recs = s.recs := rfl
@[simp] theorem State.setRing_stage (r : Nat) (x : Ring) : (s.setRing r x).stage = s.stage := rfl
@[simp] theorem State.setRing_latch (r : Nat) (x : Ring) : (s.setRing r x).latch = s.latch := rfl
@[simp] theorem State.setRing_mem (r : Nat) (x : Ring) : (s.setRing r x).mem = s.mem := rfl
@[simp] theorem State.setRing_dram (r : Nat) (x : Ring) : (s.setRing r x).dram = s.dram := rfl
@[simp] theorem State.setRing_dramGen (r : Nat) (x : Ring) : (s.setRing r x).dramGen = s.dramGen := rfl
@[simp] theorem State.setRing_threads (r : Nat) (x : Ring) : (s.setRing r x).threads = s.threads := rfl
@[simp] theorem State.setRing_cores (r : Nat) (x : Ring) : (s.setRing r x).cores = s.cores := rfl
@[simp] theorem State.setRing_fronds (r : Nat) (x : Ring) : (s.setRing r x).fronds = s.fronds := rfl
@[simp] theorem State.setRing_chans (r : Nat) (x : Ring) : (s.setRing r x).chans = s.chans := rfl
@[simp] theorem State.setRing_dlocks (r : Nat) (x : Ring) : (s.setRing r x).dlocks = s.dlocks := rfl
@[simp] theorem State.setRing_dlockHwm (r : Nat) (x : Ring) : (s.setRing r x).dlockHwm = s.dlockHwm := rfl
@[simp] theorem State.setRing_touchedLocks (r : Nat) (x : Ring) : (s.setRing r x).touchedLocks = s.touchedLocks := rfl
@[simp] theorem State.setRing_touchedChans (r : Nat) (x : Ring) : (s.setRing r x).touchedChans = s.touchedChans := rfl
@[simp] theorem State.setRing_swapArm (r : Nat) (x : Ring) : (s.setRing r x).swapArm = s.swapArm := rfl
@[simp] theorem State.setRing_sw (r : Nat) (x : Ring) : (s.setRing r x).sw = s.sw := rfl
@[simp] theorem State.setRing_tbl (r : Nat) (x : Ring) : (s.setRing r x).tbl = s.tbl := rfl
@[simp] theorem State.setRing_sg (r : Nat) (x : Ring) : (s.setRing r x).sg = s.sg := rfl
@[simp] theorem State.setRing_ct (r : Nat) (x : Ring) : (s.setRing r x).ct = s.ct := rfl
@[simp] theorem State.setRing_dc (r : Nat) (x : Ring) : (s.setRing r x).dc = s.dc := rfl
@[simp] theorem State.setRing_cn (r : Nat) (x : Ring) : (s.setRing r x).cn = s.cn := rfl
@[simp] theorem State.setRing_ck (r : Nat) (x : Ring) : (s.setRing r x).ck = s.ck := rfl
@[simp] theorem State.setRing_pt (r : Nat) (x : Ring) : (s.setRing r x).pt = s.pt := rfl
@[simp] theorem State.setRing_ras (r : Nat) (x : Ring) : (s.setRing r x).ras = s.ras := rfl
@[simp] theorem State.setRing_replHist (r : Nat) (x : Ring) : (s.setRing r x).replHist = s.replHist := rfl
@[simp] theorem State.setRing_rs (r : Nat) (x : Ring) : (s.setRing r x).rs = s.rs := rfl
@[simp] theorem State.setRing_md (r : Nat) (x : Ring) : (s.setRing r x).md = s.md := rfl
@[simp] theorem State.setRing_fuses (r : Nat) (x : Ring) : (s.setRing r x).fuses = s.fuses := rfl
@[simp] theorem State.setRing_draws (r : Nat) (x : Ring) : (s.setRing r x).draws = s.draws := rfl
@[simp] theorem State.setRing_out (r : Nat) (x : Ring) : (s.setRing r x).out = s.out := rfl

@[simp] theorem State.setBulk_pending (c : Nat) (x : BulkChan) : (s.setBulk c x).pending = s.pending := rfl
@[simp] theorem State.setBulk_mode (c : Nat) (x : BulkChan) : (s.setBulk c x).mode = s.mode := rfl
@[simp] theorem State.setBulk_tb (c : Nat) (x : BulkChan) : (s.setBulk c x).tb = s.tb := rfl
@[simp] theorem State.setBulk_tk (c : Nat) (x : BulkChan) : (s.setBulk c x).tk = s.tk := rfl
@[simp] theorem State.setBulk_regs (c : Nat) (x : BulkChan) : (s.setBulk c x).regs = s.regs := rfl
@[simp] theorem State.setBulk_recs (c : Nat) (x : BulkChan) : (s.setBulk c x).recs = s.recs := rfl
@[simp] theorem State.setBulk_stage (c : Nat) (x : BulkChan) : (s.setBulk c x).stage = s.stage := rfl
@[simp] theorem State.setBulk_latch (c : Nat) (x : BulkChan) : (s.setBulk c x).latch = s.latch := rfl
@[simp] theorem State.setBulk_mem (c : Nat) (x : BulkChan) : (s.setBulk c x).mem = s.mem := rfl
@[simp] theorem State.setBulk_dram (c : Nat) (x : BulkChan) : (s.setBulk c x).dram = s.dram := rfl
@[simp] theorem State.setBulk_dramGen (c : Nat) (x : BulkChan) : (s.setBulk c x).dramGen = s.dramGen := rfl
@[simp] theorem State.setBulk_threads (c : Nat) (x : BulkChan) : (s.setBulk c x).threads = s.threads := rfl
@[simp] theorem State.setBulk_cores (c : Nat) (x : BulkChan) : (s.setBulk c x).cores = s.cores := rfl
@[simp] theorem State.setBulk_fronds (c : Nat) (x : BulkChan) : (s.setBulk c x).fronds = s.fronds := rfl
@[simp] theorem State.setBulk_chans (c : Nat) (x : BulkChan) : (s.setBulk c x).chans = s.chans := rfl
@[simp] theorem State.setBulk_dlocks (c : Nat) (x : BulkChan) : (s.setBulk c x).dlocks = s.dlocks := rfl
@[simp] theorem State.setBulk_dlockHwm (c : Nat) (x : BulkChan) : (s.setBulk c x).dlockHwm = s.dlockHwm := rfl
@[simp] theorem State.setBulk_touchedLocks (c : Nat) (x : BulkChan) : (s.setBulk c x).touchedLocks = s.touchedLocks := rfl
@[simp] theorem State.setBulk_touchedChans (c : Nat) (x : BulkChan) : (s.setBulk c x).touchedChans = s.touchedChans := rfl
@[simp] theorem State.setBulk_swapArm (c : Nat) (x : BulkChan) : (s.setBulk c x).swapArm = s.swapArm := rfl
@[simp] theorem State.setBulk_sw (c : Nat) (x : BulkChan) : (s.setBulk c x).sw = s.sw := rfl
@[simp] theorem State.setBulk_tbl (c : Nat) (x : BulkChan) : (s.setBulk c x).tbl = s.tbl := rfl
@[simp] theorem State.setBulk_sg (c : Nat) (x : BulkChan) : (s.setBulk c x).sg = s.sg := rfl
@[simp] theorem State.setBulk_ct (c : Nat) (x : BulkChan) : (s.setBulk c x).ct = s.ct := rfl
@[simp] theorem State.setBulk_dc (c : Nat) (x : BulkChan) : (s.setBulk c x).dc = s.dc := rfl
@[simp] theorem State.setBulk_cn (c : Nat) (x : BulkChan) : (s.setBulk c x).cn = s.cn := rfl
@[simp] theorem State.setBulk_ck (c : Nat) (x : BulkChan) : (s.setBulk c x).ck = s.ck := rfl
@[simp] theorem State.setBulk_pt (c : Nat) (x : BulkChan) : (s.setBulk c x).pt = s.pt := rfl
@[simp] theorem State.setBulk_ras (c : Nat) (x : BulkChan) : (s.setBulk c x).ras = s.ras := rfl
@[simp] theorem State.setBulk_replHist (c : Nat) (x : BulkChan) : (s.setBulk c x).replHist = s.replHist := rfl
@[simp] theorem State.setBulk_rs (c : Nat) (x : BulkChan) : (s.setBulk c x).rs = s.rs := rfl
@[simp] theorem State.setBulk_md (c : Nat) (x : BulkChan) : (s.setBulk c x).md = s.md := rfl
@[simp] theorem State.setBulk_fuses (c : Nat) (x : BulkChan) : (s.setBulk c x).fuses = s.fuses := rfl
@[simp] theorem State.setBulk_draws (c : Nat) (x : BulkChan) : (s.setBulk c x).draws = s.draws := rfl
@[simp] theorem State.setBulk_out (c : Nat) (x : BulkChan) : (s.setBulk c x).out = s.out := rfl

@[simp] theorem State.emit_pending (o : Out) : (s.emit o).pending = s.pending := rfl
@[simp] theorem State.emit_mode (o : Out) : (s.emit o).mode = s.mode := rfl
@[simp] theorem State.emit_tb (o : Out) : (s.emit o).tb = s.tb := rfl
@[simp] theorem State.emit_tk (o : Out) : (s.emit o).tk = s.tk := rfl
@[simp] theorem State.emit_regs (o : Out) : (s.emit o).regs = s.regs := rfl
@[simp] theorem State.emit_recs (o : Out) : (s.emit o).recs = s.recs := rfl
@[simp] theorem State.emit_stage (o : Out) : (s.emit o).stage = s.stage := rfl
@[simp] theorem State.emit_latch (o : Out) : (s.emit o).latch = s.latch := rfl
@[simp] theorem State.emit_mem (o : Out) : (s.emit o).mem = s.mem := rfl
@[simp] theorem State.emit_dram (o : Out) : (s.emit o).dram = s.dram := rfl
@[simp] theorem State.emit_dramGen (o : Out) : (s.emit o).dramGen = s.dramGen := rfl
@[simp] theorem State.emit_threads (o : Out) : (s.emit o).threads = s.threads := rfl
@[simp] theorem State.emit_cores (o : Out) : (s.emit o).cores = s.cores := rfl
@[simp] theorem State.emit_fronds (o : Out) : (s.emit o).fronds = s.fronds := rfl
@[simp] theorem State.emit_chans (o : Out) : (s.emit o).chans = s.chans := rfl
@[simp] theorem State.emit_dlocks (o : Out) : (s.emit o).dlocks = s.dlocks := rfl
@[simp] theorem State.emit_dlockHwm (o : Out) : (s.emit o).dlockHwm = s.dlockHwm := rfl
@[simp] theorem State.emit_touchedLocks (o : Out) : (s.emit o).touchedLocks = s.touchedLocks := rfl
@[simp] theorem State.emit_touchedChans (o : Out) : (s.emit o).touchedChans = s.touchedChans := rfl
@[simp] theorem State.emit_swapArm (o : Out) : (s.emit o).swapArm = s.swapArm := rfl
@[simp] theorem State.emit_sw (o : Out) : (s.emit o).sw = s.sw := rfl
@[simp] theorem State.emit_tbl (o : Out) : (s.emit o).tbl = s.tbl := rfl
@[simp] theorem State.emit_sg (o : Out) : (s.emit o).sg = s.sg := rfl
@[simp] theorem State.emit_ct (o : Out) : (s.emit o).ct = s.ct := rfl
@[simp] theorem State.emit_dc (o : Out) : (s.emit o).dc = s.dc := rfl
@[simp] theorem State.emit_host (o : Out) : (s.emit o).host = s.host := rfl
@[simp] theorem State.emit_cn (o : Out) : (s.emit o).cn = s.cn := rfl
@[simp] theorem State.emit_ck (o : Out) : (s.emit o).ck = s.ck := rfl
@[simp] theorem State.emit_pt (o : Out) : (s.emit o).pt = s.pt := rfl
@[simp] theorem State.emit_ras (o : Out) : (s.emit o).ras = s.ras := rfl
@[simp] theorem State.emit_replHist (o : Out) : (s.emit o).replHist = s.replHist := rfl
@[simp] theorem State.emit_rs (o : Out) : (s.emit o).rs = s.rs := rfl
@[simp] theorem State.emit_md (o : Out) : (s.emit o).md = s.md := rfl
@[simp] theorem State.emit_fuses (o : Out) : (s.emit o).fuses = s.fuses := rfl
@[simp] theorem State.emit_draws (o : Out) : (s.emit o).draws = s.draws := rfl

@[simp] theorem State.setSram_pending (a : Nat) (b : Byte) : (s.setSram a b).pending = s.pending := rfl
@[simp] theorem State.setSram_mode (a : Nat) (b : Byte) : (s.setSram a b).mode = s.mode := rfl
@[simp] theorem State.setSram_tb (a : Nat) (b : Byte) : (s.setSram a b).tb = s.tb := rfl
@[simp] theorem State.setSram_tk (a : Nat) (b : Byte) : (s.setSram a b).tk = s.tk := rfl
@[simp] theorem State.setSram_regs (a : Nat) (b : Byte) : (s.setSram a b).regs = s.regs := rfl
@[simp] theorem State.setSram_recs (a : Nat) (b : Byte) : (s.setSram a b).recs = s.recs := rfl
@[simp] theorem State.setSram_stage (a : Nat) (b : Byte) : (s.setSram a b).stage = s.stage := rfl
@[simp] theorem State.setSram_latch (a : Nat) (b : Byte) : (s.setSram a b).latch = s.latch := rfl
@[simp] theorem State.setSram_dram (a : Nat) (b : Byte) : (s.setSram a b).dram = s.dram := rfl
@[simp] theorem State.setSram_dramGen (a : Nat) (b : Byte) : (s.setSram a b).dramGen = s.dramGen := rfl
@[simp] theorem State.setSram_threads (a : Nat) (b : Byte) : (s.setSram a b).threads = s.threads := rfl
@[simp] theorem State.setSram_cores (a : Nat) (b : Byte) : (s.setSram a b).cores = s.cores := rfl
@[simp] theorem State.setSram_fronds (a : Nat) (b : Byte) : (s.setSram a b).fronds = s.fronds := rfl
@[simp] theorem State.setSram_chans (a : Nat) (b : Byte) : (s.setSram a b).chans = s.chans := rfl
@[simp] theorem State.setSram_dlocks (a : Nat) (b : Byte) : (s.setSram a b).dlocks = s.dlocks := rfl
@[simp] theorem State.setSram_dlockHwm (a : Nat) (b : Byte) : (s.setSram a b).dlockHwm = s.dlockHwm := rfl
@[simp] theorem State.setSram_touchedLocks (a : Nat) (b : Byte) : (s.setSram a b).touchedLocks = s.touchedLocks := rfl
@[simp] theorem State.setSram_touchedChans (a : Nat) (b : Byte) : (s.setSram a b).touchedChans = s.touchedChans := rfl
@[simp] theorem State.setSram_swapArm (a : Nat) (b : Byte) : (s.setSram a b).swapArm = s.swapArm := rfl
@[simp] theorem State.setSram_sw (a : Nat) (b : Byte) : (s.setSram a b).sw = s.sw := rfl
@[simp] theorem State.setSram_tbl (a : Nat) (b : Byte) : (s.setSram a b).tbl = s.tbl := rfl
@[simp] theorem State.setSram_sg (a : Nat) (b : Byte) : (s.setSram a b).sg = s.sg := rfl
@[simp] theorem State.setSram_ct (a : Nat) (b : Byte) : (s.setSram a b).ct = s.ct := rfl
@[simp] theorem State.setSram_dc (a : Nat) (b : Byte) : (s.setSram a b).dc = s.dc := rfl
@[simp] theorem State.setSram_host (a : Nat) (b : Byte) : (s.setSram a b).host = s.host := rfl
@[simp] theorem State.setSram_cn (a : Nat) (b : Byte) : (s.setSram a b).cn = s.cn := rfl
@[simp] theorem State.setSram_ck (a : Nat) (b : Byte) : (s.setSram a b).ck = s.ck := rfl
@[simp] theorem State.setSram_pt (a : Nat) (b : Byte) : (s.setSram a b).pt = s.pt := rfl
@[simp] theorem State.setSram_ras (a : Nat) (b : Byte) : (s.setSram a b).ras = s.ras := rfl
@[simp] theorem State.setSram_replHist (a : Nat) (b : Byte) : (s.setSram a b).replHist = s.replHist := rfl
@[simp] theorem State.setSram_rs (a : Nat) (b : Byte) : (s.setSram a b).rs = s.rs := rfl
@[simp] theorem State.setSram_md (a : Nat) (b : Byte) : (s.setSram a b).md = s.md := rfl
@[simp] theorem State.setSram_fuses (a : Nat) (b : Byte) : (s.setSram a b).fuses = s.fuses := rfl
@[simp] theorem State.setSram_draws (a : Nat) (b : Byte) : (s.setSram a b).draws = s.draws := rfl
@[simp] theorem State.setSram_out (a : Nat) (b : Byte) : (s.setSram a b).out = s.out := rfl

@[simp] theorem State.setDram_pending (a : Nat) (b : Byte) : (s.setDram a b).pending = s.pending := rfl
@[simp] theorem State.setDram_mode (a : Nat) (b : Byte) : (s.setDram a b).mode = s.mode := rfl
@[simp] theorem State.setDram_tb (a : Nat) (b : Byte) : (s.setDram a b).tb = s.tb := rfl
@[simp] theorem State.setDram_tk (a : Nat) (b : Byte) : (s.setDram a b).tk = s.tk := rfl
@[simp] theorem State.setDram_regs (a : Nat) (b : Byte) : (s.setDram a b).regs = s.regs := rfl
@[simp] theorem State.setDram_recs (a : Nat) (b : Byte) : (s.setDram a b).recs = s.recs := rfl
@[simp] theorem State.setDram_stage (a : Nat) (b : Byte) : (s.setDram a b).stage = s.stage := rfl
@[simp] theorem State.setDram_latch (a : Nat) (b : Byte) : (s.setDram a b).latch = s.latch := rfl
@[simp] theorem State.setDram_mem (a : Nat) (b : Byte) : (s.setDram a b).mem = s.mem := rfl
@[simp] theorem State.setDram_dramGen (a : Nat) (b : Byte) : (s.setDram a b).dramGen = s.dramGen := rfl
@[simp] theorem State.setDram_threads (a : Nat) (b : Byte) : (s.setDram a b).threads = s.threads := rfl
@[simp] theorem State.setDram_cores (a : Nat) (b : Byte) : (s.setDram a b).cores = s.cores := rfl
@[simp] theorem State.setDram_fronds (a : Nat) (b : Byte) : (s.setDram a b).fronds = s.fronds := rfl
@[simp] theorem State.setDram_chans (a : Nat) (b : Byte) : (s.setDram a b).chans = s.chans := rfl
@[simp] theorem State.setDram_dlocks (a : Nat) (b : Byte) : (s.setDram a b).dlocks = s.dlocks := rfl
@[simp] theorem State.setDram_dlockHwm (a : Nat) (b : Byte) : (s.setDram a b).dlockHwm = s.dlockHwm := rfl
@[simp] theorem State.setDram_touchedLocks (a : Nat) (b : Byte) : (s.setDram a b).touchedLocks = s.touchedLocks := rfl
@[simp] theorem State.setDram_touchedChans (a : Nat) (b : Byte) : (s.setDram a b).touchedChans = s.touchedChans := rfl
@[simp] theorem State.setDram_swapArm (a : Nat) (b : Byte) : (s.setDram a b).swapArm = s.swapArm := rfl
@[simp] theorem State.setDram_sw (a : Nat) (b : Byte) : (s.setDram a b).sw = s.sw := rfl
@[simp] theorem State.setDram_tbl (a : Nat) (b : Byte) : (s.setDram a b).tbl = s.tbl := rfl
@[simp] theorem State.setDram_sg (a : Nat) (b : Byte) : (s.setDram a b).sg = s.sg := rfl
@[simp] theorem State.setDram_ct (a : Nat) (b : Byte) : (s.setDram a b).ct = s.ct := rfl
@[simp] theorem State.setDram_dc (a : Nat) (b : Byte) : (s.setDram a b).dc = s.dc := rfl
@[simp] theorem State.setDram_host (a : Nat) (b : Byte) : (s.setDram a b).host = s.host := rfl
@[simp] theorem State.setDram_cn (a : Nat) (b : Byte) : (s.setDram a b).cn = s.cn := rfl
@[simp] theorem State.setDram_ck (a : Nat) (b : Byte) : (s.setDram a b).ck = s.ck := rfl
@[simp] theorem State.setDram_pt (a : Nat) (b : Byte) : (s.setDram a b).pt = s.pt := rfl
@[simp] theorem State.setDram_ras (a : Nat) (b : Byte) : (s.setDram a b).ras = s.ras := rfl
@[simp] theorem State.setDram_replHist (a : Nat) (b : Byte) : (s.setDram a b).replHist = s.replHist := rfl
@[simp] theorem State.setDram_rs (a : Nat) (b : Byte) : (s.setDram a b).rs = s.rs := rfl
@[simp] theorem State.setDram_md (a : Nat) (b : Byte) : (s.setDram a b).md = s.md := rfl
@[simp] theorem State.setDram_fuses (a : Nat) (b : Byte) : (s.setDram a b).fuses = s.fuses := rfl
@[simp] theorem State.setDram_draws (a : Nat) (b : Byte) : (s.setDram a b).draws = s.draws := rfl
@[simp] theorem State.setDram_out (a : Nat) (b : Byte) : (s.setDram a b).out = s.out := rfl

@[simp] theorem State.setSig_pending (n : Nat) (e : Sig) : (s.setSig n e).pending = s.pending := rfl
@[simp] theorem State.setSig_mode (n : Nat) (e : Sig) : (s.setSig n e).mode = s.mode := rfl
@[simp] theorem State.setSig_tb (n : Nat) (e : Sig) : (s.setSig n e).tb = s.tb := rfl
@[simp] theorem State.setSig_tk (n : Nat) (e : Sig) : (s.setSig n e).tk = s.tk := rfl
@[simp] theorem State.setSig_regs (n : Nat) (e : Sig) : (s.setSig n e).regs = s.regs := rfl
@[simp] theorem State.setSig_recs (n : Nat) (e : Sig) : (s.setSig n e).recs = s.recs := rfl
@[simp] theorem State.setSig_stage (n : Nat) (e : Sig) : (s.setSig n e).stage = s.stage := rfl
@[simp] theorem State.setSig_latch (n : Nat) (e : Sig) : (s.setSig n e).latch = s.latch := rfl
@[simp] theorem State.setSig_mem (n : Nat) (e : Sig) : (s.setSig n e).mem = s.mem := rfl
@[simp] theorem State.setSig_dram (n : Nat) (e : Sig) : (s.setSig n e).dram = s.dram := rfl
@[simp] theorem State.setSig_dramGen (n : Nat) (e : Sig) : (s.setSig n e).dramGen = s.dramGen := rfl
@[simp] theorem State.setSig_threads (n : Nat) (e : Sig) : (s.setSig n e).threads = s.threads := rfl
@[simp] theorem State.setSig_cores (n : Nat) (e : Sig) : (s.setSig n e).cores = s.cores := rfl
@[simp] theorem State.setSig_fronds (n : Nat) (e : Sig) : (s.setSig n e).fronds = s.fronds := rfl
@[simp] theorem State.setSig_chans (n : Nat) (e : Sig) : (s.setSig n e).chans = s.chans := rfl
@[simp] theorem State.setSig_dlocks (n : Nat) (e : Sig) : (s.setSig n e).dlocks = s.dlocks := rfl
@[simp] theorem State.setSig_dlockHwm (n : Nat) (e : Sig) : (s.setSig n e).dlockHwm = s.dlockHwm := rfl
@[simp] theorem State.setSig_touchedLocks (n : Nat) (e : Sig) : (s.setSig n e).touchedLocks = s.touchedLocks := rfl
@[simp] theorem State.setSig_touchedChans (n : Nat) (e : Sig) : (s.setSig n e).touchedChans = s.touchedChans := rfl
@[simp] theorem State.setSig_swapArm (n : Nat) (e : Sig) : (s.setSig n e).swapArm = s.swapArm := rfl
@[simp] theorem State.setSig_sw (n : Nat) (e : Sig) : (s.setSig n e).sw = s.sw := rfl
@[simp] theorem State.setSig_tbl (n : Nat) (e : Sig) : (s.setSig n e).tbl = s.tbl := rfl
@[simp] theorem State.setSig_ct (n : Nat) (e : Sig) : (s.setSig n e).ct = s.ct := rfl
@[simp] theorem State.setSig_dc (n : Nat) (e : Sig) : (s.setSig n e).dc = s.dc := rfl
@[simp] theorem State.setSig_host (n : Nat) (e : Sig) : (s.setSig n e).host = s.host := rfl
@[simp] theorem State.setSig_cn (n : Nat) (e : Sig) : (s.setSig n e).cn = s.cn := rfl
@[simp] theorem State.setSig_ck (n : Nat) (e : Sig) : (s.setSig n e).ck = s.ck := rfl
@[simp] theorem State.setSig_pt (n : Nat) (e : Sig) : (s.setSig n e).pt = s.pt := rfl
@[simp] theorem State.setSig_ras (n : Nat) (e : Sig) : (s.setSig n e).ras = s.ras := rfl
@[simp] theorem State.setSig_replHist (n : Nat) (e : Sig) : (s.setSig n e).replHist = s.replHist := rfl
@[simp] theorem State.setSig_rs (n : Nat) (e : Sig) : (s.setSig n e).rs = s.rs := rfl
@[simp] theorem State.setSig_md (n : Nat) (e : Sig) : (s.setSig n e).md = s.md := rfl
@[simp] theorem State.setSig_fuses (n : Nat) (e : Sig) : (s.setSig n e).fuses = s.fuses := rfl
@[simp] theorem State.setSig_draws (n : Nat) (e : Sig) : (s.setSig n e).draws = s.draws := rfl
@[simp] theorem State.setSig_out (n : Nat) (e : Sig) : (s.setSig n e).out = s.out := rfl

@[simp] theorem State.draw_pending : s.draw.2.pending = s.pending := rfl
@[simp] theorem State.draw_mode : s.draw.2.mode = s.mode := rfl
@[simp] theorem State.draw_tb : s.draw.2.tb = s.tb := rfl
@[simp] theorem State.draw_tk : s.draw.2.tk = s.tk := rfl
@[simp] theorem State.draw_regs : s.draw.2.regs = s.regs := rfl
@[simp] theorem State.draw_recs : s.draw.2.recs = s.recs := rfl
@[simp] theorem State.draw_stage : s.draw.2.stage = s.stage := rfl
@[simp] theorem State.draw_latch : s.draw.2.latch = s.latch := rfl
@[simp] theorem State.draw_mem : s.draw.2.mem = s.mem := rfl
@[simp] theorem State.draw_dram : s.draw.2.dram = s.dram := rfl
@[simp] theorem State.draw_dramGen : s.draw.2.dramGen = s.dramGen := rfl
@[simp] theorem State.draw_threads : s.draw.2.threads = s.threads := rfl
@[simp] theorem State.draw_cores : s.draw.2.cores = s.cores := rfl
@[simp] theorem State.draw_fronds : s.draw.2.fronds = s.fronds := rfl
@[simp] theorem State.draw_chans : s.draw.2.chans = s.chans := rfl
@[simp] theorem State.draw_dlocks : s.draw.2.dlocks = s.dlocks := rfl
@[simp] theorem State.draw_dlockHwm : s.draw.2.dlockHwm = s.dlockHwm := rfl
@[simp] theorem State.draw_touchedLocks : s.draw.2.touchedLocks = s.touchedLocks := rfl
@[simp] theorem State.draw_touchedChans : s.draw.2.touchedChans = s.touchedChans := rfl
@[simp] theorem State.draw_swapArm : s.draw.2.swapArm = s.swapArm := rfl
@[simp] theorem State.draw_sw : s.draw.2.sw = s.sw := rfl
@[simp] theorem State.draw_tbl : s.draw.2.tbl = s.tbl := rfl
@[simp] theorem State.draw_sg : s.draw.2.sg = s.sg := rfl
@[simp] theorem State.draw_ct : s.draw.2.ct = s.ct := rfl
@[simp] theorem State.draw_dc : s.draw.2.dc = s.dc := rfl
@[simp] theorem State.draw_host : s.draw.2.host = s.host := rfl
@[simp] theorem State.draw_cn : s.draw.2.cn = s.cn := rfl
@[simp] theorem State.draw_ck : s.draw.2.ck = s.ck := rfl
@[simp] theorem State.draw_pt : s.draw.2.pt = s.pt := rfl
@[simp] theorem State.draw_ras : s.draw.2.ras = s.ras := rfl
@[simp] theorem State.draw_replHist : s.draw.2.replHist = s.replHist := rfl
@[simp] theorem State.draw_rs : s.draw.2.rs = s.rs := rfl
@[simp] theorem State.draw_md : s.draw.2.md = s.md := rfl
@[simp] theorem State.draw_fuses : s.draw.2.fuses = s.fuses := rfl
@[simp] theorem State.draw_out : s.draw.2.out = s.out := rfl

end Sys2Proof.Machine
end

