-- ==== Sys2Proof/Laws/Issue.lean ====
section
/-! SUPPORT. Threads after an update, and what the issue of an instruction comes to. -/

namespace Sys2Proof.Machine
variable (s : State) (t v : Tid)

@[simp] theorem State.thr_setThr (th : Thread) : (s.setThr t th).thr t = th := by
  simp [State.thr, State.setThr]

theorem State.thr_setThr_other (th : Thread) (h : v ≠ t) : (s.setThr t th).thr v = s.thr v := by
  have h' : v.toNat ≠ t.toNat := fun e => h (BitVec.eq_of_toNat_eq e)
  simp [State.thr, State.setThr, Sparse.get_set_other _ _ _ _ _ h']

@[simp] theorem State.thr_modThr (g : Thread → Thread) : (s.modThr t g).thr t = g (s.thr t) := by
  simp [State.modThr]

theorem State.thr_modThr_other (g : Thread → Thread) (h : v ≠ t) : (s.modThr t g).thr v = s.thr v := by
  simp [State.modThr, State.thr_setThr_other s t v _ h]

@[simp] theorem State.frond_setFrond (f : Nat) (fr : Frond) : (s.setFrond f fr).frond f = fr := by
  simp [State.frond, State.setFrond]

theorem State.frond_setFrond_other (f g : Nat) (fr : Frond) (h : g ≠ f) : (s.setFrond f fr).frond g = s.frond g := by
  simp [State.frond, State.setFrond, Sparse.get_set_other _ _ _ _ _ h]

@[simp] theorem State.thr_setFrond (f : Nat) (fr : Frond) : (s.setFrond f fr).thr t = s.thr t := rfl
@[simp] theorem State.thr_modFrond (f : Nat) (g : Frond → Frond) : (s.modFrond f g).thr t = s.thr t := rfl
@[simp] theorem State.frond_setThr (f : Nat) (th : Thread) : (s.setThr t th).frond f = s.frond f := rfl
@[simp] theorem State.frond_modThr (f : Nat) (g : Thread → Thread) : (s.modThr t g).frond f = s.frond f := rfl
@[simp] theorem State.thr_draw : s.draw.2.thr t = s.thr t := rfl
@[simp] theorem State.frond_draw (f : Nat) : s.draw.2.frond f = s.frond f := rfl
@[simp] theorem State.reg_setThr (off : Nat) (th : Thread) : (s.setThr t th).reg off = s.reg off := rfl
@[simp] theorem State.reg_modThr (off : Nat) (g : Thread → Thread) : (s.modThr t g).reg off = s.reg off := rfl

@[simp] theorem State.core_modThr (k : Nat) (g : Thread → Thread) : (s.modThr t g).core k = s.core k := rfl
@[simp] theorem State.core_draw (k : Nat) : s.draw.2.core k = s.core k := rfl

/-! ### Slots and fetches -/

theorem mem_insNat (l : List Nat) (n c : Nat) : c ∈ insNat l n ↔ c ∈ l ∨ c = n := by
  simp only [insNat]
  split
  · rename_i h
    exact ⟨.inl, fun e => e.elim id (fun k => by simpa [k] using h)⟩
  · simp

theorem satAdd_satAdd (cap v a b : Nat) : satAdd cap (satAdd cap v a) b = satAdd cap v (a + b) := by
  simp only [satAdd]
  split <;> split <;> split <;> omega

/-- Of a thread, the slots it takes move SLOTS only. -/
theorem Thread.addSlots_eq (th : Thread) (n : Nat) : th.addSlots n = { th with slots := (th.addSlots n).slots } := by
  simp only [Thread.addSlots]
  split <;> rfl

theorem Thread.addSlots_slots (th : Thread) (n : Nat) :
    (th.addSlots n).slots = if th.outOfRun then th.slots else satAdd 0xFFFFFFFF th.slots n := by
  simp only [Thread.addSlots]
  split <;> rfl

@[simp] theorem Thread.addSlots_addSlots (th : Thread) (a b : Nat) : (th.addSlots a).addSlots b = th.addSlots (a + b) := by
  by_cases h : th.outOfRun
  · simp [Thread.addSlots, h]
  · have h' : ({ th with slots := satAdd 0xFFFFFFFF th.slots a } : Thread).outOfRun = th.outOfRun := rfl
    simp [Thread.addSlots, h, h', satAdd_satAdd]

@[simp] theorem Thread.addSlots_inBuffer (th : Thread) (n : Nat) : (th.addSlots n).inBuffer = th.inBuffer := by
  rw [Thread.addSlots_eq]
  rfl

/-- What taking n slots does to the thread: SLOTS advances by as many as were not lent. -/
theorem State.thr_spend (n : Nat) :
    ∃ k ≤ n, ((s.core (coreKey t)).elastic = false → k = n) ∧ (s.spend t n).thr t = (s.thr t).addSlots k := by
  have hn (u : State) : (u.noteFetch t).thr t = u.thr t := by
    simp only [State.noteFetch]
    split <;> rfl
  by_cases h : (s.core (coreKey t)).elastic
  · refine ⟨s.draw.1.toNat % (n + 1), Nat.lt_succ_iff.mp (Nat.mod_lt _ (Nat.succ_pos n)), fun e => by simp [h] at e, ?_⟩
    simp only [State.spend, h, if_true]
    rw [hn, State.thr_modThr, State.thr_draw]
  · refine ⟨n, Nat.le_refl n, fun _ => rfl, ?_⟩
    simp only [State.spend, h, if_false, Bool.false_eq_true]
    rw [hn, State.thr_modThr]

theorem State.thr_spend_other (n : Nat) (h : v ≠ t) : (s.spend t n).thr v = s.thr v := by
  have hn (u : State) : (u.noteFetch t).thr v = u.thr v := by
    simp only [State.noteFetch]
    split <;> rfl
  simp only [State.spend]
  rw [hn, State.thr_modThr_other _ _ _ _ h]
  split <;> rfl

/-- Taking slots moves threads, fronds and the count of free values only. -/
theorem State.spend_eq (n : Nat) : s.spend t n = { s with
    threads := (s.spend t n).threads
    fronds := (s.spend t n).fronds
    draws := (s.spend t n).draws } := by
  simp only [State.spend, State.noteFetch]
  split <;> split <;> rfl

/-- A thread that takes slots has fetched, unless it runs from its loop buffer. -/
theorem State.spend_frond (n f : Nat) : (s.spend t n).frond f =
    if f = tidF t ∧ (s.thr t).inBuffer = false then { s.frond f with fetched := insNat (s.frond f).fetched (tidC t) } else s.frond f := by
  have hb : (((if (s.core (coreKey t)).elastic then (s.draw.1.toNat % (n + 1), s.draw.2) else (n, s)).2.modThr t (fun th =>
      th.addSlots (if (s.core (coreKey t)).elastic then (s.draw.1.toNat % (n + 1), s.draw.2) else (n, s)).1)).thr t).inBuffer
      = (s.thr t).inBuffer := by
    rw [State.thr_modThr, Thread.addSlots_inBuffer]
    split <;> rfl
  simp only [State.spend, State.noteFetch, hb]
  cases e : (s.thr t).inBuffer
  · simp only [Bool.false_eq_true, if_false, and_true, State.modFrond]
    by_cases k : f = tidF t
    · subst k
      simp only [State.frond_setFrond, if_true, State.frond_modThr]
      split <;> rfl
    · rw [State.frond_setFrond_other _ _ _ _ k]
      simp only [k, if_false, State.frond_modThr]
      split <;> rfl
  · simp only [if_true, Bool.true_eq_false, and_false, if_false, State.frond_modThr]
    split <;> rfl

theorem State.thr_charge (n : Nat) :
    ∃ k ≤ n, ((s.core (coreKey t)).elastic = false → k = n) ∧ (s.charge t n).thr t = (s.thr t).addSlots k := by
  obtain ⟨k, h1, h2, h3⟩ := s.thr_spend t n
  exact ⟨k, h1, h2, by simpa [State.charge] using h3⟩

theorem State.thr_charge_other (n : Nat) (h : v ≠ t) : (s.charge t n).thr v = s.thr v := by
  simp [State.charge, State.thr_spend_other s t v _ h]

/-- Taking slots and the issue slot moves threads, fronds and the count of free values only. -/
theorem State.charge_eq (n : Nat) : s.charge t n = { s with
    threads := (s.charge t n).threads
    fronds := (s.charge t n).fronds
    draws := (s.charge t n).draws } := by
  simp only [State.charge, State.modFrond, State.setFrond]
  rw [State.spend_eq]

/-- What an issued instruction does to the fronds. -/
theorem State.charge_issued (n : Nat) : Issued s (s.charge t n) t ((s.thr t).inBuffer = false) := by
  have key (f : Nat) : (s.charge t n).frond f = if f = tidF t then { (s.spend t n).frond f with
      busy := Sparse.set (fun _ => 0) ((s.spend t n).frond f).busy (tidC t) (Sparse.get (fun _ => 0) ((s.spend t n).frond f).busy (tidC t) + 1) }
      else (s.spend t n).frond f := by
    simp only [State.charge, State.modFrond]
    by_cases e : f = tidF t
    · subst e
      simp
    · rw [State.frond_setFrond_other _ _ _ _ e]
      simp [e]
  refine ⟨fun f => ?_, fun f c => ?_, fun f c => ?_⟩
  · rw [key, State.spend_frond]
    split <;> split <;> rfl
  · rw [key, State.spend_frond]
    by_cases e : f = tidF t
    · subst e
      by_cases k : c = tidC t
      · subst k
        simp only [if_true, true_and]
        split <;> simp
      · simp only [if_true, true_and, k, if_false, Nat.add_zero]
        split <;> simp [Sparse.get_set_other _ _ _ _ _ k]
    · simp [e]
  · rw [key, State.spend_frond]
    by_cases e : f = tidF t
    · subst e
      cases h : (s.thr t).inBuffer
      · simp [mem_insNat]
      · simp
    · simp [e]

/-- What a ready thread's instruction comes to when its own effect is to go on in sequence. -/
theorem State.issue_next (len n : Nat) (op : State → Res) (s2 : State) (h : s.Ready t)
    (hop : op (s.modThr t (fun th => { th with skipBp := false })) = .next s2 n) :
    s.issue t len op = ((s2.modThr t (fun th => th.advance len)).charge t (n + (s2.thr t).stepCost len)).boundary t := by
  obtain ⟨hc, hb, hr⟩ := h
  have hz : ((s.thr t).repact && decide ((s.thr t).repc = 0)) = false := by
    cases e : (s.thr t).repact
    · rfl
    · simpa [e] using hr e
  simp [State.issue, hc, hb, hz, hop]

/-- A thread that may not issue stays as it is. -/
theorem State.issue_idle (len : Nat) (op : State → Res) (h : s.canIssue t = false) : s.issue t len op = s := by
  simp [State.issue, h]

/-- The FAULT of a ready thread's instruction. -/
theorem State.issue_fault (len : Nat) (op : State → Res) (c : Cause) (a : Word) (h : s.Ready t)
    (hop : op (s.modThr t (fun th => { th with skipBp := false })) = .fault c a) :
    s.issue t len op = ((s.modThr t (fun th => { th with skipBp := false })).charge t 1).takeFault t c a := by
  obtain ⟨hc, hb, hr⟩ := h
  have hz : ((s.thr t).repact && decide ((s.thr t).repc = 0)) = false := by
    cases e : (s.thr t).repact
    · rfl
    · simpa [e] using hr e
  simp [State.issue, hc, hb, hz, hop]

end Sys2Proof.Machine
end

