-- ==== Sys2Proof/Laws/Memory.lean ====
section
/-! SUPPORT. The memories: every write keeps their canonical form, a byte reads as it was written, and other bytes stand. -/

namespace Sys2Proof.Machine
variable (s : State)

/-! ### Canonical form -/

theorem State.memWf_setSram (a : Nat) (b : Byte) (h : s.memWf = true) : (s.setSram a b).memWf = true := by
  simp only [State.memWf, Memory.wf, Bool.and_eq_true] at h ⊢
  exact ⟨Sparse.wf_set _ _ _ _ h.1, h.2⟩

@[simp] theorem State.memWf_setDram (a : Nat) (b : Byte) : (s.setDram a b).memWf = s.memWf := rfl

theorem State.memWf_setByte (a : Nat) (b : Byte) (h : s.memWf = true) : (s.setByte a b).memWf = true := by
  unfold State.setByte
  split
  · exact h
  · exact s.memWf_setSram a b h

theorem State.memWf_setBytes (bs : List Byte) : ∀ (s : State) (a : Nat), s.memWf = true → (s.setBytes a bs).memWf = true := by
  induction bs with
  | nil => exact fun _ _ h => h
  | cons b bs ih => exact fun s a h => ih _ _ (s.memWf_setByte a b h)

theorem State.memWf_setWord (a : Nat) (v : Word) (h : s.memWf = true) : (s.setWord a v).memWf = true :=
  State.memWf_setBytes _ s a h

/-- The canonical form looks at the static memories and at what a resume image holds, and at nothing else. -/
theorem State.memWf_congr (u : State) (hm : u.mem = s.mem) (hd : u.md.snap = s.md.snap) : u.memWf = s.memWf := by
  simp only [State.memWf, hm, hd]

/-! ### Read after write -/

@[simp] theorem State.sram_setSram (a : Nat) (b : Byte) : (s.setSram a b).sram a = b := by
  simp [State.sram, State.setSram]

theorem State.sram_setSram_other (a q : Nat) (b : Byte) (h : q ≠ a) : (s.setSram a b).sram q = s.sram q :=
  Sparse.get_set_other _ _ _ _ _ h

@[simp] theorem State.dramB_setDram (a : Nat) (b : Byte) : (s.setDram a b).dramB a = b := by
  simp [State.dramB, State.setDram]

theorem State.dramB_setDram_other (a q : Nat) (b : Byte) (h : q ≠ a) : (s.setDram a b).dramB q = s.dramB q := by
  have e := Sparse.get_set_other (fun _ => (none : Option Byte)) s.dram a q (some b) h
  exact congrArg (fun o : Option Byte => o.getD (Config.dramByte (s.dramLost q) q)) e

/-- The addresses at which a write of a byte shows: DRAM and the static memories, not the signal table, the packet buffer or the ROM. -/
def plainAddr (a : Nat) : Prop :=
  ¬(sigBase ≤ a ∧ a < sigBase + 0x1000000) ∧ ¬(0x804000000000 ≤ a ∧ a < 0x804008000000) ∧ ¬(0x805000000000 ≤ a ∧ a < 0x805000400000)

theorem State.byte_setByte_self (a : Nat) (b : Byte) (h : plainAddr a) : (s.setByte a b).byte a = b := by
  unfold State.byte State.setByte
  by_cases d : a < 0x40000000000
  · simp only [d, ↓reduceIte, State.dramB_setDram]
  · simp only [d, ↓reduceIte, if_neg h.1, if_neg h.2.1, if_neg h.2.2, State.sram_setSram]

theorem State.byte_setByte_other (a q : Nat) (b : Byte) (h : q ≠ a) : (s.setByte a b).byte q = s.byte q := by
  unfold State.byte State.setByte
  by_cases d : a < 0x40000000000
  · simp only [d, ↓reduceIte, State.dramB_setDram_other s a q b h]
    rfl
  · have e : (s.setSram a b).dramB q = s.dramB q := rfl
    simp only [d, ↓reduceIte, State.sram_setSram_other s a q b h, e]
    rfl

/-- A write of bytes leaves every byte before and behind them alone. -/
theorem State.byte_setBytes_outside (bs : List Byte) :
    ∀ (s : State) (a q : Nat), q < a ∨ a + bs.length ≤ q → (s.setBytes a bs).byte q = s.byte q := by
  induction bs with
  | nil => exact fun _ _ _ _ => rfl
  | cons b bs ih =>
    intro s a q h
    simp only [List.length_cons] at h
    rw [State.setBytes, ih _ _ _ (by omega), s.byte_setByte_other a q b (by omega)]

/-- A write of bytes shows each of them at its address. -/
theorem State.byte_setBytes_at (bs : List Byte) :
    ∀ (s : State) (a i : Nat) (h : i < bs.length), plainAddr (a + i) → (s.setBytes a bs).byte (a + i) = bs[i] := by
  induction bs with
  | nil => exact fun _ _ _ h => absurd h (Nat.not_lt_zero _)
  | cons b bs ih =>
    intro s a i h p
    rw [State.setBytes]
    cases i with
    | zero => rw [State.byte_setBytes_outside bs _ _ _ (by omega)]; exact s.byte_setByte_self a b p
    | succ i =>
      have e : a + (i + 1) = (a + 1) + i := by omega
      simp only [e, List.getElem_cons_succ]
      exact ih _ _ i (by simpa using h) (e ▸ p)

end Sys2Proof.Machine
end

