-- ==== Sys2Proof/Laws/Retire.lean ====
section
/-! SUPPORT. What an instruction that goes on in sequence leaves of the machine. -/

namespace Sys2Proof.Machine
variable (s : State) (t v : Tid)

theorem State.canIssue_running (h : s.canIssue t = true) :
    (s.thr t).halted = false ∧ (s.thr t).haltReq = false ∧ (s.thr t).run = .running := by
  simp only [State.canIssue, Bool.and_eq_true, decide_eq_true_eq, Bool.not_eq_true'] at h
  exact ⟨h.1.1.1.1.1.2, h.1.1.1.1.2, h.1.1.1.1.1.1.2⟩

@[simp] theorem Thread.goSeq_stepping (th : Thread) (pc : Nat) : (th.goSeq pc).stepping = th.stepping := rfl

/-- Of a thread, `advance` moves only pc, loops, loop buffer and the repeat count. -/
theorem Thread.advance_eq (th : Thread) (len : Nat) : th.advance len = { th with
    pc := (th.advance len).pc
    loops := (th.advance len).loops
    held := (th.advance len).held
    repc := (th.advance len).repc
    repact := (th.advance len).repact } := by
  simp only [Thread.advance, Thread.goSeq]
  split
  · split <;> rfl
  · rfl

theorem State.boundary_eq (h : (s.thr t).haltReq = false) :
    s.boundary t = if (s.thr t).stepping then s.halt t 5 else s := by
  simp [State.boundary, h]

/-- A boundary at which no halt is asked for: the thread is halted exactly if it was stepping, and of the machine nothing else moves. -/
theorem State.boundary_thread (h : (s.thr t).haltReq = false) (hh : (s.thr t).halted = false) :
    let u := s.boundary t
    u = { s with threads := u.threads } ∧ (∀ v : Tid, v ≠ t → u.thr v = s.thr v) ∧ u.thr t = { s.thr t with
      halted := (s.thr t).stepping
      stepping := false
      skipBp := (s.thr t).skipBp && !(s.thr t).stepping
      haltReason := (u.thr t).haltReason
      haltHost := (u.thr t).haltHost } := by
  intro u
  have hu : u = if (s.thr t).stepping then s.halt t 5 else s := State.boundary_eq s t h
  cases e : (s.thr t).stepping
  · rw [e, if_neg Bool.false_ne_true] at hu
    rw [hu]
    refine ⟨rfl, fun _ _ => rfl, ?_⟩
    generalize hx : s.thr t = x at *
    obtain ⟨⟩ := x
    simp_all
  · rw [e, if_pos rfl] at hu
    rw [hu]
    refine ⟨rfl, fun v hv => State.thr_modThr_other _ _ _ _ hv, ?_⟩
    simp [State.halt, h]

/-- The next state of an instruction whose own effect s2 moved the thread's stack and locals only, and which goes on as g says. -/
theorem Left.of_go (s s2 : State) (t : Tid) (n : Nat) (g : Thread → Thread) (stk : List Word) (loc : Vector Word 16)
    (hc : s.canIssue t = true)
    (hs2 : s2 = { s with
      threads := s2.threads
      draws := s2.draws })
    (hth : s2.thr t = { s.thr t with
      skipBp := false
      stack := stk
      locals := loc })
    (hoth : ∀ v : Tid, v ≠ t → s2.thr v = s.thr v)
    (hg : ∀ th : Thread, g th = { th with
      pc := (g th).pc
      loops := (g th).loops
      held := (g th).held
      repc := (g th).repc
      repact := (g th).repact }) :
    let u := ((s2.modThr t g).charge t n).boundary t
    Left s u t n stk loc ∧ (u.thr t).pc = (g (s2.thr t)).pc ∧ (u.thr t).loops = (g (s2.thr t)).loops ∧ (u.thr t).held = (g (s2.thr t)).held
      ∧ (u.thr t).repc = (g (s2.thr t)).repc ∧ (u.thr t).repact = (g (s2.thr t)).repact := by
  obtain ⟨h1, h2, h3⟩ := s.canIssue_running t hc
  obtain ⟨k, hk, hs, ht⟩ := (s2.modThr t g).thr_charge t n
  have hcore : (s2.modThr t g).core (coreKey t) = s.core (coreKey t) := by
    show s2.core _ = _
    simp only [State.core]
    rw [hs2]
  have hfr : ∀ f, (s2.modThr t g).frond f = s.frond f := by
    intro f
    show s2.frond f = _
    simp only [State.frond]
    rw [hs2]
  rw [State.thr_modThr, hg, hth, Thread.addSlots_eq] at ht
  have hi := (s2.modThr t g).charge_issued t n
  intro u
  obtain ⟨um, uo, ut⟩ : u = { (s2.modThr t g).charge t n with threads := u.threads } ∧ _ ∧ _ :=
    ((s2.modThr t g).charge t n).boundary_thread t (by rw [ht]; exact h2) (by rw [ht]; exact h1)
  have huf : ∀ f, u.frond f = ((s2.modThr t g).charge t n).frond f := by
    intro f
    simp only [State.frond]
    rw [show u.fronds = ((s2.modThr t g).charge t n).fronds from by rw [um]]
  have hin : (u.thr t).inBuffer = ((s2.modThr t g).thr t).inBuffer := by
    rw [ut, ht, State.thr_modThr, hg, hth]
    rfl
  refine ⟨⟨?_, ?_, ⟨?_, ?_, ?_⟩, ⟨k, hk, ?_, ?_⟩, ?_⟩, ?_⟩
  · rw [um, State.charge_eq, hs2]
    rfl
  · intro v hv
    rw [uo v hv, State.thr_charge_other _ _ _ _ hv, State.thr_modThr_other _ _ _ _ hv, hoth v hv]
  · intro f
    rw [huf f, hi.fronds f, hfr f]
  · intro f c
    rw [huf f, hi.busy f c, hfr f]
  · intro f c
    rw [huf f, hi.fetched f c, hfr f, hin]
  · rw [← hcore]
    exact hs
  · rw [ut, ht]
    simp only [Thread.addSlots_slots]
    rfl
  · rw [ut, ht]
    simp
  · rw [ut, ht]
    simp [hth]

/-- An instruction whose own effect moved the thread's stack and locals only retires with them. -/
theorem Retired.of_next (s s2 : State) (t : Tid) (len n : Nat) (op : State → Res) (stk : List Word) (loc : Vector Word 16)
    (h : s.Ready t) (hop : op (s.modThr t (fun th => { th with skipBp := false })) = .next s2 n)
    (hs2 : s2 = { s with
      threads := s2.threads
      draws := s2.draws })
    (hth : s2.thr t = { s.thr t with
      skipBp := false
      stack := stk
      locals := loc })
    (hoth : ∀ v : Tid, v ≠ t → s2.thr v = s.thr v) :
    Retired s (s.issue t len op) t len n stk loc := by
  rw [State.issue_next s t len n op s2 h hop]
  obtain ⟨hl, hpc, hlo, hhe, hrc, hra⟩ := Left.of_go s s2 t _ (fun th => th.advance len) stk loc h.1 hs2 hth hoth
    (fun th => th.advance_eq len)
  have hcost : (s2.thr t).stepCost len = (s.thr t).stepCost len := by
    rw [hth]
    rfl
  have ha : ((s2.thr t).advance len).pc = ((s.thr t).advance len).pc ∧ ((s2.thr t).advance len).loops = ((s.thr t).advance len).loops
      ∧ ((s2.thr t).advance len).held = ((s.thr t).advance len).held
      ∧ ((s2.thr t).advance len).repc = ((s.thr t).advance len).repc
      ∧ ((s2.thr t).advance len).repact = ((s.thr t).advance len).repact := by
    rw [hth]
    simp only [Thread.advance, Thread.goSeq]
    split
    · split <;> exact ⟨rfl, rfl, rfl, rfl, rfl⟩
    · exact ⟨rfl, rfl, rfl, rfl, rfl⟩
  exact ⟨hcost ▸ hl, hpc.trans ha.1, hlo.trans ha.2.1, hhe.trans ha.2.2.1, hrc.trans ha.2.2.2.1, hra.trans ha.2.2.2.2⟩

/-- The result of an instruction that only computes: needs `need` entries and leaves at most 16. -/
theorem Retired.of_compute (s : State) (t : Tid) (len need push : Nat) (legal : Bool) (f : List Word → List Word)
    (h : s.Ready t) (hl : legal = true) (hn : need ≤ (s.thr t).stack.length) (hp : (s.thr t).stack.length - need + push ≤ 16) :
    Retired s (s.issue t len (fun s => s.compute t legal need push f)) t len 1
      (f ((s.thr t).stack.take need) ++ (s.thr t).stack.drop need) (s.thr t).locals := by
  have hs : ¬ (s.thr t).stack.length < need := by omega
  have hq : ¬ 16 < (s.thr t).stack.length - need + push := by omega
  refine Retired.of_next s ((s.modThr t (fun th => { th with skipBp := false })).setTop t need (f ((s.thr t).stack.take need)))
    t len 1 _ _ _ h ?_ ?_ ?_ ?_
  · simp [State.compute, State.stackOp, hl, hs, hq]
  · rfl
  · simp [State.setTop]
  · intro v hv
    simp [State.setTop, State.thr_modThr_other _ _ _ _ hv]

end Sys2Proof.Machine
end

