-- ==== Sys2Proof/Machine/Pins.lean ====
section
/-! DEFINITION. The ball map of the package (R516 to R518) and the pin levels that follow from the mode (Table 24-3). -/

namespace Sys2Proof.Machine

/-! ### Ball names (R516) -/

/-- The letters of row names, in order. -/
def ballLetters : List Char := ['A', 'B', 'C', 'D', 'E', 'F', 'G', 'H', 'J', 'K', 'L', 'M', 'N', 'P', 'T', 'U', 'V', 'W', 'Y']

/-- The name of row index k, 1 to 74: a letter, or a letter after the prefix A, B or C. -/
def ballRow (k : Nat) : List Char :=
  let j := k - 1
  (if j < 19 then [] else [ballLetters.getD (j / 19 - 1) 'A']) ++ [ballLetters.getD (j % 19) 'A']

/-! ### The ball map (R517, R518) -/

/-- What a ball carries: a signal with its index numbers, a supply rail, or ground. -/
inductive Ball where
  | signal (name : String) (index : List Nat)
  | rail (name : String)
  | vss
  deriving DecidableEq, Repr

/-- A SerDes lane's balls: `col` is the column counted from the package edge, row index 2 × lane + 5 or the next (Table 24-1). -/
def serdesBall (first k col : Nat) : Ball :=
  let lane := first + (k - 5) / 2
  let pos := decide (k % 2 = 1)
  match col with
  | 2 => .signal (if pos then "SD_TXP" else "SD_TXN") [lane]
  | 5 => .signal (if pos then "SD_RXP" else "SD_RXN") [lane]
  | 4 => .rail "VDDA_SD"
  | 7 => .rail "VDD_SD"
  | _ => .vss

/-- The signals of one DDR subchannel, in the order of R518. -/
def subSignals : List (String × List Nat) :=
  (List.range 40).map (fun i => ("DQ", [i]))
    ++ (List.range 10).flatMap (fun i => [("DQS_T", [i]), ("DQS_C", [i])])
    ++ (List.range 7).map (fun i => ("CA", [i])) ++ (List.range 2).map (fun i => ("CS_N", [i])) ++ [("CK_T", []), ("CK_C", [])]

/-- The signals of a DDR channel: subchannel A, subchannel B, and the four common ones. The first index is the channel, and the second of
a subchannel's signal is 0 for A and 1 for B. -/
def ddrSignals (c : Nat) : List Ball :=
  (List.range 2).flatMap (fun h => subSignals.map (fun e => Ball.signal e.1 (c :: h :: e.2)))
    ++ ["ALERT_N", "RESET_N", "SCL", "SDA"].map (fun n => Ball.signal n [c])

/-- Row r from the edge and column `col` of DDR channel c: ground where (k + col) mod 5 = 0, and the channel's signals in order elsewhere. -/
def ddrBall (c k r col : Nat) : Ball :=
  let first := 8 + 15 * (c % 4)
  let edge (j : Nat) : Nat := if k ≤ 14 then j + 1 else 74 - j
  let free (j l : Nat) : Bool := decide ((edge j + l) % 5 ≠ 0)
  if !free r col then .vss
  else
    let before := ((List.range r).map (fun j => ((List.range 15).filter (fun i => free j (first + i))).length)).sum
    let here := ((List.range (col - first)).filter (fun i => free r (first + i))).length
    (ddrSignals c).getD (before + here) .vss

/-- The PCI Express rows 17 to 20 (Table 24-1). -/
def pcieBall (k col : Nat) : Ball :=
  if k % 2 = 0 then .vss
  else if 24 ≤ col ∧ col < 56 then
    let pos := decide (col % 2 = 0)
    .signal (if k = 17 then (if pos then "PE_TXP" else "PE_TXN") else (if pos then "PE_RXP" else "PE_RXN")) [(col - 24) / 2]
  else if 20 ≤ col ∧ col < 24 then .rail "VDDA_PE" else .rail "VDD_PE"

/-- The core rows 21 to 58 (Table 24-1). -/
def coreBall (k col : Nat) : Ball :=
  if (k + col) % 2 = 0 then .vss
  else if 34 ≤ col ∧ col ≤ 41 then .rail "VDD_SRAM"
  else if k = 21 ∧ (col = 8 ∨ col = 10 ∨ col = 12 ∨ col = 14) then .rail "VDD_AON"
  else .rail "VDD_CORE"

/-- Signals of one name whose indices rise by one from i. -/
def numbered (name : String) (i n : Nat) : List Ball := (List.range n).map (fun j => .signal name [i + j])

/-- Signals without an index. -/
def plainSignals (l : List String) : List Ball := l.map (fun n => .signal n [])

/-- The runs of corner balls that are not ground: row index, first column, balls (Table 24-2). -/
def cornerRuns : List (Nat × Nat × List Ball) :=
  [(1, 1, plainSignals ["SYS_REFCLKP", "SYS_REFCLKN"]), (3, 1, plainSignals ["PE_REFCLKP", "PE_REFCLKN"]),
    (1, 4, [.signal "SD_REFCLKP" [0], .signal "SD_REFCLKN" [0]]), (3, 4, [.signal "SD_REFCLKP" [1], .signal "SD_REFCLKN" [1]]),
    (1, 70, [.signal "SD_REFCLKP" [2], .signal "SD_REFCLKN" [2]]), (3, 70, [.signal "SD_REFCLKP" [3], .signal "SD_REFCLKN" [3]]),
    (4, 1, plainSignals ["PE_PERST_N", "PE_WAKE_N", "PE_CLKREQ_N"])] ++
  [(69, 1, numbered "GPIO" 0 7), (70, 1, numbered "GPIO" 7 7), (71, 1, numbered "GPIO" 14 2),
    (71, 3, plainSignals ["JTAG_TCK", "JTAG_TMS", "JTAG_TDI", "JTAG_TDO", "JTAG_TRST_N"]),
    (72, 1, numbered "MOD_SCL" 0 7), (74, 1, numbered "MOD_SCL" 7 1), (73, 1, numbered "MOD_SDA" 0 7), (74, 2, numbered "MOD_SDA" 7 1),
    (74, 3, plainSignals ["THERM_DP", "THERM_DN"])] ++
  [(69, 68, numbered "DIMM_PWREN" 0 7), (70, 68, numbered "DIMM_PWREN" 7 7), (71, 68, numbered "DIMM_PWREN" 14 2),
    (71, 70, plainSignals ["PORST_N", "WRST_N", "WAKE_N", "REPLACE_N", "DEV_ALERT_N"]),
    (72, 68, plainSignals ["TICK_IN", "TICK_OUT", "PPS_IN", "PPS_OUT", "CHN_HEAD"]),
    (73, 68, plainSignals ["CHN_INP", "CHN_INN"]), (73, 71, plainSignals ["CHN_OUTP", "CHN_OUTN"])] ++
  [(1, 7, [.rail "VDD_IO18"]), (3, 7, [.rail "VDD_IO18"]), (1, 68, [.rail "VDD_IO18"]), (3, 68, [.rail "VDD_IO18"]),
    (74, 5, [.rail "VDD_IO18", .rail "VDD_IO18"]), (72, 73, [.rail "VDD_IO18", .rail "VDD_IO18"])]

/-- A corner ball (Table 24-2). -/
def cornerBall (k col : Nat) : Ball :=
  match cornerRuns.find? (fun e => decide (e.1 = k ∧ e.2.1 ≤ col ∧ col < e.2.1 + e.2.2.length)) with
  | some e => e.2.2.getD (col - e.2.1) .vss
  | none => .vss

/-- What the ball (k, col) carries, row index and column 1 to 74 (Table 24-1). -/
def ballAt (k col : Nat) : Ball :=
  if col ≤ 7 then (if 5 ≤ k ∧ k ≤ 68 then serdesBall 0 k col else cornerBall k col)
  else if 68 ≤ col then (if 5 ≤ k ∧ k ≤ 68 then serdesBall 32 k (75 - col) else cornerBall k col)
  else if k ≤ 14 then ddrBall ((col - 8) / 15) k (k - 1) col
  else if 61 ≤ k then ddrBall ((col - 8) / 15 + 4) k (74 - k) col
  else if k ≤ 16 ∨ 59 ≤ k then (if col % 2 = 1 then .rail "VDDQ_DDR" else .vss)
  else if k ≤ 20 then pcieBall k col
  else coreBall k col

/-! ### Pin levels (R519) -/

/-- Is PE_CLKREQ_N held low: outside KEEP (Table 24-3)? -/
def State.clkreqLow (s : State) : Bool := decide (s.mode ≠ .keep)

/-- Is DIMM_PWREN[i] high: but in KEEP, where it follows the slots that DIMMs in self-refresh need (Table 24-3, R410)? -/
def State.dimmPower (s : State) (i : Nat) : Bool := s.dc.pwren.testBit i

end Sys2Proof.Machine
end

