-- ==== Sys2Proof/WellFormed.lean ====
section
/-! DEFINITION. Which commands are well formed: the fields of an Opvis instruction as Tables 03-9 and 03-10 allow them, payloads of the length
that a chain frame's type fixes, aligned register offsets, frames with at least one byte. An ill-formed Opvis instruction still has its
meaning, FAULT ILLEGAL. -/

namespace Sys2Proof

/-- A memory, branch or CHR form: field A of the long form is 0 (Table 03-10). -/
def formWf : Form → Bool
  | .short _ => true
  | .long a _ => decide (a = 0)

/-- An INCL form: field A of the long form names a local (Table 03-10). -/
def inclWf : Form → Bool
  | .short _ => true
  | .long a _ => decide (a.toNat < 16)

/-- An access to BAR0 is aligned (R425). -/
def Place.wf : Place → Bool
  | .bar0 off => decide (off.toNat % 4 = 0)
  | .bar4 _ => true
  | .config _ => true

/-- Is a command well formed? -/
def Instr.wf (i : Instr) : Bool :=
  match i with
  | .dup _ a => decide (a = 0)
  | .drop _ a => decide (a = 0)
  | .swap _ a => decide (a = 0)
  | .over _ a => decide (a = 0)
  | .rot _ a => decide (a = 0)
  | .nip _ a => decide (a = 0)
  | .pick _ a => decide (a.toNat < 16)
  | .lit8 _ _ => true
  | .lit16 _ a _ => decide (a = 0)
  | .lith _ a _ => decide (a = 0)
  | .ldl _ a => decide (a.toNat < 16)
  | .stl _ a => decide (a.toNat < 16)
  | .incl _ f => inclWf f
  | .add _ a => decide (a = 0)
  | .sub _ a => decide (a = 0)
  | .mul _ a => decide (a = 0)
  | .mulh _ a => decide (a = 0)
  | .mulhu _ a => decide (a = 0)
  | .neg _ a => decide (a = 0)
  | .abs _ a => decide (a = 0)
  | .min _ a => decide (a = 0)
  | .max _ a => decide (a = 0)
  | .minu _ a => decide (a = 0)
  | .maxu _ a => decide (a = 0)
  | .and _ a => decide (a = 0)
  | .or _ a => decide (a = 0)
  | .xor _ a => decide (a = 0)
  | .not _ a => decide (a = 0)
  | .shl _ a => decide (a = 0)
  | .shr _ a => decide (a = 0)
  | .sar _ a => decide (a = 0)
  | .rol _ a => decide (a = 0)
  | .popc _ a => decide (a = 0)
  | .clz _ a => decide (a = 0)
  | .bswap _ a => decide (a = 0)
  | .eq _ a => decide (a = 0)
  | .ne _ a => decide (a = 0)
  | .lt _ a => decide (a = 0)
  | .ltu _ a => decide (a = 0)
  | .le _ a => decide (a = 0)
  | .leu _ a => decide (a = 0)
  | .inrange _ a => decide (a = 0)
  | .extr _ a x => decide (a.toNat < 32) && decide (1 ≤ x.toNat ∧ x.toNat ≤ 32) && decide (a.toNat + x.toNat ≤ 32)
  | .insr _ a x => decide (a.toNat < 32) && decide (1 ≤ x.toNat ∧ x.toNat ≤ 32) && decide (a.toNat + x.toNat ≤ 32)
  | .dadd _ a => decide (a = 0)
  | .dsub _ a => decide (a = 0)
  | .deq _ a => decide (a = 0)
  | .dltu _ a => decide (a = 0)
  | .dshl _ a => decide (a = 0)
  | .dshr _ a => decide (a = 0)
  | .ldb _ f => formWf f
  | .ldbs _ f => formWf f
  | .ldh _ f => formWf f
  | .ldhs _ f => formWf f
  | .ldw _ f => formWf f
  | .ldd _ f => formWf f
  | .stb _ f => formWf f
  | .sth _ f => formWf f
  | .stw _ f => formWf f
  | .std _ f => formWf f
  | .xadd _ f => formWf f
  | .cas _ f => formWf f
  | .br _ f => formWf f
  | .bz _ f => formWf f
  | .bnz _ f => formWf f
  | .call _ _ _ => true
  | .ret _ a => decide (a = 0)
  | .loop _ _ x => decide (x.toNat < 4096)
  | .loopl _ _ _ => true
  | .rep _ _ => true
  | .repl _ a => decide (a.toNat < 16)
  | .evret _ a => decide (a = 0)
  | .trap _ _ => true
  | .yield _ a => decide (a = 0)
  | .wait _ a _ => decide (a = 0)
  | .waitEnd _ => true
  | .fwd _ a => decide (a.toNat < 2)
  | .fwdm _ a => decide (a.toNat < 2)
  | .droppkt _ a => decide (a = 0)
  | .toslow _ a => decide (a = 0)
  | .mirr _ a => decide (a.toNat < 2)
  | .emit _ a => decide (a.toNat < 2)
  | .cqs _ a => decide (a = 0)
  | .cqw _ a => decide (a = 0)
  | .cqp _ a => decide (a = 0)
  | .balloc _ a => decide (a.toNat < 64)
  | .bfree _ a => decide (a.toNat < 64)
  | .lock _ a => decide (a = 0)
  | .trylock _ a => decide (a = 0)
  | .unlock _ a => decide (a = 0)
  | .chw _ a => decide (a.toNat < 16)
  | .chs _ a => decide (a = 0)
  | .chr _ f => formWf f
  | .tready _ a => decide (a = 0)
  | .tyield _ a => decide (a = 0)
  | .tsleep _ a => decide (a = 0)
  | .taskDispatch _ => true
  | .rdsr _ a => decide (a.toNat < 15)
  | .wrsr _ a => [2, 3, 4, 10, 14].contains a.toNat
  | .fence _ a => decide (a = 0)
  | .time64 _ a => decide (a = 0)
  | .tickno _ a => decide (a = 0)
  | .storeLeave _ => true
  | .drainEnd _ => true
  | .eventEntry _ => true
  | .budget _ => true
  | .budgetHard _ => true
  | .timer _ => true
  | .deadline _ => true
  | .late _ => true
  | .frameReceive _ bytes _ _ => !bytes.isEmpty
  | .pauseRepeat _ _ => true
  | .pauseReceive _ _ _ _ => true
  | .pauseWatchdog _ _ => true
  | .pauseWatchdogEnd _ _ => true
  | .pauseQuantaExpired _ _ => true
  | .ingressTake _ _ _ => true
  | .dispatch _ => true
  | .orderingPass _ => true
  | .residueRetry => true
  | .residueExpiry _ => true
  | .slowPathDelivery => true
  | .linkStateChange _ _ => true
  | .verify _ _ => true
  | .transmissionSelect _ _ => true
  | .transmitComplete _ _ => true
  | .gateEntryChange _ _ => true
  | .frondGate _ => true
  | .frondWake _ => true
  | .apertureWrite _ _ _ _ _ => true
  | .apertureRead _ _ _ _ => true
  | .pull _ => true
  | .push _ _ => true
  | .readCompletion _ _ _ => true
  | .pullTimeout _ => true
  | .ringSignal _ _ => true
  | .hostLinkReset _ => true
  | .pcieLinkUp _ _ _ _ _ => true
  | .dbgLock _ _ => true
  | .jtagTrstN => true
  | .halt _ _ => true
  | .resumeThread _ _ => true
  | .step _ _ => true
  | .post _ _ => true
  | .discard _ _ => true
  | .dbgTregData _ _ => true
  | .dbgLkrel _ _ _ => true
  | .dbgCntclr _ _ => true
  | .dbgTelCtl _ _ => true
  | .threadAbort _ => true
  | .coreAbort _ => true
  | .frondAbort _ => true
  | .coprocessorAbort _ _ => true
  | .tableEngineAbort _ => true
  | .bulkChannelAbort _ => true
  | .dramChannelAbort _ => true
  | .portAbort _ => true
  | .dataPlaneAbort => true
  | .abortFenced _ => true
  | .rasPorthold _ _ _ => true
  | .thermal _ => true
  | .lane _ _ => true
  | .mgtDpReset _ => true
  | .training _ => true
  | .retrain _ _ _ _ => true
  | .refresh _ _ => true
  | .dramAccess _ _ _ _ _ _ _ => true
  | .scrub _ _ _ => true
  | .modulePoll _ _ _ => true
  | .keepEntry _ => true
  | .wakeN _ _ => true
  | .porstN _ => true
  | .wrstN => true
  | .mgtReset _ => true
  | .pePerstN _ _ _ => true
  | .run => true
  | .drain _ => true
  | .clkPlloff _ => true
  | .vddIo18InRange => true
  | .insert _ _ => true
  | .update _ _ => true
  | .delete _ _ => true
  | .deleteIfIdle _ _ => true
  | .lookup _ _ => true
  | .readIndex _ _ => true
  | .writeIndex _ _ => true
  | .flushPort _ => true
  | .flushVid _ => true
  | .ageStep _ => true
  | .walkStep _ => true
  | .rehashStart _ => true
  | .resume _ => true
  | .migrationStep _ _ => true
  | .tableScrubError _ _ => true
  | .copy _ => true
  | .fill _ => true
  | .frameRead _ => true
  | .list _ => true
  | .dmaChunk _ _ _ _ => true
  | .compute _ => true
  | .compare _ => true
  | .readPage _ _ => true
  | .find _ _ => true
  | .append _ => true
  | .read _ => true
  | .readView _ => true
  | .write _ => true
  | .config _ => true
  | .voteEval _ => true
  | .commandComplete _ _ => true
  | .expired _ _ _ => true
  | .lateError _ _ _ => true
  | .frdCqHsub _ _ => true
  | .bpmHalloc _ => true
  | .bpmHfree _ => true
  | .bpmCfgValid _ _ => true
  | .swcMcgData _ => true
  | .swcMcmData _ => true
  | .ruleWrite _ => true
  | .ruleRead _ => true
  | .invalidate _ => true
  | .egrGclData1 _ _ => true
  | .gateArm _ => true
  | .gateCancel _ => true
  | .egrCtxData1 _ => true
  | .egrXpL _ _ => true
  | .portCfg _ _ => true
  | .ctlSdata3 _ => true
  | .ctlFdata1 _ => true
  | .ctlGdata1 _ => true
  | .streamGateArm => true
  | .streamGateCancel => true
  | .ctlMdata4 _ => true
  | .ctlRdata2 _ => true
  | .ctlAdata11 _ => true
  | .ctlAdmit => true
  | .sigEnable => true
  | .sigHvData3 _ => true
  | .sigVgData7 _ => true
  | .sigPubData6 _ => true
  | .sigSvcData7 _ => true
  | .announce => true
  | .peatPData3 _ => true
  | .peatSData7 _ => true
  | .peatClData7 _ => true
  | .check => true
  | .checkAndCommit => true
  | .armSwap => true
  | .cancelSwap => true
  | .loadResident _ => true
  | .blkChAddrHi _ _ => true
  | .blkRngRd _ _ => true
  | .blkRngCfg _ _ => true
  | .mgtHeartbeat _ => true
  | .drcCfg _ => true
  | .drcRetire _ => true
  | .drcKeep _ => true
  | .blkMbxDb _ _ => true
  | .registerWrite _ at_ _ => at_.wf
  | .latchingPairRead _ at_ => at_.wf
  | .ptpTxtsHi => true
  | .tickOvrLog1 => true
  | .frdCqHtag _ _ => true
  | .chkMlog5 => true
  | .rasLog4 _ => true
  | .blkViol2 => true
  | .chnReplLog => true
  | .coreFaultLast1 _ _ => true
  | .drcChElog2 _ => true
  | .tickControllerStart => true
  | .tickNumberHi _ => true
  | .ptpStepHi _ _ => true
  | .ptpPadj _ _ => true
  | .slewEnd _ => true
  | .ppsIn _ => true
  | .ppsOut => true
  | .ppsOutPulseEnd => true
  | .tickOutPulseEnd => true
  | .publicationQueue => true
  | .sweep => true
  | .peatCommit _ _ => true
  | .responderRecord => true
  | .trpRequest _ => true
  | .cursorExpiry _ _ => true
  | .frerReset _ => true
  | .latentPeriod _ => true
  | .enum f _ _ => decide (f.payload.length = 0)
  | .enumCommand => true
  | .enumResend => true
  | .abort f _ _ => decide (f.payload.length = 8)
  | .msg f _ _ => decide (f.payload.length = 32)
  | .wake f _ _ _ _ => decide (f.payload.length = 0)
  | .replace f _ _ => decide (f.payload.length = 8)
  | .heartbeat f _ _ => decide (f.payload.length = 0)
  | .ack f _ _ => decide (f.payload.length = 0)
  | .chainHeartbeatSend _ => true
  | .txMsg => true
  | .txAbort => true
  | .txWake => true
  | .threadMessage => true
  | .messageTimeout _ _ => true
  | .ringBreak _ _ => true
  | .inputUp _ => true
  | .tickBoundary _ _ _ _ => true
  | .tickInEdge _ _ _ => true
  | .tickWindowClose _ _ => true
  | .tick f _ _ _ _ => decide (f.payload.length = 8)
  | .drainLimit _ _ _ _ => true
  | .heartbeatLapse _ _ _ _ => true

end Sys2Proof
end

