-- ==== Sys2Proof/Tests/Slice0.lean ====
section
/-! SUPPORT. Tests: ill-formed commands, check values and worked examples of the spec, and for every statement with hypotheses a
state and operands that meet them. -/

namespace Sys2Proof.Machine

section
set_option Elab.async false

/-! ### Ill-formed commands -/

/-- Field A of an instruction that has no operand there must be 0 (Table 03-10). -/
theorem test_wf_fieldA : (Instr.dup 0 1).wf = false ∧ (Instr.dup 0 0).wf = true ∧ (Instr.ldw 0 (.long 1 0)).wf = false := by decide
/-- Numbers beyond their range: locals, buffers, pools, staging words, loop counts, special registers (Tables 03-6, 03-9, 03-10). -/
theorem test_wf_ranges : (Instr.pick 0 16).wf = false ∧ (Instr.incl 0 (.long 16 0)).wf = false ∧ (Instr.fwd 0 2).wf = false ∧
    (Instr.balloc 0 64).wf = false ∧ (Instr.loop 0 0 4096).wf = false ∧ (Instr.rdsr 0 15).wf = false ∧ (Instr.wrsr 0 0).wf = false := by
  decide
/-- A bit field outside its word, or of no bit (R72). -/
theorem test_wf_field : (Instr.extr 0 31 2).wf = false ∧ (Instr.extr 0 32 1).wf = false ∧ (Instr.insr 0 0 0).wf = false ∧
    (Instr.extr 0 31 1).wf = true := by decide
/-- A frame without a byte; a register access off a word boundary (R510). -/
theorem test_wf_bytes : (Instr.frameReceive 0 [] true 0).wf = false ∧ (Instr.registerWrite .host (.bar0 2) 0).wf = false ∧
    (Instr.latchingPairRead .host (.bar0 6)).wf = false :=
  by decide +kernel
/-- A chain frame whose payload has not its type's length (Table 19-2). -/
theorem test_wf_payload : (Instr.enum ⟨0, false, 0, 0, 0, 0, 0, [0]⟩ [] 0).wf = false ∧
    (Instr.abort ⟨0, false, 0, 0, 0, 0, 0, []⟩ [] 0).wf = false ∧ (Instr.msg ⟨0, false, 0, 0, 0, 0, 0, []⟩ [] 0).wf = false := by decide

/-! ### Decoding -/

/-- Halfwords written out from Tables 03-9 and 03-10: LDL 0 is 0x09 and field A 0; LIT8 110 is 0x08 and 0x6E; INCL of local 1 by 2 is 0x0B and 0x21. -/
theorem test_decode_short : decodeOpvis 5 0x0900 0 = some (.ldl 5 0) ∧ decodeOpvis 5 0x086E 0 = some (.lit8 5 110) ∧
    decodeOpvis 5 0x0B21 0 = some (.incl 5 (.short 0x21)) := by decide
/-- LOOPL with a body of 6 halfwords and count local 2: 0xDD06 and the extension 0x201F would be opcode 0xDD and field A 6. -/
theorem test_decode_long : decodeOpvis 5 0xDD06 0x201F = some (.loopl 5 6 0x201F) := by decide
/-- A reserved opcode and a halfword of zeros spell no instruction (R72). -/
theorem test_decode_reserved : decodeOpvis 5 0 0 = none ∧ decodeTableWord 16 0 = none ∧ decodeTableWord 16 0x0900 = some (.ldl 0 0) ∧
    decodeTableWord 32 0x201FDD06 = some (.loopl 0 6 0x201F) := by decide

/-! ### Check values and worked examples -/

/-- Row index 23 is row AD (R516); the first four signals of DDR channel 5 in row 74, about the VSS of (74 + 26) mod 5 = 0 (R518); lane 9 at (23, 2). -/
theorem test_balls : ballRow 23 = ['A', 'D'] ∧ ballAt 74 23 = .signal "DQ" [5, 0, 0] ∧ ballAt 74 27 = .signal "DQ" [5, 0, 3] ∧ ballAt 74 26 = .vss ∧
    ballAt 23 2 = .signal "SD_TXP" [9] := by decide +kernel
/-- The ASCII characters 1 to 9, for which Table 17-1 gives check values. -/
def digits : List Byte := (upTo 9).map (fun i => BitVec.ofNat 8 (0x31 + i))


/-- The four check values of Table 17-1. -/
theorem test_check_values : crcOf 0 0xFFFFFFFF 0 digits = 0xCBF43926 ∧ crcOf 1 0xFFFFFFFF 0 digits = 0xE3069283 ∧
    crcOf 2 0 0 digits = 0x6C40DF5F0B497347 ∧ crcOf 3 0xFFFF 0 digits = 0x29B1 := by decide +kernel
/-- Thread 3.11.5 has identifier 477 (Thread identifiers, 00). -/
theorem test_thread_identifier : mkTid 3 11 5 = 477 ∧ tidF 477 = 3 ∧ tidC 477 = 11 ∧ tidT 477 = 5 := by decide
/-- The offsets of "Decoding offsets" (23). -/
theorem test_offsets : Reg.CORE_FAULT_CNT 10 11 = 0x1A45808 ∧ Reg.PORT_PAUSEWD 17 = 0x211018 ∧ Reg.DRC_CH_CE 7 = 0x1BE004 := by decide
/-- STD to own D-RAM at 0xBFFC fails first at 0xC000 (05, below R130). -/
theorem test_split_store : accessFail 0 true 0xBFFC 8 = some 0xC000 ∧ accessFail 0 true 0xBFF8 8 = none := by decide
/-- The record of the trend query example (15): 613.0 of signal 20,480, 500,000 ns after the base of its page. -/
theorem test_peat_record : (PRec.mk 12 0 0 1000000500000 0x5000 0 3 0x4083280000000000 false).bytes 1000000000000 =
    leBytes 4 0x20C05000 ++ leBytes 4 0x7A1 ++ leBytes 4 0 ++ leBytes 4 0x40832800 := by decide
/-- The frame of the ingress example (09): C-tag with VID 200 and PCP 1, then UADP with WriterGroupId 120. -/
theorem test_parse_uadp :
    let p := parseFrame State.reset.parseCfg (List.replicate 12 0 ++ [0x81, 0x00, 0x20, 0xC8, 0xB6, 0x2C, 0xF1, 0x01, 0x01, 0x07, 0x01, 0x78,
      0x00, 0x01, 0x01, 0x00] ++ List.replicate 96 0)
    p.outer.etype = 16 ∧ p.outer.pay = 18 ∧ p.outer.l3 = 0 ∧ p.outer.l4 = 0 ∧ p.ntags = 1 ∧ p.outer.vids = [200] ∧ p.outer.pcp = 1 ∧
      p.flags = 0x1001 ∧ p.uadpWg = some 120 := by decide +kernel

/-! ### States that meet the hypotheses of the statements: the Opvis instructions -/

/-- A PACKET thread that runs, with an operand stack. -/
def thr1 (st : List Word) : Thread := { Thread.reset with
  role := .packet
  run := .running
  pc := 100
  stack := st }
/-- The device in RUN with thread 0.0.0 in a given state. -/
def mac1 (th : Thread) : State := { State.reset with
  mode := .run
  threads := [(0, th)] }
/-- The device in RUN, thread 0.0.0 ready with an operand stack. -/
def stk (st : List Word) : State := mac1 (thr1 st)
/-- The device in RUN, thread 0.0.0 in a wait. -/
def waits (w : Wait) : State := mac1 { thr1 [] with run := .waiting w }
/-- n words on a stack. -/
def many (n : Nat) : List Word := List.replicate n 7

/-- Thread 0.0.0 of these states is ready, whatever its stack. -/
theorem test_ready (st : List Word) : (stk st).Ready 0 ∧ ((stk st).thr 0).stack = st ∧ ((stk st).thr 0).storeBuf = [] ∧
    ((stk st).thr 0).faultFrame = none ∧ ((stk st).thr 0).tctl.testBit 2 = false :=
  ⟨⟨by with_unfolding_all rfl, by with_unfolding_all rfl, fun h => by cases h⟩, by rfl, by rfl, by rfl, by with_unfolding_all rfl⟩
/-- StackResults, ArithmeticResults, BitFieldResults: the fullest stack of each shape. -/
theorem test_hyp_stack : (stk (7 :: many 15)).Ready 0 ∧ (many 14).length < 15 ∧ (many 15).length < 16 ∧ (many 13).length < 14 ∧
    (many 12).length < 13 ∧ (stk (many 15)).thr 0 = thr1 (many 15) ∧ (many 15)[15 - 1]? = some 7 := by
  unfold State.Ready
  decide +kernel
/-- StackFaults: an empty and a full stack, with no handler running; a PACKET thread's WAIT ends no run there; a task may sleep. -/
theorem test_hyp_stackFaults : (stk (many 16)).Ready 0 ∧ ((stk (many 16)).thr 0).stack.length = 16 ∧ formLegal (.short 3) = true ∧
    (thr1 (many 16)).endsRun 0x100 = true ∧ (thr1 (many 16)).endsRun 0xFEFF = false ∧
    (mac1 { thr1 (many 16) with role := .task, task := some 3 }).Ready 0 ∧
    { thr1 (many 16) with role := .task, task := some 3 }.mayswitch false = true := by
  unfold State.Ready
  decide +kernel
/-- StackFaults: a thread whose FAULT handler runs. -/
theorem test_hyp_doubleFault : (mac1 { thr1 [] with faultFrame := some (thr1 []).record }).Ready 0 := by
  unfold State.Ready
  decide +kernel
/-- IllegalFaults: boundary values of field A and of a bit field. -/
theorem test_hyp_illegal : (1 : Byte) ≠ 0 ∧ 2 ≤ (2 : Byte).toNat ∧ 16 ≤ (16 : Byte).toNat ∧ 64 ≤ (64 : Byte).toNat ∧
    32 < (31 : Byte).toNat + (2 : Half).toNat ∧ 0x0E < (15 : Byte).toNat := by decide
/-- LoadResults, StoreResults, AtomicResults: addresses of each range at its ends. -/
theorem test_hyp_access : accessFail 0 false 0xBFF8 8 = none ∧ accessFail 0 false 0x100000 8 = none ∧
    accessFail 0 false 0x1000000 4 = none ∧ accessFail 0 true 0xBFFC 4 = none ∧ viewRange 0xBFFC = some .dmem ∧
    viewRange 0x100000 = some .shared ∧ viewRange 0x1000000 = some .common ∧ atomicFail 0 0xBFFC = none := by decide
/-- LoadResults: the youngest overlapping entry covers the word at its address, and not the next but one halfword. -/
theorem test_hyp_forward : youngest [⟨commonBase + 16, [1, 2, 3, 4], true⟩] (commonBase + 16) 4 = some ⟨commonBase + 16, [1, 2, 3, 4], true⟩ ∧
    (⟨commonBase + 16, [1, 2, 3, 4], true⟩ : StoreEntry).covers (commonBase + 16) 4 = true ∧
    youngest [⟨commonBase + 16, [1, 2, 3, 4], true⟩] (commonBase + 18) 4 = some ⟨commonBase + 16, [1, 2, 3, 4], true⟩ ∧
    (⟨commonBase + 16, [1, 2, 3, 4], true⟩ : StoreEntry).covers (commonBase + 18) 4 = false := by decide
/-- AccessFaults: the first byte beyond own D-RAM's stores, beyond the frond's memory, and beyond every range; an atomic off a word. -/
theorem test_hyp_accessFaults : accessFail 0 true 0xBFFE 4 = some 0xC000 ∧ accessFail 0 false 0x20000000 4 = some 0x20000000 ∧
    atomicFail 0 2 = some 2 := by decide
/-- StoreBufferEvents, AtomicResults: a buffer with an entry, and a FENCE that waits for it. -/
theorem test_hyp_buffer :
    ((mac1 { thr1 [] with storeBuf := [⟨0x40000000000, [1], true⟩] }).thr 0).storeBuf = [⟨0x40000000000, [1], true⟩] ∧
    (mac1 { thr1 [4, 7] with storeBuf := [⟨0x40000000000, [1], true⟩] }).Ready 0 ∧
    ((waits (.mem .drain .fence)).thr 0).run = .waiting (.mem .drain .fence) ∧ ((waits (.mem .drain .fence)).thr 0).haltReq = false := by
  unfold State.Ready
  decide +kernel

/-- An image with one procedure. -/
def image1 : Image := ⟨1, [], [200], [], [], none, [], [], true, 0⟩
/-- The device in RUN with frond 0 in a given state and thread 0.0.0 in another. -/
def mac2 (fr : Frond) (th : Thread) : State := { mac1 th with fronds := [(0, fr)] }
/-- CallResults: a CALL at depth 7 of a procedure of the image, a CALL at depth 8, a RET at depth 1 and at depth 0. -/
theorem test_hyp_call :
    (mac2 { Frond.reset with imgLive := some image1 } { thr1 [] with callDepth := 7 }).Ready 0 ∧
    (mac2 { Frond.reset with imgLive := some image1 } { thr1 [] with callDepth := 7 }).procEntry 0 0 = some 200 ∧
    (mac1 { thr1 [] with callDepth := 8 }).Ready 0 ∧ (mac1 { thr1 [] with callDepth := 1 }).Ready 0 ∧ (thr1 []).callDepth = 0 := by
  unfold State.Ready
  decide +kernel
/-- BranchResults: a zero and a word that is not. -/
theorem test_hyp_branch : (stk [0]).Ready 0 ∧ (stk [0x80000000]).Ready 0 ∧ formLegal (.long 0 0x8000) = true ∧ formLegal (.short 0xFF) = true := by
  unfold State.Ready
  decide +kernel
/-- LoopResults: one loop runs, then two; the greatest count. -/
theorem test_hyp_loop : (mac1 { thr1 [] with loops := [⟨1, 90, 110⟩] }).Ready 0 ∧
    (mac1 { thr1 [] with loops := [⟨1, 90, 110⟩, ⟨1, 80, 120⟩] }).Ready 0 ∧ (4095 : Half).toNat < 4096 ∧ (thr1 []).repact = false ∧
    ((thr1 []).local_ 15).toNat = 0 ∧ (({ thr1 [] with locals := Vector.replicate 16 9 } : Thread).local_ 15).toNat = 9 := by
  unfold State.Ready
  decide +kernel
/-- RepeatResults: ADD behind the prefix is repeatable, a halfword 0 is not; a repetition under way, at its end, and with count 0. -/
theorem test_hyp_repeat :
    repeatable ({ stk [] with mem := [(iramBase 0 0 false + 203, 0x10)] }.code 0 101) = true ∧ repeatable ((stk []).code 0 101) = false ∧
    (stk []).Ready 0 ∧ ({ thr1 [] with repact := true, repc := 2 } : Thread).repc = 0 + 2 ∧
    (mac1 { thr1 [] with repact := true }).canIssue 0 = true ∧ ((mac1 { thr1 [] with repact := true }).thr 0).repact = true ∧
    ((mac1 { thr1 [] with repact := true }).thr 0).repc = 0 ∧ (mac1 { thr1 [] with repact := true }).breakHere 0 = false ∧
    (99 : Pc).toNat + 1 = (⟨1, 90, 100⟩ : Loop).stop ∧ (98 : Pc).toNat + 1 ≠ (⟨1, 90, 100⟩ : Loop).stop := by
  unfold State.Ready
  decide +kernel
/-- ReturnTrapYield: a handler at the depth of its entry, at another; TCTL with and without trap halts. -/
theorem test_hyp_evret : (mac1 { thr1 [] with frame := some (thr1 []).record, handler := some 3 }).Ready 0 ∧
    (thr1 []).record.depth = 0 ∧ (thr1 []).record.idle = false ∧
    (mac1 { thr1 [7] with frame := some (thr1 []).record, handler := some 3 }).Ready 0 ∧ (thr1 []).pendingEvent = none ∧
    (mac1 { thr1 [] with tctl := 1 }).Ready 0 ∧ Nat.testBit 1 0 = true := by
  unfold State.Ready
  decide +kernel
/-- WaitResults: an event pending, none, the end of a PACKET run, and a WAIT whose event came. -/
theorem test_hyp_wait : (mac1 { thr1 (many 15) with evpend := 2 }).Ready 0 ∧ (2 : Half) &&& (3 &&& 0xFFFE) ≠ 0 ∧
    (1 : Half) &&& (3 &&& 0xFFFE) = 0 ∧ (thr1 []).endsRun 0x100 = true ∧ (thr1 []).endsRun 3 = false ∧ (thr1 []).spore0 = none ∧
    ((waits (.event 2)).thr 0).run = .waiting (.event 2) ∧ ((waits (.event 2)).thr 0).haltReq = false := by
  unfold State.Ready
  decide +kernel
/-- A spore in slot 0 of thread 0.0.0, of a frame of 64 bytes in cell 5. -/
def spore1 : Spore := ⟨List.replicate 16 0, .slot 0 false, 5, 0, some 3, false, false, 0, false, false, false⟩
/-- The data plane with that spore and its frame. -/
def switch1 : Switch := { Switch.reset with
  frames := [(5, ⟨[5], List.replicate 64 0, 0, 1, 0, 0, 0, 1, false, false⟩)]
  spores := [(1, some spore1)]
  domains := [(3, ⟨1, [1], none⟩)] }
/-- The device in RUN with port 0 on and thread 0.0.0 holding that spore. -/
def holds1 (st : List Word) : State := { mac1 { thr1 st with spore0 := some 1, cur := some false } with
  sw := switch1
  regs := [(Reg.SWC_INJ, 0x00100010), (Reg.SWC_QPROF 0, 0x100), (Reg.PORT_CFG 0, 0x80000002)] }
/-- ReleaseResults, MirrorEmit: queue 7 belongs to port 0, queue 8 to none; 14 words below the operand. -/
theorem test_hyp_release : (holds1 (7 :: many 14)).Ready 0 ∧ ((holds1 []).thr 0).cur = some false ∧
    ((holds1 []).thr 0).slotSpore false = some 1 ∧ (holds1 []).spore 1 = some spore1 ∧ spore1.dead = false ∧ spore1.desc.length = 16 ∧
    ((holds1 []).queuePort 7).isSome = true ∧ (holds1 []).queuePort 8 = none ∧ (16383 : Word).toNat < 16384 ∧
    ((holds1 []).thr 0).curSpore = some 1 ∧ ((stk []).thr 0).curSpore = none ∧ ((stk []).thr 0).cur = none := by
  unfold State.Ready
  decide +kernel
/-- MirrorEmit: 60 bytes of D-RAM and 2,048 of frond shared memory; the injection share with and without room. -/
theorem test_hyp_emit : (holds1 [7, 60, 0x100]).Ready 0 ∧ emitSourceOk 0 0x100 60 = true ∧ emitSourceOk 0 0x100000 2048 = true ∧
    (holds1 []).emitFull (cellsOf 60) = false ∧ ({ stk [] with regs := [(Reg.SWC_INJ, 0)] } : State).emitFull (cellsOf 60) = true ∧ (holds1 []).qHeldDown 7 = false ∧
    (holds1 []).sw.injWait = [] ∧ ((holds1 []).outq 7).copies = [] ∧
    (holds1 []).qDepth 7 + cellsOf 60 ≤ (holds1 []).regF (Reg.SWC_QPROF 0) 19 0 := by
  unfold State.Ready
  decide +kernel
/-- A command of kind k with an opcode, submitted by thread 0.0.0 under tag 0. -/
def cmd1 (k op : Nat) (ph : CmdPhase) (d : List Word) : Cmd :=
  ⟨.thread 0 0 0, k, (BitVec.ofNat 32 (k + op * 256 + 2 ^ 17) :: 0 :: d ++ List.replicate 6 0).take 8, 0, ph, 0, 0, false, 0, 0, 0, false⟩
/-- Frond 0 with one command waiting. -/
def queue1 (k op : Nat) (d : List Word) : Frond := { Frond.reset with queues := [cmd1 k op .queued d] }
/-- QueueResults: kinds 0, 1 and 4 from the first and the last slot of shared memory, the queue with and without room, each tag state. -/
theorem test_hyp_queue : (stk (4 :: 0x100000 :: many 14)).Ready 0 ∧ (4 : Word).toNat ≤ 4 ∧ (0x100000 : Word).toNat % 32 = 0 ∧
    viewRange 0x100000 = some .shared ∧ (thr1 []).freeTag = some 0 ∧ (stk []).cqRoom 0 4 = true ∧ (stk []).tagShare 0 = true ∧
    (stk []).dmaShare 0 = true ∧ ({ mac1 (thr1 []) with fronds := [(0, { Frond.reset with fencedKinds := 31 })] } : State).cqRoom 0 4 = false ∧
    4 < (5 : Word).toNat ∧ (0x100010 : Word).toNat % 32 ≠ 0 ∧ viewRange 0x20 ≠ some .shared ∧ (thr1 []).tag 15 = .free ∧
    ({ thr1 [] with tags := (thr1 []).tags.set 15 (.done 9) } : Thread).tag 15 = .done 9 ∧
    ({ thr1 [] with tags := (thr1 []).tags.set 15 .started } : Thread).tag 15 = .started := by
  unfold State.Ready
  decide +kernel
/-- Pool 63 of frond 0: 4 elements of 64 bytes in shared memory, with elements in use. -/
def pool1 (held : List (Nat × Holder)) : State := { stk (0x1000C0 :: many 15) with
  regs := [(Reg.BPM_CFG 63, 0x80000006), (Reg.BPM_BASE_LO 63, 0), (Reg.BPM_COUNT 63, 4), (Reg.BPM_USERS 63, 1)]
  sw := { Switch.reset with pools := [(63, ⟨true, held, 0, 0⟩)] } }
/-- BufferResults: an element free, none free, no such pool; the last element allocated, not allocated. -/
theorem test_hyp_buffers : (pool1 []).Ready 0 ∧ (pool1 []).poolServes 63 0 = true ∧ (pool1 []).mayAlloc 63 (.thread 0) = true ∧
    (pool1 [(0, .host), (1, .host), (2, .host), (3, .thread 0)]).mayAlloc 63 (.thread 0) = false ∧ (pool1 []).poolServes 62 0 = false ∧
    (pool1 []).elemOffset 63 0x1000C0 = 192 ∧ 192 < (pool1 []).poolCount 63 * (pool1 []).poolSize 63 ∧ 192 % (pool1 []).poolSize 63 = 0 ∧
    (3, Holder.thread 0) ∈ ((pool1 [(3, .thread 0)]).pool 63).held ∧ ((pool1 []).pool 63).held = [] := by
  unfold State.Ready
  decide +kernel
/-- Thread 0.0.0 with an operand, frond 0 with a lock entry on the word 0x100000 that a thread holds. -/
def lock1 (st : List Word) (h : Tid) (w : List Tid) : State := mac2 { Frond.reset with locks := [⟨0, 0x100000, h, 32, none, false, w⟩] } (thr1 st)
/-- LockRequests: lock words of both units, tracked and not, held by another or by the thread, waited for or not; a full table; no share left. -/
theorem test_hyp_locks : (lock1 (0x100000 :: many 15) 1 []).Ready 0 ∧ lockAddrOk 0x100000 = true ∧ lockAddrOk 0x1000000 = true ∧
    (stk []).lockShare 0 = true ∧ (stk []).lockEntry 0 0x1000000 = none ∧ ((stk []).lockTable 0 0x1000000).length < lockCap 0x1000000 ∧
    lockCap 0x100004 ≤ ((mac2 { Frond.reset with locks := List.replicate 256 ⟨0, 0x100000, 1, 32, none, false, []⟩ } (thr1 [])).lockTable 0 0x100004).length ∧
    (mac2 { Frond.reset with locks := List.replicate 8 ⟨0, 0x100000, 0, 32, none, false, []⟩ } (thr1 [])).lockShare 0 = false ∧
    (lock1 [] 1 []).lockEntry 0 0x100000 = some ⟨0, 0x100000, 1, 32, none, false, []⟩ ∧ (lock1 [] 1 []).lockPrio 0 ≤ 32 ∧
    (lock1 [] 0 [1]).lockEntry 0 0x100000 = some ⟨0, 0x100000, 0, 32, none, false, [1]⟩ ∧
    ((lock1 [] 0 [1]).thr 1).haltReq = false := by
  unfold State.Ready
  decide +kernel
/-- Thread 0.0.0 with operands and a staged message, channel 0 of frond 0 with messages. -/
def chan1 (st : List Word) (ms : List (List Word)) : State := { mac1 { thr1 st with staging := Vector.replicate 16 5, staged := 0x8000 } with
  chans := [(0, { Channel.reset with msgs := ms })] }
/-- ChannelResults: channels 0 and 319 and none, 15 and 16 messages, a destination in D-RAM and one outside the view. -/
theorem test_hyp_channels : (chan1 (0x100 :: 0 :: many 14) [[1]]).Ready 0 ∧ chanKey 0 0 = some 0 ∧ chanKey 0 319 = some 1279 ∧ chanKey 0 320 = none ∧
    ((chan1 [] []).thr 0).stagedMsg = some (List.replicate 16 5) ∧ ((stk []).thr 0).stagedMsg = none ∧ ((chan1 [] []).chan 0).readers = [] ∧
    ((chan1 [] (List.replicate 15 [1])).chan 0).msgs.length < 16 ∧ 16 ≤ ((chan1 [] (List.replicate 16 [1])).chan 0).msgs.length ∧
    destOk 0 0x100 4 = true ∧ destOk 0 0x20000000 4 = false ∧ (0x100 : Word) = 0xFC + formDisp (.short 1) 4 := by
  unfold State.Ready
  decide +kernel
/-- Task 1023 of frond 0 in a state; thread 0.0.0 in another. -/
def task1 (k : Task) (th : Thread) : State := mac2 { Frond.reset with tasks := [(1023, k)] } th
/-- A TASK thread that runs task 1023. -/
def thrT (st : List Word) : Thread := { thr1 st with role := .task, task := some 1023 }
/-- TaskResults: the states of a task, a level with and without room, a thread that may switch. -/
theorem test_hyp_tasks : (task1 { Task.reset with state := .running } (thr1 (1023 :: many 15))).Ready 0 ∧
    ((task1 { Task.reset with state := .running } (thr1 [])).task 0 1023).state = .running ∧
    ((task1 { Task.reset with state := .ready } (thr1 [])).task 0 1023).state = .ready ∧ ((task1 Task.reset (thr1 [])).task 0 1023).state = .dormant ∧
    (stk []).levelRoom 0 (prioLevel ((stk []).activation 0 1023).eff) = true ∧
    (mac2 { Frond.reset with ready := [(0, List.replicate 64 5)] } (thr1 [])).levelRoom 0 (prioLevel ((stk []).activation 0 1023).eff) = false ∧
    (task1 { Task.reset with state := .running, wake := true } (thrT (many 15))).Ready 0 ∧ (thrT []).mayswitch false = true ∧
    (thrT []).mayswitch true = true ∧ (thrT []).frame = none := by
  unfold State.Ready
  decide +kernel
/-- TaskResults: no level has a task ready. -/
theorem test_hyp_noneReady (l : Nat) : (task1 { Task.reset with state := .running } (thrT [])).readyList 0 l = [] := by with_unfolding_all rfl
/-- Task 1023 alone ready in level 4, thread 0.0.0 a free TASK thread. -/
def ready1 : State := mac2 { Frond.reset with tasks := [(1023, { Task.reset with state := .ready, eff := 4, level := 4 })], ready := [(4, [1023])] }
  { thr1 [] with role := .task, run := .free }
/-- TaskResults: that thread may run a task, and the task may be taken. -/
theorem test_hyp_dispatchTask : (ready1.thr 0).run = .free ∧ (ready1.thr 0).role = .task ∧ (ready1.thr 0).halted = false ∧
    ready1.mode.threadsRun = true ∧ (ready1.frond 0).fenced = false ∧ (ready1.core (coreKey 0)).fenced = false ∧
    (ready1.task 0 1023).state = .ready ∧ (ready1.task 0 1023).wakeStatus = none ∧ (ready1.task 0 1023).eligible 0 = true ∧
    (ready1.task 0 1023).level = prioLevel (ready1.task 0 1023).eff := by decide +kernel
/-- TaskResults: no other level has a task ready. -/
theorem test_hyp_onlyLevel (l : Nat) : ready1.readyList 0 l = if l = 4 then [1023] else [] := by
  by_cases h : l = 4 <;> simp [ready1, mac2, State.readyList, State.frond, Sparse.get, h]
/-- SpecialRegisters: a timer value that lies ahead, one that has passed, and none; a TASK thread. -/
theorem test_hyp_special : (stk (0 :: 5 :: many 14)).Ready 0 ∧ (stk []).tb.now < ((0 : Word) ++ (5 : Word) : DWord) ∧
    ((0 : Word) ++ (0 : Word) : DWord) = 0 ∧ (mac1 (thrT [5])).Ready 0 ∧
    ((0 : Word) ++ (5 : Word) : DWord) ≤ ({ stk [] with tb := { TimeBase.reset with now := 5 } } : State).tb.now := by
  unfold State.Ready
  decide +kernel
/-- A thread with events 15 and 3 pending and enabled. -/
def evs1 : State := mac1 { thr1 [] with evpend := 0x8008, evmask := 0x8009 }
/-- EventEntry: event 3 is taken first; the return afterwards finds event 15. -/
theorem test_hyp_event : (evs1.thr 0).pendingEvent = some 3 ∧ evs1.mayTakeEvent 0 = true ∧ (evs1.thr 0).run = .running ∧ ((stk []).thr 0).pendingEvent = none := by
  decide +kernel
/-- EventEntry: with one event, the handler's EVRET finds none pending. -/
theorem test_hyp_eventReturn :
    let s := mac1 { thr1 [] with evpend := 8, evmask := 9 }
    (s.thr 0).pendingEvent = some 3 ∧ s.mayTakeEvent 0 = true ∧ (s.thr 0).stepping = false ∧ (s.thr 0).frame = none ∧ (s.thr 0).handler = none ∧
      (s.frond 0).gated = false ∧ s.breakHere 0 = false ∧ (match exec (.eventEntry 0) s with
        | .next u => decide ((u.thr 0).pendingEvent = none) && !u.breakHere 0 && (match exec (.evret 0 0) u with | .next _ => true | _ => false)
        | _ => false) = true := by decide +kernel
/-- TimedEvents: a thread with a budget before and after the event, with a timer, and a spore that waits in its slot with a deadline. -/
theorem test_hyp_timed : (mac1 { thr1 [] with budget := 10 }).budgetOn 0 = true ∧ (thr1 []).budgetHit = false ∧ (thr1 []).hardHit = false ∧
    (mac1 { thr1 [] with budget := 10, budgetHit := true }).budgetOn 0 = true ∧ ({ thr1 [] with timer := 9 } : Thread).timer ≠ 0 ∧
    ((holds1 []).thr 0).curSpore = some 1 ∧ ({ spore1 with deadline := 9 } : Spore).deadline ≠ 0 ∧ (thr1 []).deadlineHit = false ∧
    ({ stk [] with sw := { Switch.reset with spores := [(1, some { spore1 with deadline := 9 })] } } : State).spore 1 =
      some { spore1 with deadline := 9 } ∧ (holds1 []).heldSpores = [] := by decide +kernel

/-! ### States that meet the hypotheses of the statements: data plane, host interface, debug, aborts, DRAM, modes -/

/-- The device in RUN with registers listed. -/
def regs1 (r : Sparse Word) : State := { State.reset with mode := .run, regs := r }
/-- The device in RUN with port 0 on and its link up, and a data plane. -/
def port1 (w : Switch) (r : Sparse Word) : State := { regs1 ((Reg.PORT_CFG 0, 0x85EE0002) :: r) with sw := { w with ports := [(0, { Port.reset with link := true })] } }
/-- FrameReceive: the shortest and the longest good frame, a runt, an over-long one, and a FIFO queue without room. -/
theorem test_hyp_frameReceive : (port1 Switch.reset []).macUp 0 = true ∧ (port1 Switch.reset []).md.entering = false ∧
    (port1 Switch.reset []).regF (Reg.PORT_CFG 0) 30 16 = 1518 ∧ (List.replicate 60 (0 : Byte)).length = 60 ∧
    (port1 Switch.reset []).rxFill 0 0 + 60 + 4 ≤ (port1 Switch.reset []).rxSize 0 ∧
    (let s := port1 { Switch.reset with rx := [(0, List.replicate 1024 ⟨List.replicate 60 0, 0, 0⟩)] } [(Reg.SWC_RXF_CFG 0, 2)]
     s.rxSize 0 < s.rxFill 0 0 + 60 + 4) := by decide +kernel
/-- PauseResults: PFC enabled for every class; classes that are paused, ignore pause, and wait for it to be repeated. -/
theorem test_hyp_pause : (port1 Switch.reset [(Reg.SWC_RXF_CFG 0, 0xFF02)]).macUp 0 = true ∧
    (port1 Switch.reset [(Reg.SWC_RXF_CFG 0, 0xFF02)]).regF (Reg.SWC_RXF_CFG 0) 1 0 = 2 ∧
    (∀ k < 8, (port1 Switch.reset [(Reg.SWC_RXF_CFG 0, 0xFF02)]).regB (Reg.SWC_RXF_CFG 0) (8 + k) = true) ∧
    (let s := port1 { Switch.reset with classes := [(7, { PortClass.reset with paused := true, pausedTicks := 5 })] } [(Reg.PORT_PAUSEWD 0, 5)]
     (s.pclass 0 7).paused = true ∧ s.pauseWd 0 ≠ 0 ∧ s.pauseWd 0 ≤ (s.pclass 0 7).pausedTicks) ∧
    (({ regs1 [] with sw := { Switch.reset with classes := [(7, { PortClass.reset with ignore := 1 })] } } : State).pclass 0 7).ignore = 1 ∧
    (({ regs1 [] with sw := { Switch.reset with ports := [(0, { Port.reset with xoff := 128 })] } } : State).port 0).xoff.testBit 7 = true := by
  decide +kernel
/-- A spore in frond 0's dispatch queue. -/
def disp1 (r : Run) : State := { mac1 { Thread.reset with role := .packet, run := r } with
  sw := { switch1 with
    spores := [(1, some { spore1 with stands := .queue 0 })]
    dispQ := [(0, [1])] } }
/-- DispatchResults: an idle PACKET thread that takes the spore, and nothing to pick. -/
theorem test_hyp_dispatch : (disp1 .idle).mode.ingressRuns = true ∧ ((disp1 .idle).frond 0).gated = false ∧
    (disp1 .idle).dispatchPick 0 = some (1, 0, false) ∧ (disp1 .idle).spore 1 = some { spore1 with stands := .queue 0 } ∧
    (disp1 .idle).heldSpores = [] ∧ (disp1 .running).dispatchPick 0 = some (1, 0, false) ∧ (regs1 []).dispatchPick 0 = none := by decide +kernel
/-- IngressTake: a frame at the head of its queue, and its cells granted. -/
theorem test_hyp_ingress :
    let s := port1 { Switch.reset with rx := [(0, [⟨List.replicate 60 0, 0, 0⟩])] } []
    Sparse.get (fun _ => []) s.sw.rx 0 = [⟨List.replicate 60 0, 0, 0⟩] ∧ s.mode.ingressRuns = true ∧ s.sw.dpFenced = false ∧
      (let w := s.walkFrame [7] 0 (List.replicate 60 0)
       let g := w.1.grant 0 0 (cellsOf 60) (decide (w.2.family = 0))
       g.2 = true ∧ s.spore s.sw.nextSpore = none ∧ g.1.sw.nextSpore = s.sw.nextSpore) ∧
      ¬((regs1 []).mode.ingressRuns = true ∧ ({ regs1 [] with sw := { Switch.reset with dpFenced := true } } : State).sw.dpFenced = false) := by
  decide +kernel
/-- The oldest spore of domain 3, in a place. -/
def order1 (a : SporeAt) : State := { regs1 [(Reg.SWC_QPROF 0, 0x100)] with sw := { switch1 with spores := [(1, some { spore1 with stands := a })] } }
/-- OrderingPass: released to one queue with and without room, to the slow path, and still in its slot. -/
theorem test_hyp_ordering : ((order1 (.released 0 [⟨7, 0, none⟩] 0 false)).domain 3).out = [1] ∧ spore1.domain = some 3 ∧
    (order1 (.released 0 [⟨7, 0, none⟩] 0 false)).domainResidue 3 = false ∧ (order1 (.released 0 [⟨7, 0, none⟩] 0 false)).qHeldDown 7 = false ∧
    (order1 (.released 0 [⟨7, 0, none⟩] 0 false)).qDepth 7 + ((order1 .held).frame 5).cells.length ≤
      (order1 (.released 0 [⟨7, 0, none⟩] 0 false)).regF (Reg.SWC_QPROF 0) 19 0 ∧
    ({ order1 .held with regs := [(Reg.SWC_QPROF 0, 0)] } : State).regF (Reg.SWC_QPROF 0) 19 0 < 0 + 1 ∧
    (order1 (.released 3 [] 0 false)).sw.slowQ.length < 256 ∧ (order1 (.slot 0 false)).heldSpores = [] := by decide +kernel
/-- One residue entry with one copy left. -/
def resid1 : Residue := ⟨5, [(7, ⟨5, [], 0, 3, false, false, 1, 0, none, false, none⟩)], some 3, true, 9⟩
/-- ResidueResults: the copy's queue with and without room; a slow spore, its channel and pool ready and not. -/
theorem test_hyp_residue :
    ({ order1 .held with sw := { switch1 with residue := [resid1] } } : State).qFits 7 ((order1 .held).frame 5).cells.length = true ∧
    ({ regs1 [(Reg.SWC_QPROF 0, 0)] with sw := { switch1 with residue := [resid1] } } : State).qFits 7 1 = false ∧ resid1.control = true ∧
    (let s := { regs1 [(Reg.BPM_CFG 0, 0x80000006), (Reg.BPM_COUNT 0, 4)] with sw := { switch1 with
       spores := [(1, some { spore1 with stands := .slow })], slowQ := [⟨1, true⟩], pools := [(0, ⟨true, [], 0, 0⟩)] } }
     (s.slowToRing true).1 = false ∧ s.heldSpores = [] ∧ s.chanRoom 0 = true ∧ s.mayAlloc 0 .dispatch = true ∧ (s.chan 0).readers = []) := by
  decide +kernel
/-- LinkResults: a port that is held and one that is not; verification under way; a frond that may stop and one stopped. -/
theorem test_hyp_link : (regs1 []).portHeld 63 = false ∧ (regs1 [(Reg.RAS_PORTHOLD_HI, 0x80000000)]).portHeld 63 = true ∧
    ({ regs1 [(Reg.PORT_CFG 63, 0x80000C00)] with sw := { Switch.reset with ports := [(63, { Port.reset with link := true, vstate := 1 })] } } : State).regB
      (Reg.PORT_CFG 63) 10 = true ∧ (regs1 [(Reg.CLK_GATE, 0x8000)]).gateOk 15 = true ∧ (regs1 []).gateOk 15 = false ∧
    (({ regs1 [] with fronds := [(15, { Frond.reset with gated := true })] } : State).frond 15).gated = true := by decide +kernel
/-- A port with one frame of 64 bytes in queue 7. -/
def egress1 : State := port1 { switch1 with queues := [(7, { OutQ.reset with copies := [⟨5, List.replicate 16 0, 0, 3, false, false, 1, 0, none, false, none⟩] })] } []
/-- EgressResults: that frame is the eligible head; a transmission to complete; the first of three gate list entries runs. -/
theorem test_hyp_egress :
    (let v := (egress1.advanceTo 0).syncPort 0
     (egress1.advanceTo 0).macUp 0 = true ∧ (v.port 0).tx = none ∧ (v.port 0).cut = none ∧
       (v.eligible 0 0 false).map (fun h => (h.tc, h.q, v.txTooLong 0 h)) = [(7, 7, false)] ∧ v.regF (Reg.EGR_TCCFG 0 7) 1 0 ≠ 2) ∧
    (let s := { regs1 [(Reg.EGR_GCL_CTRL 0, 1), (Reg.EGR_GCL_LEN 0, 3)] with sw := { Switch.reset with
       ports := [(0, { Port.reset with cycleStart := some 0 })] } }
     s.gclOn 0 = true ∧ (s.port 0).cycleStart = some 0 ∧ 0 + 1 < s.gclLen 0 (s.port 0).gateBank ∧
       (((s.advanceTo 0).syncPort 0).port 0).tx = none) := by decide +kernel
/-- The device in RUN with the host link up, DRAM ready, and bulk channel 0 in a state. -/
def host1 (c : BulkChan) (r : Sparse Word) : State := { regs1 r with
  host := { HostIf.reset with
    link := true
    bme := true
    chans := [(0, c)] }
  dc := { DramUnit.reset with ready := true } }
/-- ApertureWrite: channel 0 armed at common memory with 8 bytes left, and not armed; 8 and 9 bytes. -/
theorem test_hyp_aperture :
    let r : Sparse Word := [(Reg.BLK_CH_ADDR_LO 0, 0), (Reg.BLK_CH_ADDR_HI 0, 0x8010), (Reg.BLK_CH_LIMIT 0, 8)]
    let s := host1 { BulkChan.reset with armed := true } r
    s.host.link = true ∧ 9 ≤ s.host.mps ∧ (s.bulk 0).armed = true ∧ s.chAddr 0 = commonBase ∧ (s.reg (Reg.BLK_CH_LIMIT 0)).toNat = 8 ∧
      (∀ i < 8, s.bulkWrites (s.chAddr 0 + i) 1 = true) ∧ s.dramWaits (s.chAddr 0) = false ∧ (∀ i < 8, regionOf (s.chAddr 0 + i) = .common) ∧
      (host1 BulkChan.reset r |>.bulk 0).armed = false := by decide +kernel
/-- BulkCommands: channels 0 and 4 free, with a length and an address in common memory; the end of a host page. -/
theorem test_hyp_bulk :
    let r : Sparse Word := [(Reg.BLK_CH_ADDR_HI 0, 0x8010), (Reg.BLK_CH_HOST_LO 0, 0xFC0), (Reg.BLK_CH_LEN 0, 64), (Reg.BLK_CH_ADDR_HI 4, 0x8010),
      (Reg.BLK_CH_HOST_LO 4, 0xFC0), (Reg.BLK_CH_LEN 4, 64)]
    let s := host1 BulkChan.reset r
    (s.bulk 4).fenced = false ∧ (s.bulk 4).armed = false ∧ (s.bulk 4).queue = [] ∧ s.host.bme = true ∧ s.ringRoom 8 = true ∧ s.ringRoom 15 = true ∧
      s.dramWaits commonBase = false ∧ frondOf commonBase = none ∧ s.bulkWrites commonBase 64 = true ∧ s.bulkReads commonBase 64 = true ∧
      s.chAddr 4 = commonBase ∧ s.reg64 (Reg.BLK_CH_HOST_LO 4) (Reg.BLK_CH_HOST_HI 4) % 4096 + 64 = 4096 ∧ 64 ≤ s.host.mps ∧ (s.bulk 0).part = [] := by
  decide +kernel
/-- BulkCommands: a PULL whose one request of 64 bytes is outstanding; an ended request remembered. -/
theorem test_hyp_completion :
    let s := host1 ⟨[⟨true, 0x3FFFFFFFFC0, 0, 64, 0, 0, true⟩], false, false, some (1023, 64), []⟩ []
    s.pullOf 1023 = some 0 ∧ (s.bulk 0).queue.length = 1 ∧ 64 ≤ 256 - 0x3FFFFFFFFC0 % 256 ∧ 0x3FFFFFFFFC0 + 64 ≤ 0x40000000000 ∧
      (host1 BulkChan.reset []).pullOf 1023 = none := by decide +kernel
/-- HostLink: link down and up; an available ring with a writeback due that has not signalled, and one that has just done so. -/
theorem test_hyp_ring :
    let r : Sparse Word := [(Reg.BLK_RNG_CFG 3, 0x8000FF04)]
    let s := { host1 BulkChan.reset r with host.rings := [(3, { Ring.reset with due := true })] }
    s.ringUp 3 = true ∧ (s.ring 3).due = true ∧ (s.ring 3).signalled = none ∧ (regs1 []).ringUp 3 = false ∧ (regs1 []).host.link = false ∧
      0 < 0 + s.regF (Reg.BLK_RNG_CFG 3) 15 8 * 1000 ∧ s.mode ≠ .keep := by decide +kernel
/-- The device in RUN, debug lock and thread selection in registers, thread 0.0.0 in a state. -/
def debug1 (owner : Word) (th : Thread) : State := { mac1 th with regs := [(Reg.DBG_LOCK, owner)] }
/-- DebugResults: the lock free, the host's, JTAG's; threads that run, wait and are halted; a lock entry whose holder is halted. -/
theorem test_hyp_debug : (debug1 0 (thr1 [])).regF Reg.DBG_LOCK 9 8 = 0 ∧ (debug1 0 (thr1 [])).jtagShut .jtag = false ∧
    (debug1 0x100 (thr1 [])).ownsDebug .host = true ∧ (debug1 0x100 (thr1 [])).ownsDebug .jtag = false ∧ (debug1 0x200 (thr1 [])).ownsDebug .jtag = true ∧
    (debug1 0x100 (thr1 [])).dbgThread = 0 ∧ (thr1 []).halted = false ∧ (thr1 []).run = .running ∧ ((debug1 0x100 (thr1 [])).frond 0).gated = false ∧
    ((debug1 0x100 { thr1 [] with run := .waiting (.cq 3) }).thr 0).run = .waiting (.cq 3) ∧
    ((debug1 0x100 { thr1 [1] with halted := true, haltReason := 2 }).thr 0).halted = true ∧
    ({ debug1 0x100 { thr1 [] with halted := true } with fronds := (lock1 [] 0 []).fronds } : State).lockEntry 0 0x100000 =
      some ⟨0, 0x100000, 0, 32, none, false, []⟩ := by decide +kernel
/-- AbortResults: each target as it stands in RUN; a mode that refuses. -/
theorem test_hyp_abort : (stk []).mode.acceptsReset = true ∧ State.reset.mode.acceptsReset = false ∧ ((stk []).core (coreKey 0)).fenced = false ∧
    ((stk []).frond 0).fenced = false ∧ ((stk []).frond 0).pllOff = false ∧ ((stk []).thr 0).cur = none ∧ ((stk []).frond 0).locks = [] ∧
    (stk []).dlocks = [] ∧ (stk []).tbl.fenced.testBit 3 = false ∧ ((stk []).bulk 7).queue = [] ∧ (stk []).chRetired 7 = false ∧
    ((stk []).port 63).fenced = false ∧ (stk []).sw.residue = [] ∧ (stk []).chans = [] := by decide +kernel
/-- AbortResults, DegradedResults: a data plane without PACKET threads. -/
theorem test_hyp_noPacket : ∀ t : Tid, ((regs1 []).thr t).role ≠ .packet := fun t => by simp [regs1, State.thr, Sparse.get, State.reset, Thread.reset]
/-- DegradedResults: the magic word, a bulk channel as the last target, an error count at its threshold, lanes with and without signal. -/
theorem test_hyp_degraded : (0xA5 : Word).toNat % 256 = 0xA5 ∧ (0xA5 : Word).toNat % 256 ≠ 0 ∧
    ({ regs1 [] with rs := { RasUnit.reset with last := some (6, 7) } } : State).rs.last = some (6, 7) ∧ (regs1 []).rs.last = none ∧
    ((regs1 []).core 255).ceCount + (regs1 []).regF Reg.RAS_CETHR 31 16 ≤ (regs1 []).regF Reg.RAS_CETHR 31 16 ∧ (regs1 []).signalLost 63 = false ∧
    ({ regs1 [] with rs := { RasUnit.reset with modules := [(63, 2)] } } : State).signalLost 63 = true := by decide +kernel
/-- DramResults: training, ready, a burst; the last address fitted; thresholds; a scrub under way within its time. -/
theorem test_hyp_dram :
    let s := { regs1 [] with dc := { DramUnit.reset with ready := true, scrubLeft := 1 } }
    ({ regs1 [] with dc := { DramUnit.reset with training := true } } : State).dc.training = true ∧ s.dc.ready = true ∧ s.dc.pauseEnd = 0 ∧
      s.dc.panic = false ∧ s.subPaused 0x1FFFFFFFFF 5 = false ∧ 0x1FFFFFFFFF < s.dramSize ∧ ¬ 0x2000000000 < s.dramSize ∧
      s.dramRetired 0x1FFFFFFFFF = false ∧ (s.errWin 7).ce ≠ 5 ∧ s.ras.length < 64 ∧ 0 < s.dc.scrubLeft ∧
      (5 : DWord).toNat < s.dc.scrubStart.toNat + 1 * 3600000000000 := by decide +kernel
/-- An image in memory as KEEP keeps it: nothing of it. -/
def snap1 : Snap := ⟨[], [], [], [], [], [], [], [], [], [], 0⟩
/-- ModeResults: the modes that take RUN and DRAIN and those that do not, with the tick controller on; KEEP being entered and held. -/
theorem test_hyp_modes : Mode.load.takes 1 = true ∧ Mode.run.takes 2 = true ∧ Mode.run.takes 1 = false ∧ Mode.drain.takes 2 = false ∧
    (regs1 [(Reg.TICK_CTRL, 1)]).md.cmd = none ∧ (regs1 [(Reg.TICK_CTRL, 1)]).regB Reg.TICK_CTRL 0 = true ∧ (regs1 []).regF Reg.DRC_KEEP 15 0 = 0 ∧
    ({ regs1 [] with mode := .keep, md := { ModeUnit.reset with snap := some snap1 } } : State).md.snap = some snap1 ∧
    ({ regs1 [] with mode := .drain, md := { ModeUnit.reset with entering := true } } : State).md.wake = none := by decide +kernel
/-- ModeResults: every thread IDLE. -/
theorem test_hyp_allIdle : ∀ t : Tid, (State.reset.thr t).role = .idle := fun t => by simp [State.thr, Sparse.get, State.reset, Thread.reset]

/-! ### States that meet the hypotheses of the statements: tables, coprocessors, registers, time base, engines -/

/-- FDB slot 253,532, the first candidate of a key of zeros, with an entry. -/
def table1 (e : TEntry) (r : Sparse Word) : State := { regs1 r with tbl := { TableUnit.reset with slots := [(253532, some e)] } }
/-- An FDB entry with a key of zeros, dynamic. -/
def entry1 : TEntry := ⟨List.replicate 7 0, false, true, none⟩
/-- TableResults: the staged key absent and present; a word that fits no entry; a busy register. -/
theorem test_hyp_table :
    let s := regs1 []
    let u := table1 entry1 []
    s.tblBusy = false ∧ s.tbl.walk = none ∧ s.tbl.fenced = 0 ∧ s.entryOk 0 s.tblStaging = true ∧ s.findKey 0 s.tblStaging = none ∧
      (candidates (keyBytes 0 s.tblStaging) (s.seeds 0)).findSome? (fun g => s.freeIn 0 g) = some 253532 ∧
      u.findKey 0 u.tblStaging = some 253532 ∧ u.slot 0 253532 = some entry1 ∧ entry1.hit = true ∧ (entry1.w 2).getLsbD 15 = false ∧
      s.entryOk 1 s.tblStaging = false ∧ s.regF Reg.TBL_INDEX 17 0 / 4 ∉ candidates (keyBytes 0 s.tblStaging) (s.seeds 0) ∧
      (regs1 [(Reg.TBL_INDEX, 253532)]).regF Reg.TBL_INDEX 17 0 / 4 ∈ candidates (keyBytes 0 s.tblStaging) (s.seeds 0) ∧
      (regs1 [(Reg.TBL_CMD, 0x80000000)]).tblBusy = true := by decide +kernel
/-- WalkResults: the last bucket of a flush, a bucket of an ageing walk; a rehash under way, stuck and not begun; an entry to scrub. -/
theorem test_hyp_walk :
    let w : Walk := ⟨8, 0, 0, 65535, 1, 0, false, 0, 0⟩
    ({ regs1 [] with tbl := { TableUnit.reset with walk := some w } } : State).tbl.walk = some w ∧ w.left = 1 ∧ w.next < 65536 ∧
      (regs1 []).rhsState 1 = 0 ∧ (regs1 [(Reg.TBL_RHS 1, 0x02000000)]).rhsState 1 = 2 ∧ (regs1 [(Reg.TBL_RHS 0, 0x0100FFFE)]).rhsState 0 = 1 ∧
      (regs1 [(Reg.TBL_RHS 0, 0x0100FFFE)]).regF (Reg.TBL_RHS 0) 15 0 = 65534 ∧ (table1 entry1 []).slot 0 253532 = some entry1 ∧ entry1.writer = none ∧
      (regs1 []).ras.length < 64 := by decide +kernel
/-- A COPY of 64 bytes within common memory. -/
def copy1 : List Word := [0, 0x8010, 0x100, 0x8010, 64, 0]
/-- CommandStart: a command at the head of a queue that passes its checks, one that fails, none; the command of another opcode. -/
theorem test_hyp_command :
    let s := mac2 (queue1 1 1 copy1) (thr1 [])
    s.headCmd 0 1 = some (cmd1 1 1 .queued copy1) ∧ s.headCmd 0 2 = none ∧ (cmd1 1 1 .queued copy1).opcode = 1 ∧ (s.frond 0).fencedKinds = 0 ∧
      s.dmaCheck 0 (s.withList (cmd1 1 1 .queued copy1)) = none ∧ s.dmaCheck 0 (s.withList (cmd1 1 1 .queued [0])) = some 0x44 ∧
      s.tblCheck 0 1 (cmd1 0 1 .queued []) = some 0x43 ∧ s.tblCheck 0 5 (cmd1 0 5 .queued [0, 0, 0x100000]) = none ∧
      s.peatCheck 0 (cmd1 3 2 .queued []) = some 0x68 ∧ s.sigCheck 0 (cmd1 4 1 .queued [0, 0]) = some 0x70 ∧
      s.sigCheck 0 (cmd1 4 1 .queued [0x7FFFF, 1]) = none ∧ s.sigCheck 0 (cmd1 4 4 .queued [0x7FFFF, 1, 0x104]) = none ∧
      opcodeKnown 1 9 = false := by decide +kernel
/-- CommandStart: a CHK job on a channel that is on. -/
theorem test_hyp_check :
    let s := { mac2 (queue1 2 1 [0, 0x8010, 63]) (thr1 []) with regs := [(Reg.CHK_CH_CFG 0, 0x80000000)] }
    s.headCmd 0 2 = some (cmd1 2 1 .queued [0, 0x8010, 63]) ∧ s.chkCheck 0 (s.withChannel (cmd1 2 1 .queued [0, 0x8010, 63])) = none ∧
      s.chkCheck 0 (cmd1 2 1 .queued []) ≠ none := by decide +kernel
/-- CommandEnd: a COPY that has started, one that has acted, and one that has finished; the gateway with and without a host tag. -/
theorem test_hyp_commandEnd :
    let c := cmd1 1 1 (.started 0) copy1
    let s := mac2 { Frond.reset with running := [c], finished := [⟨.thread 0 0 0, 1, 0, 0, 0⟩] } (thr1 [])
    (s.frond 0).running[0]? = some c ∧ s.copyCode c.part = none ∧ c.part.len ≤ 256 - c.part.src % 256 ∧ 0x40000000000 ≤ c.part.dst ∧
      s.orphanToReplaced c.who c.part.dst = false ∧ c.who = .thread 0 0 (s.thr 0).epoch ∧ c.noResult = true ∧ s.tk.number.toNat ≤ 0 + 16 ∧
      s.freeHostTag 0 = some 0 ∧ s.cqRoom 0 4 = true ∧
      (mac2 { Frond.reset with hostTags := (upTo 16).map (fun i => (i, TagState.queued)) } (thr1 [])).freeHostTag 0 = none := by decide +kernel
/-- The device in LOAD with registers listed. -/
def load1 (r : Sparse Word) : State := { State.reset with
  mode := .load
  regs := r }
/-- RecordRows: records that are accepted and refused by the windows that check them. -/
theorem test_hyp_records :
    let s := load1 []
    s.mode = .load ∧ s.windowWords .stream 0 (Reg.CTL_SDATA 0) 3 = [0, 0, 0] ∧ fld (0x2000 : Word) 31 14 = 0 ∧ fld (0x4000 : Word) 31 14 ≠ 0 ∧
      s.windowWords .frer 0 (Reg.CTL_RDATA 0) 2 = [0, 0] ∧ adaptOk (List.replicate 12 0) = true ∧ adaptOk [0, 0, 0, 1] = false ∧
      harvestOk [0, 0, 0, 0] = true ∧ harvestOk [0, 0x80000, 0, 0] = false ∧ s.pubCheck (List.replicate 7 0) = 0 ∧ s.peatStreams = [] ∧
      s.peatValid 0 = false ∧ ruleOk (List.replicate 128 0) = true ∧ ruleOk (List.replicate 128 0xFF) = false ∧ s.groupOk (List.replicate 8 0) = true ∧
      (load1 [(Reg.EGR_XP_L 4095, 0x80000001)]).regB (Reg.EGR_XP_L 4095) 31 = true := by decide +kernel
/-- ControlRows: pools that are taken and refused, and the host's right to allocate. -/
theorem test_hyp_control : ((pool1 []).pool 63).valid = true ∧ (pool1 []).mayAlloc 63 .host = true ∧ ((load1 []).pool 63).valid = false ∧
    ((load1 [(Reg.BPM_BASE_HI 63, 0x8000), (Reg.BPM_COUNT 63, 4), (Reg.BPM_USERS 63, 1)]).setReg (Reg.BPM_CFG 63) 6).poolCheck 63 = true ∧
    ((load1 []).setReg (Reg.BPM_CFG 63) 6).poolCheck 63 = false := by decide +kernel
/-- ControlRows: modes of ports, a gate list's swap tick, keep masks, the board, channels and rings at rest. -/
theorem test_hyp_settings : (load1 []).modeFits 63 1 = true ∧ (load1 []).modeFits 63 9 = false ∧ (load1 []).svcValid 0 = false ∧
    (load1 [(Reg.EGR_GCL_SWAP 63, 2)]).reg (Reg.EGR_GCL_SWAP 63) = 2 ∧ keepMaskOk 0 = true ∧ keepMaskOk 1 = false ∧
    (load1 []).dc.board.mismatch = false ∧ ((regs1 []).bulk 3).queue = [] ∧ (regs1 []).ring 15 = Ring.reset ∧ (load1 []).residentCores = [] := by
  decide +kernel
/-- ControlRows: an empty staging area fails the check; a frond with an image staged. -/
theorem test_hyp_loader : ((regs1 []).setReg Reg.MGT_LD_CMD 1).checkImage.bad = some (2, 0) ∧
    ((mac2 { Frond.reset with staged := true } (thr1 [])).frond 0).staged = true := by decide +kernel
/-- RegisterAccess: offsets off a word, of an RWL register, without a register, of a pair, and beyond JTAG's reach. -/
theorem test_hyp_registers : (0x1FFFFFE : BitVec 25).toNat % 4 ≠ 0 ∧ (regRow Reg.TICK_PHASE).isSome = true ∧
    ((regRow Reg.TICK_PHASE).map (fun r => r.rwl != 0)) = some true ∧ regRow 0xFFFFC = none ∧ isLo Reg.PTP_TIME_LO = true ∧
    (regs1 []).reaches .jtag 0x20000 = false ∧ (regs1 []).mode ≠ .keep ∧
    ({ regs1 [] with fronds := [(15, { Frond.reset with hostTags := [(15, .done 7)] })] } : State).mode = .run := by decide +kernel
/-- TimeBaseResults: the host and the time service as owner; a slew, a pulse due and one that ends; steps at both ends of the range. -/
theorem test_hyp_timeBase : (regs1 []).regB Reg.PTP_CTRL 0 = false ∧ (regs1 [(Reg.PTP_CTRL, 1)]).regB Reg.PTP_CTRL 0 = true ∧
    (pair (0 : Word) (0 : Word)).toInt = 0 ∧ (pair (0xFFFFFFFF : Word) (0xFFFFFFFF : Word)).toInt = -1 ∧
    ({ regs1 [] with tb := { TimeBase.reset with slew := 1 } } : State).tb.slew ≠ 0 ∧ (regs1 [(Reg.PTP_CTRL, 16)]).regB Reg.PTP_CTRL 4 = true ∧
    ({ regs1 [] with tb := { TimeBase.reset with ppsHigh := some 0 } } : State).tb.now ≤ 0 + BitVec.ofNat 64 0 := by decide +kernel
/-- EngineResults: the sweep due, a cursor whose time has come, sequence recovery that resets, a stream with nothing to do. -/
theorem test_hyp_engines : (regs1 [(Reg.SIG_CFG, 0x80000000)]).regB Reg.SIG_CFG 31 = true ∧ (regs1 []).sg.swept = false ∧ (regs1 []).pt.todo = [] ∧
    ({ regs1 [] with dc := { DramUnit.reset with ready := true } } : State).dramReady = true ∧ (regs1 []).dramReady = false ∧
    (({ regs1 [] with pt := { PeatUnit.reset with cursors := [(31, { Cursor.reset with used := true })] } } : State).cursor 31).used = true ∧
    (({ regs1 [] with ct := { StreamUnit.reset with frer := [(0xFFFF, { Frer.reset with exist := true })] } } : State).frer 0xFFFF).exist = true ∧
    (regs1 []).recF .frer 0xFFFF 0 31 16 ≤ Frer.reset.idle ∧ (regs1 []).sg.built = [] := by decide +kernel
/-- TickControl: the controller stopped in LOAD with each source, and a mode that refuses. -/
theorem test_hyp_tickControl : (load1 []).regB Reg.TICK_CTRL 0 = false ∧ (load1 [(Reg.TICK_CTRL, 0)]).srcPri = 0 ∧ (load1 [(Reg.TICK_CTRL, 8)]).srcPri = 2 ∧
    (load1 [(Reg.TICK_CTRL, 0x30)]).srcFb = 3 ∧ (load1 []).swapArm = none ∧ (load1 []).ct.swapAt = none ∧ (load1 []).sw.ports = [] ∧
    (regs1 []).mode ≠ .load := by decide +kernel
/-- ChainCopies, EnumerationResults, ChainMessages, ChainNotices: a new frame with a correct copy at the last hop; the device at address 5 with
a message outstanding, a notice under way and the input up. -/
theorem test_hyp_chain :
    let f : ChainFrame := ⟨31, false, 3, 1, 31, 0, 0, []⟩
    let s := { regs1 [] with cn := { ChainUnit.reset with
      head := false, addr := some 5, seqIn := some 0, flying := [(4, 0)], upSince := some 0, out := [⟨9, true, 0, 31, false, 0⟩] } }
    true ∈ [false, false, true] ∧ s.cn.seqIn ≠ some f.seq ∧ f.hops.toNat ≤ 31 ∧ s.tb.now ≤ 0 ∧ s.cn.addr = some 5 ∧ f.src ≠ 5 ∧ f.dst ≠ 5 ∧
      s.cn.out.find? (fun m => decide (m.tag = 9)) = some ⟨9, true, 0, 31, false, 0⟩ ∧ s.cn.out.length < 16 ∧ s.cn.replLog.length < 8 ∧
      s.cn.segHead = false ∧ s.mode ≠ .keep ∧ abortExists 1 0 = true ∧ (s.chan 1024).readers = [] ∧ s.cn.lastTx.toNat + 1000 ≤ (1000 : DWord).toNat := by
  decide +kernel
/-- The tick controller running since instant 0, the last boundary at 0, with a source. -/
def tick1 (src act : Nat) (m : Mode) : State := { State.reset with
  mode := m
  regs := [(Reg.TICK_CTRL, BitVec.ofNat 32 (1 + 4 * src)), (Reg.TICK_PERIOD, 500)]
  tk := { TickUnit.reset with
    started := some 0
    last := some 0
    active := act } }
/-- BoundaryResults: sources PTP, TICK_IN and CHAIN, holdover, an edge in and outside the window, the drain limit and the heartbeat's lapse. -/
theorem test_hyp_boundary : (tick1 0 0 .run).tickRuns = true ∧ (tick1 0 0 .run).srcPri = 0 ∧ ((tick1 0 0 .run).source 0).lost = false ∧
    (tick1 0 0 .run).halfAfter (tick1 0 0 .run).ptpAt = true ∧ (tick1 0 0 .run).tb.now.toNat ≤ (tick1 0 0 .run).ptpAt ∧
    (tick1 0 0 .run).ptpAt < 2 ^ 64 ∧ (tick1 2 2 .run).tickRuns = true ∧ (tick1 2 2 .run).inWindow 500000 = true ∧
    (tick1 2 2 .run).inWindow 250000 = false ∧ (tick1 2 2 .run).tk.leaving = false ∧ (tick1 3 3 .drain).tickRuns = true ∧
    ({ tick1 3 3 .drain with pt := { PeatUnit.reset with fifo := [⟨0, 0, 0, 0, 0, 0, 0, 0, false⟩] } } : State).drained = false ∧ State.reset.tickRuns = false ∧ (tick1 1 1 .run).srcPri = 1 := by decide +kernel
/-- StepKeepsMemory: reset has its memories in canonical form. -/
theorem test_hyp_memory : State.reset.memWf = true ∧ ({ State.reset with mem := [(commonBase, 1)] } : State).memWf = true := by decide +kernel
/-- EngineResults: a record of the dispatch function and one for the trend service, with the services loaded and room for an answer. -/
theorem test_hyp_services :
    let s := { mac2 { Frond.reset with services := 7 } (thr1 []) with
      chans := [(0, { Channel.reset with msgs := [List.replicate 16 0] }), (1024, { Channel.reset with msgs := [List.replicate 16 0] })]
      regs := [(Reg.PEAT_TRP_CFG1, 0x80000000)] }
    s.service 0 2 = true ∧ s.serviceUp 1 = true ∧ s.mode.threadsRun = true ∧ (s.takeMsg 0).isSome = true ∧ (s.takeMsg 1024).isSome = true ∧
      s.regB Reg.PEAT_TRP_CFG1 31 = true ∧ s.pt.reply = none ∧ s.trpDatagram (s.slowRec (List.replicate 16 0)) = none ∧
      s.answer (s.slowRec (List.replicate 16 0)) 0 = none ∧ s.regB Reg.SIG_SVC_CFG 16 = false := by decide +kernel

/-! ### Boundary values, and states of the clauses that the states above do not meet -/

/-- BranchResults: two loops, of which a branch from halfword 100 leaves the inner one; the inner body is held. -/
theorem test_hyp_branchLoops : (mac1 { thr1 [0] with loops := [⟨1, 90, 110⟩, ⟨3, 80, 400⟩], held := some ⟨90, 110, false⟩ }).Ready 0 ∧
    formLegal (.short 0x7F) = true ∧ formLegal (.long 0 0x0100) = true ∧ (0x80000000 : Word) ≠ 0 := by
  unfold State.Ready
  decide +kernel
/-- LoopBodyEnd: the last halfword of a held body, of one that runs from I-RAM, of the last iteration, and the last but one. -/
theorem test_hyp_bodyEnd : (thr1 []).repact = false ∧ (100 : Pc).toNat + 1 = (⟨1, 90, 101⟩ : Loop).stop ∧ (⟨1, 90, 101⟩ : Loop).left ≠ 0 ∧
    (⟨0, 90, 101⟩ : Loop).left = 0 ∧ (∀ k ∈ [(⟨4, 80, 120⟩ : Loop)], k.stop ≠ (⟨0, 90, 101⟩ : Loop).stop) ∧
    (100 : Pc).toNat + 1 ≠ (⟨1, 90, 102⟩ : Loop).stop ∧ 101 - (90 : Pc).toNat ≤ 32 ∧ ¬ 133 - (100 : Pc).toNat ≤ 32 ∧
    holdsOne (some ⟨90, 101, false⟩) [⟨1, 90, 101⟩] = true ∧ holdsOne none [⟨1, 90, 101⟩] = false := by decide
/-- ReturnTrapYield: a handler at whose EVRET event 3 is pending and enabled. -/
theorem test_hyp_evretNext :
    let th := { thr1 [] with frame := some (thr1 []).record, handler := some 5, evpend := 8, evmask := 9 }
    (mac1 th).Ready 0 ∧ th.faultFrame = none ∧ th.pendingEvent = some 3 ∧ th.stepping = false ∧ th.stack.length = (thr1 []).record.depth := by
  unfold State.Ready
  decide +kernel
/-- WaitResults: the event that a WAIT names is pending, and is not. -/
theorem test_hyp_waitEnd : (({ thr1 [] with run := .waiting (.event 2), evpend := 3 } : Thread).evpend &&& 2 ≠ (0 : Half)) ∧
    (({ thr1 [] with run := .waiting (.event 2), evpend := 1 } : Thread).evpend &&& 2 = (0 : Half)) := by decide
/-- ReleaseResults: entries in the store buffer; a spore that its deadline discarded; a CONTROL spore before its deadline, and one without. -/
theorem test_hyp_releaseMore :
    (mac1 { thr1 (16384 :: many 14) with storeBuf := [⟨commonBase, [1], true⟩] }).Ready 0 ∧ 16384 ≤ (16384 : Word).toNat ∧
    ({ spore1 with dead := true } : Spore).dead = true ∧ ({ spore1 with deadline := 1 } : Spore).family = 0 ∧
    (holds1 []).tb.now < ({ spore1 with deadline := 1 } : Spore).deadline ∧ spore1.deadline = 0 := by
  unfold State.Ready
  decide +kernel
/-- MirrorEmit: sessions 15 and 16; lengths 59 and 2,049; a store that the source meets and that does not cover it, and one it does not meet. -/
theorem test_hyp_emitMore : (15 : Word).toNat ≤ 15 ∧ 15 < (16 : Word).toNat ∧ (59 : Word).toNat < 60 ∧ 2048 < (2049 : Word).toNat ∧
    emitSourceOk 0 0x20000000 60 = false ∧
    [(⟨0x40000000100, [1], false⟩ : StoreEntry)].any (fun e => e.meets 0x40000000100 60 && !e.covers 0x40000000100 60) = true ∧
    (∀ e ∈ [(⟨0x40000000100, [1], false⟩ : StoreEntry)], e.covers 0x40000000100 60 = false) ∧
    ([(⟨0x4000000013C, [1], false⟩ : StoreEntry)].all fun e => !e.meets 0x40000000100 60) = true ∧
    (∀ c ∈ ((holds1 []).outq 7).copies, c.cell ∈ ((holds1 []).frame c.cell).cells) := by decide +kernel
/-- Thread 0.0.0 with a number of commands of kind 1 queued under its tags. -/
def dmas1 (n : Nat) : State := mac2 { Frond.reset with queues := (upTo n).map (fun g => { cmd1 1 1 .queued [] with who := .thread 0 g 0 }) }
  { thr1 [1, 0x1FFFE0] with tags := Vector.ofFn (fun g : Fin 16 => if g.val < n then .queued else .free) }
/-- QueueResults: the eighth DMA command of a thread and the ninth; no tag free; no share of the tags; entries in the store buffer. -/
theorem test_hyp_queueMore : (dmas1 7).Ready 0 ∧ ((dmas1 7).thr 0).freeTag = some 7 ∧ (dmas1 7).dmaShare 0 = true ∧ (dmas1 8).dmaShare 0 = false ∧
    (dmas1 7).threadCmds < 32768 ∧ (dmas1 7).tagShare 0 = true ∧ ((dmas1 16).thr 0).freeTag = none ∧ (0x1FFFE0 : Word).toNat % 32 = 0 ∧ viewRange 0x1FFFE0 = some .shared ∧
    (mac1 { thr1 [1, 0x100000] with storeBuf := [⟨commonBase, [1], true⟩] }).Ready 0 := by
  unfold State.Ready
  decide +kernel
/-- BufferResults: an element that is not allocated, and a pool that does not serve the frond. -/
theorem test_hyp_bufferMore : (∀ h, (3, h) ∉ ((pool1 []).pool 63).held) ∧ (pool1 []).poolServes 0 0 = false := by
  refine ⟨fun h => ?_, by decide +kernel⟩
  have e : ((pool1 []).pool 63).held = [] := by decide +kernel
  simp [e]
/-- Task 9, which runs on thread 0.0.1 at priority 3, holds the lock on the word 0x100000 at priority 3. -/
def lock2 (st : List Word) : State := mac2 { Frond.reset with
    locks := [⟨0, 0x100000, 1, 3, some 9, false, []⟩]
    tasks := [(9, { Task.reset with state := .running, eff := 3, thread := 1 })] } { thr1 st with task := some 5 }
/-- LockRequests: a LOCK of a task of priority 32, which the holder's task then takes on. -/
def lockUp : State := { lock2 (0x100000 :: many 15) with
  fronds := [(0, { (lock2 []).frond 0 with
    locks := [⟨0, 0x100000, 1, 3, some 9, false, []⟩]
    tasks := [(5, { Task.reset with state := .running, eff := 7 }), (9, { Task.reset with state := .running, eff := 3, thread := 1 })] })] }
/-- LockRequests: the holder's task takes on a priority, and holds no other lock. -/
theorem test_hyp_inherit : lockUp.Ready 0 ∧ lockUp.lockShare 0 = true ∧ lockUp.lockEntry 0 0x100000 = some ⟨0, 0x100000, 1, 3, some 9, false, []⟩ ∧
    3 < lockUp.lockPrio 0 ∧ tidF 1 = 0 ∧ lockIsDev 0x100000 = false ∧ (∀ x ∈ (lockUp.frond 0).locks ++ lockUp.dlocks, x.addr ≠ 0x100000 → x.task ≠ some 9) := by
  unfold State.Ready
  decide +kernel
/-- LockRequests: the holder runs. -/
theorem test_hyp_inheritRun (w : Word) : (lockUp.thr 1).run ≠ .waiting (.lock w) := by
  have h : (lockUp.thr 1).run = .idle := by decide +kernel
  exact fun e => by cases h.symm.trans e
/-- Threads 0.0.1 and 0.0.2 wait for the lock that thread 0.0.0 holds, the younger at a higher priority. -/
def lock3 : State := { lock1 (0x100000 :: many 15) 0 [1, 2] with
  threads := [(0, thr1 (0x100000 :: many 15)), (1, { thr1 [] with role := .task, task := some 5 }), (2, { thr1 [] with run := .waiting (.lock 0x100000) })] }
/-- UnlockResults: entries in the store buffer; no entry, and one that another holds; one without a waiter, and the best of two. -/
theorem test_hyp_unlock : (mac1 { thr1 (0x100000 :: many 15) with storeBuf := [⟨commonBase, [1], true⟩] }).Ready 0 ∧
    (lock1 [] 1 []).lockEntry 0 0x100004 = none ∧ lock3.Ready 0 ∧
    lock3.lockEntry 0 0x100000 = some ⟨0, 0x100000, 0, 32, none, false, [1, 2]⟩ ∧ [(1 : Tid), 2].Nodup ∧ (0 : Tid) ∉ [(1 : Tid), 2] ∧
    (∀ v ∈ [(1 : Tid), 2], lock3.lockPrio v ≤ lock3.lockPrio 2) ∧
    (∀ v ∈ [(1 : Tid), 2].takeWhile (fun v => decide (v ≠ 2)), lock3.lockPrio v < lock3.lockPrio 2) ∧ (lock3.thr 2).haltReq = false := by
  unfold State.Ready
  decide +kernel
/-- TaskResults: task numbers 1,024 and 2³² − 1. -/
theorem test_hyp_taskRange : (stk (BitVec.ofNat 32 1024 :: many 15)).Ready 0 ∧ 1024 ≤ 1024 ∧ 4294967295 < 2 ^ 32 := by
  unfold State.Ready
  decide +kernel
/-- EventEntry: a breakpoint on the next instruction of a thread with event 3 pending. -/
theorem test_hyp_eventBreak :
    let s := { mac1 { thr1 (many 3) with evpend := 8, evmask := 9, tctl := 2 } with recs := [(recKey .dbg 0 0, 0x80010000 + 100)] }
    (s.thr 0).pendingEvent = some 3 ∧ s.mayTakeEvent 0 = true ∧ (s.thr 0).run = .running ∧ s.breakHere 0 = true := by decide +kernel
/-- FrameReceive: a FIFO queue that reaches XOFF with the frame, and one already in XOFF; each length at its limit. -/
theorem test_hyp_xoff :
    let s := port1 Switch.reset [(Reg.SWC_RXF_CFG 0, 2), (Reg.SWC_RXF_THR 0, 0)]
    s.regF (Reg.SWC_RXF_THR 0) 15 0 * 256 ≤ s.rxFill 0 0 + 64 ∧ (s.port 0).xoff.testBit (s.xoffBit 0 0) = false ∧
      ({ s with sw.ports := [(0, { Port.reset with link := true, xoff := 255 })] } : State).xoffBit 0 0 = 0 ∧
      (({ s with sw.ports := [(0, { Port.reset with link := true, xoff := 255 })] } : State).port 0).xoff.testBit 0 = true ∧
      59 + 4 < 64 ∧ 1514 + 4 ≤ (port1 Switch.reset []).regF (Reg.PORT_CFG 0) 30 16 ∧ (port1 Switch.reset []).regF (Reg.PORT_CFG 0) 30 16 < 1515 + 4 ∧
      (regs1 []).macUp 0 = false := by decide +kernel
/-- PauseResults: a class not paused, a port that ignores pause, and one paused beyond its watchdog. -/
theorem test_hyp_pauseMore :
    let s := { port1 Switch.reset [(Reg.SWC_RXF_CFG 0, 0xFF01), (Reg.PORT_PAUSEWD 0, 5)] with sw.ports :=
      [(0, { Port.reset with link := true, pausedAll := true, pausedTicks := 5, xoff := 1 }), (1, { Port.reset with ignore := 1 })] }
    (s.pclass 0 7).paused = false ∧ (s.port 0).pausedAll = true ∧ s.pauseWd 0 ≠ 0 ∧ s.pauseWd 0 ≤ (s.port 0).pausedTicks ∧
      (s.port 1).ignore = 1 ∧ (s.port 0).ignore ≠ 1 ∧ s.regF (Reg.SWC_RXF_CFG 0) 1 0 = 1 ∧ (s.port 0).xoff.testBit 0 = true ∧
      (s.port 1).xoff.testBit (s.xoffBit 1 7) = false ∧ s.macUp 0 = true := by decide +kernel
/-- OrderingPass: a group of two queues, an empty group, an entry of the residue list, and 256 spores on the slow path. -/
theorem test_hyp_group :
    let l : List Target := [⟨7, 0, none⟩, ⟨6, 0, none⟩]
    let s := order1 (.released 1 l 5 true)
    (l.map (fun e => e.queue)).Nodup ∧ (∀ e ∈ l, s.qHeldDown e.queue = false ∧
        s.qDepth e.queue + (s.frame 5).cells.length ≤ s.regF (Reg.SWC_QPROF (s.outq e.queue).profile) 19 0) ∧
      s.domainResidue 3 = false ∧ ((order1 (.released 1 [] 5 true)).domain 3).out = [1] ∧ (s.domain 4).out = [] ∧
      ({ order1 (.released 0 [] 0 false) with sw.residue := [⟨5, [], some 3, true, 9⟩] } : State).domainResidue 3 = true ∧
      256 ≤ (List.replicate 256 (⟨1, true⟩ : SlowEntry)).length := by decide +kernel
/-- ResidueResults: an entry with one copy whose queue is not held down; one that is not CONTROL; a place behind the last. -/
theorem test_hyp_residueMore : (regs1 []).qHeldDown 7 = false ∧ ({ resid1 with control := false } : Residue).control = false ∧
    [resid1][0]? = some resid1 ∧ [resid1][1]? = none := by decide +kernel
/-- SlowDelivery: a record for the host's ring 3, which has room; a pool that is not configured. -/
theorem test_hyp_slowRing :
    let s := { regs1 [(Reg.DSP_SLOW_CFG, 0x10000), (Reg.BLK_RNG_CFG 3, 0x80000004), (Reg.BPM_CFG 0, 0x80000006), (Reg.BPM_COUNT 0, 4)] with
      host := { HostIf.reset with link := true, bme := true }
      sw := { switch1 with
        spores := [(1, some { spore1 with stands := .slow })]
        slowQ := [⟨1, true⟩]
        pools := [(0, ⟨true, [], 0, 0⟩)] } }
    (s.slowToRing true).1 = true ∧ s.ringRoom 3 = true ∧ (s.pool 0).valid = true ∧ s.mayAlloc 0 .dispatch = true ∧
      s.spore 1 = some { spore1 with stands := .slow } ∧ ((regs1 []).pool 0).valid = false := by decide +kernel
/-- LinkResults: a port whose link is down, with both bits of preemption and with none; EgressResults: a port out of service. -/
theorem test_hyp_linkMore : ((regs1 []).port 63).link = false ∧ ((regs1 []).port 63).vstate ≠ 1 ∧ ((regs1 []).advanceTo 0).macUp 0 = false ∧
    (regs1 [(Reg.PORT_CFG 63, 0xC00)]).regB (Reg.PORT_CFG 63) 11 = true ∧ ((regs1 []).frond 15).gated = false ∧ ((regs1 []).frond 15).pllOff = false := by decide +kernel
/-- A class none of whose queues holds a frame has no head. -/
theorem classHead_none (v : State) (q tc : Nat) (t : DWord) (sp : v.servePort q = some (0, q)) (one : v.sw.queues.map (fun e => e.1) = [q])
    (hc : tc ≠ q) : v.classHead 0 tc t = none := by
  have : v.classQueues 0 tc = [] := by
    simp only [State.classQueues, List.filterMap_eq_nil_iff]
    intro x hx
    have e : x.1 ∈ v.sw.queues.map (fun e => e.1) := List.mem_map_of_mem hx
    rw [one, List.mem_singleton] at e
    rw [e, sp, if_neg (fun h => hc (by injection h.2 with h; injection h with _ h; exact h.symm))]
  simp [State.classHead, this, drr]
/-- EgressResults: no class of port 0 but class 7 has a head frame, and that one is not too long. -/
theorem test_hyp_headFrames (tc : Nat) (h : Head) : ((egress1.advanceTo 0).syncPort 0).classHead 0 tc 0 = some h →
    ((egress1.advanceTo 0).syncPort 0).txTooLong 0 h = false := by
  have sp : ((egress1.advanceTo 0).syncPort 0).servePort 7 = some (0, 7) := by decide +kernel
  have one : ((egress1.advanceTo 0).syncPort 0).sw.queues.map (fun e => e.1) = [7] := by decide +kernel
  have k : (((egress1.advanceTo 0).syncPort 0).classHead 0 7 0).all (fun h => !((egress1.advanceTo 0).syncPort 0).txTooLong 0 h) = true := by decide +kernel
  generalize (egress1.advanceTo 0).syncPort 0 = v at *
  by_cases hc : tc = 7
  · subst hc
    intro e
    rw [e] at k
    simpa using k
  · rw [classHead_none v 7 tc 0 sp one hc]
    exact fun e => nomatch e
/-- EgressResults: a frame under way on port 0. -/
theorem test_hyp_transmit :
    let y : Tx := ⟨7, ⟨5, List.replicate 16 0, 0, 3, false, false, 1, 0, none, false, none⟩, List.replicate 64 0, 0, 0⟩
    let s := { egress1 with sw.ports := [(0, { Port.reset with link := true, tx := some y })] }
    (((s.advanceTo 0).syncPort 0).port 0).tx = some y := by decide +kernel
/-- ApertureWrite: a length of 8 at a limit of 7, a write over Max_Payload_Size, and one whose first and last bytes alone are enabled. -/
theorem test_hyp_apertureMore : 7 < (List.replicate 8 (0 : Byte)).length ∧ HostIf.reset.mps = 128 ∧ 128 < (List.replicate 129 (some (0 : Byte))).length ∧
    ([] : List (Option Byte)).length + 125 + 3 ≤ 128 ∧ (List.replicate 8 (0 : Byte)) ≠ [] := by decide +kernel
/-- BulkCommands: a channel that is fenced, one that is armed, one with 16 commands, and one whose first command has started. -/
theorem test_hyp_bulkMore :
    let k : BulkCmd := ⟨true, commonBase, 0, 64, 0, 0, true⟩
    ({ BulkChan.reset with fenced := true } : BulkChan).fenced = true ∧ ({ BulkChan.reset with armed := true } : BulkChan).armed = true ∧
      ({ BulkChan.reset with queue := List.replicate 16 k } : BulkChan).queue.length = 16 ∧
      ((host1 { BulkChan.reset with queue := [k] } []).bulk 0).queue = [k] ∧ k.started = true ∧ (regs1 []).bulkReady 0 { k with started := false } = false ∧
      (host1 BulkChan.reset []).bulkReads commonBase 1 = true ∧ frondOf (commonBase + 0xFFFFF) = none := by decide +kernel
/-- PullCompletion: a channel without a request, and a request of tag 1,023 that has ended. -/
theorem test_hyp_orphan : (host1 BulkChan.reset [] |>.bulk 0).request = none ∧
    ([(1023, 77)] : List (Nat × Nat)).find? (fun e => decide (e.1 = 1023)) = some (1023, 77) ∧
    (host1 BulkChan.reset []).host.orphans.find? (fun e => decide (e.1 = 1023)) = none := by decide +kernel
/-- RingSignal: MSI-X on with the ring's vector open, masked, and off; a ring that signalled 254 µs ago. -/
theorem test_hyp_msix :
    let r : Sparse Word := [(Reg.BLK_RNG_CFG 3, 0xBFE0FF04)]
    let s := { host1 BulkChan.reset r with host.msi := { Msix.reset with on := true }, host.rings := [(3, { Ring.reset with due := true, signalled := some 0 })] }
    let o := { s with host.msi := { Msix.reset with on := true, vectors := [(511, { MsixVec.reset with masked := false })] } }
    s.ringUp 3 = true ∧ s.regF (Reg.BLK_RNG_CFG 3) 29 21 = 511 ∧ s.msixOpen 511 = false ∧ o.msixOpen 511 = true ∧ s.host.msi.on = true ∧
      (host1 BulkChan.reset r).host.msi.on = false ∧ (s.ring 3).signalled = some 0 ∧ 254999 < 0 + s.regF (Reg.BLK_RNG_CFG 3) 15 8 * 1000 ∧
      0 + s.regF (Reg.BLK_RNG_CFG 3) 15 8 * 1000 ≤ 255000 ∧ Ring.reset.sig = false := by decide +kernel
/-- HostLink: every channel's queue empty, the host with the debug lock. -/
theorem test_hyp_hostLink : (∀ c < 8, ((regs1 [(Reg.DBG_LOCK, 0x100)]).bulk c).queue.length ≤ 16) ∧ (regs1 [(Reg.DBG_LOCK, 0x100)]).regF Reg.DBG_LOCK 9 8 = 1 ∧
    (host1 BulkChan.reset []).host.link = true := by decide +kernel
/-- HostLink: no command waits on a channel and no record in a ring. -/
theorem test_hyp_hostIdle (n : Nat) : ((regs1 []).ring n).held = [] ∧ ((regs1 []).bulk n).queue = [] := by
  constructor <;> with_unfolding_all rfl
/-- DebugResults: threads in an event wait and in a memory wait; an operand and a local to write; a running thread and one that holds no lock. -/
theorem test_hyp_debugWaits : ((waits (.event 2)).thr 0).run = .waiting (.event 2) ∧ ((waits (.mem .drain .fence)).thr 0).run = .waiting (.mem .drain .fence) ∧
    (debug1 0 (thr1 [])).ownsDebug .host = false ∧ (debug1 0x200 (thr1 [])).jtagShut .jtag = false ∧
    ({ debug1 0x100 { thr1 [] with halted := true } with regs := [(Reg.DBG_LOCK, 0x100), (Reg.DBG_TREG_IDX, 0x1F)] } : State).regF Reg.DBG_TREG_IDX 7 0 = 31 ∧
    (lock1 [] 0 []).lockEntry 0 0x100004 = none ∧ ((lock1 [] 1 []).thr 1).halted = false ∧ lockAddrOk 0x100000 = true ∧ Party.host ≠ Party.jtag := by
  decide +kernel
/-- The device in RUN with the abort controller at work until instant 10, and n aborts waiting. -/
def aborts1 (n : Nat) : State := { regs1 [] with rs := { RasUnit.reset with
  cur := some (10, 0)
  waiting := List.replicate n 1 } }
/-- AbortResults: the controller at rest; a target in service, one that is fenced, one whose frond's PLL is off; three and four aborts waiting. -/
theorem test_hyp_aborts : (stk []).abortBusy = false ∧ (stk []).rs.waiting = [] ∧ (stk []).abortsAtOnce 1 0 = false ∧ (stk []).abortsAtOnce 2 0 = false ∧
    (stk []).abortsAtOnce 3 0 = false ∧ (stk []).abortsAtOnce 4 4 = false ∧ (stk []).abortsAtOnce 5 3 = false ∧ (stk []).abortsAtOnce 6 7 = false ∧
    (stk []).abortsAtOnce 7 0 = false ∧ (stk []).abortsAtOnce 8 63 = false ∧ (stk []).abortsAtOnce 9 0 = false ∧
    ({ stk [] with fronds := [(0, { Frond.reset with pllOff := true })] } : State).abortsAtOnce 1 0 = true ∧
    (host1 { BulkChan.reset with fenced := true } []).abortsAtOnce 6 0 = true ∧ (aborts1 3).abortBusy = true ∧ (aborts1 3).rs.waiting.length < 4 ∧
    4 ≤ (aborts1 4).rs.waiting.length ∧ (aborts1 4).mode.acceptsReset = true := by decide +kernel
/-- DegradedResults: a core in service and one that is fenced. -/
theorem test_hyp_coreError : ((regs1 []).core 255).fenced = false ∧
    (({ regs1 [] with cores := [(255, { CoreUnit.reset with fenced := true })] } : State).core 255).fenced = true ∧ (regs1 []).rs.waiting = [] ∧
    (regs1 []).jtagShut .jtag = false ∧ (0xA5 : Word).toNat % 256 = 0xA5 ∧ State.reset.mode.acceptsReset = false := by decide +kernel
/-- The device in RUN with DRAM ready, requests waiting at channel 0 behind a turn of requester `turn`, and PANIC or not. -/
def dram1 (l : List DramReq) (turn : Nat) (panic : Bool) : State := { regs1 [] with dc := { DramUnit.reset with
  ready := true
  panic := panic
  chans := [(0, ⟨l, [], turn⟩)] } }
/-- DramResults: requesters 0, 3 and 19 wait for three blocks of channel 0, or one alone, or none; the floor's slot, with no DMA port waiting and
with one; the error threshold at 0; a pause that began 10 µs ago; a subchannel that nobody uses. -/
theorem test_hyp_dramQueue :
    let l : List DramReq := [⟨0, 0⟩, ⟨3, 0x1000000⟩, ⟨19, 0x2000000⟩]
    (dram1 l 19 true).dramServable ((dram1 l 19 true).dramQ 0).queue 0 = [(0, ⟨0, 0⟩), (1, ⟨3, 0x1000000⟩), (2, ⟨19, 0x2000000⟩)] ∧
      ((dram1 l 19 true).dramQ 0).turn < 20 ∧ (∃ e ∈ [(0, (⟨3, 0⟩ : DramReq))], e.2.src.val = 3 ∧ 1 ≤ 3 ∧ 3 ≤ 16) ∧
      (dram1 [⟨19, 0x40⟩, ⟨0, 0x40⟩] 0 false).dramServable [⟨19, 0x40⟩, ⟨0, 0x40⟩] 0 = [(0, ⟨19, 0x40⟩)] ∧
      (dram1 [] 0 false).dramServable ((dram1 [] 0 false).dramQ 0).queue 0 = [] ∧ (dram1 [] 0 false).dramChan 0 = 0 ∧
      (regs1 [(Reg.DRC_ERRTHR, 0)]).regF Reg.DRC_ERRTHR 15 8 = 0 ∧ (dram1 [] 0 false).inDram 0 1 = true ∧ (10 : DWord).toNat + 10000 ≤ (10010 : DWord).toNat ∧
      (regs1 []).dc.ready = false ∧ (dram1 l 19 true).dc.panic = true := by decide +kernel
/-- One page more. -/
theorem page_more (d a p n : Nat) (h : a + p * (n + 1) ≤ d) : a + p ≤ d ∧ a + p + p * n ≤ d := by
  rw [Nat.mul_succ] at h
  omega
/-- Pages all of which are kept. -/
theorem keptPages_all (s : State) (d : Nat) (hd : s.dramSize = d) (h : ∀ g < 2, ∀ sl < 2, s.kept g sl = true) (n : Nat) :
    ∀ a, a + 4096 * n ≤ d → (s.keptPages a n).length = n ∧ (0 < n → (s.keptPages a n).head? = some a) := by
  induction n with
  | zero => exact fun a _ => ⟨rfl, fun h => absurd h (by decide)⟩
  | succ n ih =>
    intro a ha
    have hl := page_more d a 4096 n ha
    have hin : s.inDram a 4096 = true := by rw [State.inDram, hd]; exact decide_eq_true hl.1
    have hk : s.kept (s.dramGroup a) (s.dramSlot a) = true :=
      h _ (Nat.mod_lt _ (by decide)) _ (by unfold State.dramSlot; split <;> decide)
    simp [State.keptPages, hin, hk, (ih (a + 4096) hl.2).1]
/-- The device in RUN with every keep unit in the keep set, the tick on. -/
def keep1 : State := regs1 [(Reg.TICK_CTRL, 1), (Reg.DRC_KEEP, 0xFFFF)]
/-- ModeResults: a DRAIN with target KEEP for the largest image. -/
theorem test_hyp_keepSet : keep1.md.cmd = none ∧ keep1.regB Reg.TICK_CTRL 0 = true ∧ keep1.mode.takes 2 = true ∧ keep1.keepSetBad 32768 = false := by
  have k : ∀ g < 2, ∀ sl < 2, keep1.kept g sl = true := by decide +kernel
  have n : 4096 * 32768 ≤ keep1.dramSize ∧ keep1.dramSize / 4096 * 4096 = keep1.dramSize := by decide +kernel
  have b : keep1.keepBase = 0 := by decide +kernel
  have z : keep1.regF Reg.DRC_KEEP 15 0 ≠ 0 := by decide +kernel
  have p := keptPages_all keep1 _ rfl k (keep1.dramSize / 4096) 0 (by omega)
  refine ⟨by decide +kernel, by decide +kernel, by decide +kernel, ?_⟩
  have q : keep1.keepPages = keep1.keptPages 0 (keep1.dramSize / 4096) := by simp [State.keepPages, b]
  simp only [State.keepSetBad, z, q, b, p.1, p.2 (by omega), Bool.or_eq_false_iff, decide_eq_false_iff_not]
  exact ⟨⟨fun h => h, fun h => h rfl⟩, by omega⟩
/-- ModeResults: a command that waits; KEEP being entered without a wake; CLK_PLLOFF in LOAD with every thread IDLE. -/
theorem test_hyp_modesMore : ({ regs1 [] with md := { ModeUnit.reset with cmd := some (1, false, false) } } : State).md.cmd ≠ none ∧
    (regs1 []).mode ≠ .keep ∧ (regs1 []).md.entering = false ∧ ({ regs1 [] with md := { ModeUnit.reset with entering := true } } : State).md.wake = none ∧
    (load1 []).mode = .load ∧ (load1 []).threads = [] ∧ (Thread.reset).role = .idle ∧ (0xA4 : Word).toNat % 256 ≠ 0xA5 := by decide +kernel
/-- Slots filled with an entry. -/
def full1 (l : List Nat) (e : TEntry) : Sparse (Option TEntry) := l.map (fun i => (i, some e))
/-- TableResults: the staged key 1, whose eight slots entries with the key 0 hold: these can move to their own buckets, or cannot. -/
theorem test_hyp_crowded :
    let r : Sparse Word := [(Reg.TBL_ENTRY 0, 1)]
    let hard := bucketSlots 2679 ++ bucketSlots 30544 ++ bucketSlots 35504 ++ bucketSlots 63383
    let s := { regs1 r with tbl := { TableUnit.reset with slots := full1 hard entry1 } }
    let u := { regs1 r with tbl := { TableUnit.reset with slots := full1 (bucketSlots 30544 ++ bucketSlots 35504) entry1 } }
    let e : TEntry := ⟨s.tblStaging.take 7, false, false, none⟩
    s.entryOk 0 s.tblStaging = true ∧ s.findKey 0 s.tblStaging = none ∧ (s.place 0 e).isNone = true ∧ u.findKey 0 u.tblStaging = none ∧
      (u.place 0 e).map (fun a => (a.2.1, a.2.2)) = some (142016, 1) := by decide +kernel
/-- TableResults: a WRITE_INDEX elsewhere in the key's buckets; an idle entry, one that is in use, a static one. -/
theorem test_hyp_tableMore :
    let s := table1 entry1 [(Reg.TBL_INDEX, 253533)]
    (253532 ≠ s.regF Reg.TBL_INDEX 17 0) ∧ s.regF Reg.TBL_INDEX 17 0 / 4 ∈ candidates (keyBytes 0 s.tblStaging) (s.seeds 0) ∧ s.slot 0 253533 = none ∧
      ({ entry1 with hit := false } : TEntry).hit = false ∧ ({ entry1 with words := [0, 0, 0x8000, 0, 0, 0, 0] } : TEntry).w 2 = 0x8000 ∧
      (regs1 [(Reg.TBL_INDEX, 253532)]).slot 0 253532 = none ∧ (regs1 []).tbl.fenced = 0 := by decide +kernel
/-- WalkResults: the registers idle and busy, ageing with a bucket left, one that removes by VID; no entry under a previous seed pair. -/
theorem test_hyp_walkMore :
    let w : Walk := ⟨10, 0, 0, 65534, 2, 0, false, 0, 0⟩
    (regs1 []).tblBusy = false ∧ (regs1 []).tbl.walk = none ∧ 1 < w.left ∧ w.next < 65535 ∧ w.op < 16 ∧ ({ w with op := 9 } : Walk).op = 9 ∧
      (∀ x ∈ (table1 entry1 [(Reg.TBL_RHS 0, 0x0100FFFF)]).tbl.slots, (table1 entry1 [(Reg.TBL_RHS 0, 0x0100FFFF)]).prevAt x.1 = false) ∧
      (regs1 [(Reg.TBL_RHS 0, 0x0100FFFF)]).regF (Reg.TBL_RHS 0) 15 0 = 65535 ∧ (table1 entry1 []).slot 0 253533 = none := by decide +kernel
/-- WalkResults: an entry that still stands under the previous seeds, alone in its bucket: the slot it moves to, and with no room for it. -/
theorem test_hyp_migrate :
    let e : TEntry := { entry1 with prev := true }
    let r : Sparse Word := [(Reg.TBL_RHS 0, 0x0100FFFB)]
    let s := { regs1 r with tbl := { TableUnit.reset with slots := [(262124, some e)] } }
    let u := { regs1 r with tbl := { TableUnit.reset with slots := full1 (bucketSlots 2679 ++ bucketSlots 63383) entry1 ++ [(262124, some e)] } }
    s.rhsState 0 = 1 ∧ s.regF (Reg.TBL_RHS 0) 15 0 = 65531 ∧ s.slot 0 262124 = some e ∧ 262124 ∈ bucketSlots 65531 ∧
      (∀ j ∈ bucketSlots 65531, j ≠ 262124 → s.slot 0 j = none) ∧ 65531 ∈ candidates (keyBytes 0 e.words) (s.prevSeeds 0) ∧
      (candidates (keyBytes 0 e.words) (s.seeds 0)).findSome? (fun g => s.freeIn 0 g) = some 253532 ∧ s.tbl.walk = none ∧
      (∀ j ∈ bucketSlots 65530, s.slot 0 j = none) ∧ u.slot 0 262124 = some e ∧ (∀ j ∈ bucketSlots 65531, j ≠ 262124 → u.slot 0 j = none) ∧
      (u.place 0 { e with prev := false }).isNone = true ∧ slotKey 0 262124 ∉ u.tbl.stuck := by decide +kernel
/-- CommandStart: commands of each kind at the head; SIG commands that act, with a vote group that is in use; a check job of the host that runs. -/
theorem test_hyp_start :
    let s (k op : Nat) (d : List Word) := mac2 (queue1 k op d) (thr1 [])
    let w := [0, 1, 0x100000]
    let g := { s 4 5 [5] with recs := [(recKey .vote 5 0, 0x00500000)] }
    (s 0 1 []).headCmd 0 0 = some (cmd1 0 1 .queued []) ∧ (s 3 2 []).headCmd 0 3 = some (cmd1 3 2 .queued []) ∧
      (s 4 3 w).headCmd 0 4 = some (cmd1 4 3 .queued w) ∧ (cmd1 4 3 .queued w).count = 1 ∧ (cmd1 4 3 .queued w).sig0 = 0 ∧
      (s 4 3 w).sigCheck 0 (cmd1 4 3 .queued w) = none ∧ (s 4 2 [0, 1]).sigCheck 0 (cmd1 4 2 .queued [0, 1]) = none ∧
      g.sigCheck 0 (cmd1 4 5 .queued [5]) = none ∧
      ({ regs1 [] with ck := { CheckUnit.reset with job := some (cmd1 2 1 (.started 0) []) } } : State).ck.job.isSome = true ∧
      (regs1 []).ck.job = none ∧ (s 1 2 [0, 0, 0x100, 0x8010, 64, 7]).dmaCheck 0 (cmd1 1 2 .queued [0, 0, 0x100, 0x8010, 64, 7]) = none ∧
      (s 0 8 []).tblCheck 0 8 (cmd1 0 8 .queued []) ≠ none ∧ (regs1 []).dramReady = false := by decide +kernel
/-- CommandStart: a signal that a WRITE takes. -/
theorem test_hyp_signal : ({ Sig.reset with valid := true } : Sig).valid = true ∧ ({ Sig.reset with valid := true } : Sig).subst = false := by decide
/-- CommandStart: a FIND and a READ_PAGE that pass their checks, of a stream with one page. -/
theorem test_hyp_peatCommands :
    let r : List Word := [1, 0, 0, 0, 0, 2, 0, 0]
    let s := { mac2 (queue1 3 2 []) (thr1 []) with
      dc := { DramUnit.reset with ready := true }
      recs := [(recKey .peat 0 0, 1), (recKey .peat 0 5, 2)]
      pt := { PeatUnit.reset with streams := [(0, { PStream.reset with run := r, has := true, seq := 1, committed := 1 })] } }
    s.peatRec 0 = r ∧ s.peatValid 0 = true ∧ s.dramReady = true ∧ s.peatCheck 0 (cmd1 3 2 .queued []) = none ∧
      s.peatCheck 0 (cmd1 3 1 .queued [0, 1, 0, 0x100000]) = none := by decide +kernel
/-- A check job on 64 bytes of common memory. -/
def check1 : Cmd := cmd1 2 1 (.started 0) [0, 0x8010, 63]
/-- CommandEnd: a COPY within common memory that is one chunk; a check job that is one chunk, of a frond and of the host; no such command. -/
theorem test_hyp_chunk :
    let c := cmd1 1 1 (.started 0) copy1
    let s := mac2 { Frond.reset with running := [c, check1] } (thr1 [])
    let h : Cmd := { check1 with who := .host 0 }
    let k := { s with ck := { CheckUnit.reset with job := some h } }
    c.chunk 0 = c.part.len ∧ s.dramWaits c.part.src = false ∧ s.dramWaits c.part.dst = false ∧ s.readRetired c.part.src = false ∧
      s.inActive c.part.dst c.part.len = false ∧ (∀ j < c.part.len, s.readRetired (c.part.dst + j) = false) ∧ c.opcode = 1 ∧
      (s.frond 0).running[1]? = some check1 ∧ chunkLen check1.src check1.chkLen = check1.chkLen ∧ s.dramWaits check1.src = false ∧
      s.readRetired check1.src = false ∧ k.ck.job = some h ∧ chunkLen h.src h.chkLen = h.chkLen ∧ h.who = .host 0 ∧ (s.frond 0).running[2]? = none := by
  decide +kernel
/-- CommandEnd: a command that has acted, of a thread that runs and of one in a CQW for it; one of an unknown opcode at the head. -/
theorem test_hyp_acted :
    let c := cmd1 1 1 (.acted 7 []) []
    let s (r : Run) := mac2 { Frond.reset with running := [c] } { thr1 [] with run := r }
    ((s .running).frond 0).running = [c] ∧ c.who = .thread 0 0 ((s .running).thr 0).epoch ∧ tidF 0 = 0 ∧ c.noResult = true ∧
      ((s .running).thr 0).run = .running ∧ ((s (.waiting (.cq 0))).thr 0).run = .waiting (.cq 0) ∧ c.phase = .acted 7 [] ∧
      ((s (.waiting (.cq 0))).thr 0).haltReq = false ∧ ((s (.waiting (.cq 0))).thr 0).stepping = false ∧
      (mac2 (queue1 1 9 []) (thr1 [])).headCmd 0 1 = some (cmd1 1 9 .queued []) ∧ opcodeKnown 1 (cmd1 1 9 .queued []).opcode = false := by
  decide +kernel
/-- CommandEnd: an error 16 ticks after the command's end, of the thread's present epoch and of an earlier one; a write of the gateway's register
for kinds 4 and 5. -/
theorem test_hyp_late :
    let d : DoneCmd := ⟨.thread 0 3 1, 1, 0, 0, 0⟩
    let s (n : Nat) := mac2 { Frond.reset with finished := [d] } { thr1 [] with epoch := n }
    ((s 1).frond 0).finished[0]? = some d ∧ ((s 1).thr 0).epoch = 1 ∧ ((s 2).thr 0).epoch ≠ 1 ∧ (0 : Nat) ≤ 0 + 16 ∧
      (BitVec.ofNat 32 (5 * 2 ^ 29) : Word).toNat / 2 ^ 29 = 5 ∧ (BitVec.ofNat 32 (4 * 2 ^ 29 + 32767 * 32) : Word).toNat / 2 ^ 29 = 4 ∧
      ((s 1).frond 0).finished[1]? = none := by decide +kernel
/-- The device in a mode with registers listed and words staged. -/
def stage1 (m : Mode) (r l : Sparse Word) : State := { regs1 r with
  mode := m
  stage := l.map (fun e => (e.1, some e.2)) }
/-- RecordRows: a CONTROL rule and one that is none, staged and committed; a bank of a gate list that is idle, and the one in use. -/
theorem test_hyp_ruleRows :
    let w (s : State) := ((upTo 32).map (fun i => s.reg (Reg.CLS_RULE_W i))).flatMap (fun w => leBytes 4 w.toNat)
    let s := regs1 [(Reg.CLS_RULE_W 24, 0x100)]
    ruleOk (w s) = true ∧ fld (s.reg (Reg.CLS_RULE_W 24)) 10 8 ≠ 0 ∧ s.controlRule 4095 = false ∧ ruleOk (w (regs1 [(Reg.CLS_RULE_W 28, 1)])) = false ∧
      ({ regs1 [] with recs := [(recKey .rule 4095 23, 1)] } : State).controlRule 4095 = true ∧
      (regs1 [(Reg.EGR_GCL_IDX 63, 0x1FF)]).regB (Reg.EGR_GCL_IDX 63) 8 ≠ ((regs1 []).port 63).gateBank ∧
      (regs1 [(Reg.EGR_GCL_IDX 63, 0xFF)]).regB (Reg.EGR_GCL_IDX 63) 8 = ((regs1 []).port 63).gateBank := by decide +kernel
/-- RecordRows: an extension entry with no peer on its port, with one of its E-CID, and with 128 of others. -/
theorem test_hyp_extRows :
    let v : Word := 0x85000005
    let peers (s : State) := s.regs.filter (fun e => decide (Reg.EGR_XP_L 64 ≤ e.1 ∧ e.1 ≤ Reg.EGR_XP_L 4095 ∧ e.1 ≠ Reg.EGR_XP_L 4095) && e.2.getLsbD 31 &&
      decide (fld e.2 29 24 = fld v 29 24))
    let dup (s : State) := (peers s).any (fun e => decide (fld e.2 11 0 = fld v 11 0))
    let many := load1 ((upTo 128).map (fun k => (Reg.EGR_XP_L (64 + k), BitVec.ofNat 32 (0x85000006 + k))))
    v.getLsbD 31 = true ∧ dup (load1 []) = false ∧ (peers (load1 [])).length < 128 ∧ dup (load1 [(Reg.EGR_XP_L 64, v)]) = true ∧
      dup many = false ∧ 128 ≤ (peers many).length := by decide +kernel
/-- RecordRows: stream records in service: unchanged, one that names no FRER record, one that the checks admit, one that they do not. -/
theorem test_hyp_streamRows :
    let words (s : State) := s.windowWords .stream 0 (Reg.CTL_SDATA 0) 3
    let s := stage1 .run [] [(Reg.CTL_SDATA 0 + 4, 1)]
    let u := stage1 .run [] [(Reg.CTL_SDATA 0 + 8, 0x40000000)]
    let next (s : State) (v : Word) := (s.clearStage (Reg.CTL_SDATA 0) 4).setRecs .stream 0 0 (words s ++ [v])
    words s = [0, 1, 0] ∧ s.mode.serves = true ∧ (s.frer 0).exist = false ∧ words u = [0, 0, 0x40000000] ∧ (next u 0).admission.2 = some (4, 0) ∧
      (next (stage1 .run [] []) 1).admission.2 = none ∧ (stage1 .run [] []).recF .stream 0 3 13 0 ≠ fld (1 : Word) 13 0 ∧
      (stage1 .load [] []).mode.serves = false := by decide +kernel
/-- RecordRows: idle and active bank of a stream gate; FRER records at the ends of what is taken, and one without a history. -/
theorem test_hyp_gateRows : (regs1 [(Reg.CTL_GIDX, 0x7FFF)]).regB Reg.CTL_GIDX 14 ≠ ((regs1 []).sgate 1023).bankB ∧
    (regs1 [(Reg.CTL_GIDX, 0x3FFF)]).regB Reg.CTL_GIDX 14 = ((regs1 []).sgate 1023).bankB ∧
    (let w0 : Word := 0x00010901; fld w0 15 12 = 0 ∧ fld w0 6 0 ≠ 0 ∧ 2 ≤ fld w0 11 9 ∧ fld w0 11 9 ≤ 4 ∧ fld w0 31 16 ≠ 0 ∧ w0.getLsbD 8 = true) ∧
    fld (0x00010000 : Word) 31 16 ≠ 0 ∧ fld (1 : Word) 15 0 ≠ 0 ∧ fld (0x00010A00 : Word) 6 0 = 0 ∧
    (({ regs1 [] with ct := { StreamUnit.reset with frer := [(0, { Frer.reset with exist := true })] } } : State).frer 0).exist = true := by
  decide +kernel
/-- RecordRows: a vote group and a publication that are taken and refused; a policy in use, free, and not valid. -/
theorem test_hyp_voteRows :
    let s := { load1 [] with recs := [(recKey .peat 0 0, 1)] }
    (load1 []).groupOk [0, 0, 0, 0, 0, 0, 0, 1] = false ∧ (load1 []).groupOk (List.replicate 8 0) = true ∧
      (load1 []).pubCheck [0x400, 0, 0, 0, 0, 0, 0] = 1 ∧ (load1 []).pubCheck (List.replicate 7 0) = 0 ∧
      s.peatStreams.any (fun j => decide (psPolicy (s.peatRec j) = 0)) = true ∧ s.peatStreams.any (fun j => decide (psPolicy (s.peatRec j) = 255)) = false ∧
      fld (2 : Word) 2 0 < 3 ∧ (fld (0x00010004 : Word) 2 0 = 4 ∧ fld (0x00010004 : Word) 31 16 ≠ 0) ∧ ¬ fld (5 : Word) 2 0 < 3 := by decide +kernel
/-- RecordRows: peat streams: one that is taken outside and in service, one valid already, one out of range, one over the budget. -/
theorem test_hyp_peatRows :
    let w : List Word := [1, 0, 1, 0, 0, 2, 0, 0]
    let s := stage1 .run [] []
    let sums (s : State) (w : List Word) := (s.peatBudget [(0, w)]).2
    let big : List Word := [1, 0, 0x80000, 0, 0, 0x100000, 0, 0]
    (nth 0 w 0).getLsbD 0 = true ∧ s.peatOk 0 w = true ∧ s.peatValid 0 = false ∧ sums s w = none ∧ s.peatOk 0 (List.replicate 8 1) = false ∧
      ({ s with recs := [(recKey .peat 0 0, 1)] } : State).peatValid 0 = true ∧ s.peatOk 0 big = true ∧
      sums (stage1 .run [(Reg.TICK_PERIOD, 31)] []) big = some 0 := by decide +kernel
/-- RecordRows: clients of IPv4 and IPv6 at the ends of prefix and MTU, on a logical port with a queue, and one beyond them. -/
theorem test_hyp_clientRows :
    let s := { port1 Switch.reset [] with mode := .load }
    (∃ tc < 8, (s.queuePort (512 + fld (0x07D00000 : Word) 11 0 * 8 + tc)).isSome = true) ∧ fld (0x00200001 : Word) 23 16 ≤ 32 ∧
      fld (0x00800003 : Word) 23 16 ≤ 128 ∧ 576 ≤ fld (0x02400000 : Word) 26 16 ∧ fld (0x07D00000 : Word) 26 16 ≤ 2000 ∧
      ¬ 576 ≤ fld (0x023F0000 : Word) 26 16 := by decide +kernel
/-- ControlRows: a tick two ahead of the present one and one nearer; a gate list whose MULT does not divide it; a swap that is armed. -/
theorem test_hyp_swaps : (load1 [(Reg.EGR_GCL_CTRL 63, 0x10)]).regF (Reg.EGR_GCL_CTRL 63) 7 4 = 1 ∧ 2 % (1 + 1) = 0 ∧ 3 % (1 + 1) ≠ 0 ∧
    (load1 []).tk.number.toNat + 2 ≤ 2 ∧ 1 < (load1 []).tk.number.toNat + 2 ∧
    (({ load1 [] with sw.ports := [(63, { Port.reset with armed := some 5 })] } : State).port 63).armed.isSome = true ∧
    ((load1 []).port 63).armed = none ∧ ({ load1 [] with ct.swapAt := some 5 } : State).ct.swapAt.isSome = true ∧ (load1 []).ct.swapAt = none ∧
    ({ load1 [] with sw.ports := [(63, { Port.reset with link := true })] } : State).regB (Reg.PORT_CFG 63) 10 ≠ (0x00000402 : Word).getLsbD 10 := by
  decide +kernel
/-- ControlRows: the host frees an element that is allocated, one that is free, one beyond the pool; a sweep already enabled; a service address 0. -/
theorem test_hyp_hostPool : ((pool1 [(3, .host)]).pool 63).held.any (fun e => decide (e.1 = 3)) = true ∧
    ((pool1 []).pool 63).held.any (fun e => decide (e.1 = 3)) = false ∧ (pool1 []).poolCount 63 ≤ 4 ∧ 3 < (pool1 []).poolCount 63 ∧
    (load1 [(Reg.SIG_CFG, 0x80000007)]).regB Reg.SIG_CFG 31 = true ∧ 7 ≤ (load1 [(Reg.SIG_CFG, 0x80000007)]).regF Reg.SIG_CFG 3 0 ∧
    (load1 [(Reg.SIG_CFG, 0)]).regB Reg.SIG_CFG 31 = false ∧ ({ load1 [] with recs := [(recKey .svc 0 0, 3)] } : State).svcValid 0 = true ∧
    (∀ k < 16, 0 < k → ({ load1 [] with recs := [(recKey .svc 0 0, 3)] } : State).svcValid k = false) := by decide +kernel
/-- The bytes of a loadable image of frond 0 (R149): one D-RAM segment of 4 bytes with an entry table, one of roles, every thread a TASK. -/
def imageBody1 : List Byte := [1, 0, 0, 0] ++ leBytes 4 96 ++ leBytes 4 2 ++ leBytes 4 0 ++ [4, 0, 0, 0] ++ leBytes 4 98 ++ leBytes 4 64 ++ leBytes 4 0 ++ [0, 0] ++
  (List.replicate 16 [0xAA, 0xAA, 0, 0]).flatten
/-- The header of that image without its check value. -/
def imageHead1 : List Byte := leBytes 4 0x5356504F ++ leBytes 2 1 ++ leBytes 2 64 ++ leBytes 4 162 ++ leBytes 2 2 ++ leBytes 2 0 ++ leBytes 2 1 ++
  List.replicate 38 0 ++ leBytes 4 2257186729
/-- The image, with both check values. -/
def imageBytes1 : List Byte := imageHead1 ++ leBytes 4 2659433061 ++ imageBody1
/-- A device in a mode with that image in the staging area, in common memory. -/
def loader1 (m : Mode) : State := { State.reset with
  mode := m
  regs := [(Reg.MGT_LD_ADDR_LO, BitVec.ofNat 32 commonBase), (Reg.MGT_LD_ADDR_HI, BitVec.ofNat 32 (commonBase / 2 ^ 32)), (Reg.MGT_LD_LEN, 162),
    (Reg.MGT_LD_RPT_LO, 0x4000), (Reg.MGT_LD_RPT_HI, BitVec.ofNat 32 (commonBase / 2 ^ 32))]
  mem := (imageBytes1.zipIdx.filter (fun (e : Byte × Nat) => decide (e.1 ≠ 0))).map (fun (e : Byte × Nat) => (commonBase + e.2, e.1)) }
/-- In RUN, with threads and a live image of the same roles. -/
def loaderRun1 (staged : Bool) : State := { loader1 .run with
  fronds := [(0, { Frond.reset with imgLive := some { image1 with roles := List.replicate 16 ⟨0xAAAA, 0, false, false, false⟩ }, staged := staged })]
  threads := (upTo 128).map (fun t => (t, { Thread.reset with role := .task })) }
/-- ControlRows: the loader accepts its image. -/
def State.loads1 (s : State) (cmd : Word) : Bool := match (s.setReg Reg.MGT_LD_CMD cmd).checkImage with | c => c.bad.isNone && c.image.isSome
/-- ControlRows: an image that passes the loader's checks, in LOAD, and in RUN, where the roles have to be those of the live image. -/
theorem test_hyp_image : (loader1 .load).loads1 1 = true ∧ (loader1 .load).loads1 2 = true ∧ (loaderRun1 false).loads1 2 = true ∧
    (loaderRun1 false).mode = .run := by decide +kernel
/-- ControlRows: a frond with an image staged, a tick to swap at and one that has passed, a swap armed; two modes that refuse. -/
theorem test_hyp_swapImage : ((loaderRun1 true).frond 0).staged = true ∧
    (let s := { loaderRun1 true with regs := [(Reg.MGT_SWAP_TICK_LO, 2)] }; s.tk.number.toNat + 2 ≤ s.reg64 Reg.MGT_SWAP_TICK_LO Reg.MGT_SWAP_TICK_HI % 2 ^ 48) ∧
    (let s := { loaderRun1 true with regs := [(Reg.MGT_SWAP_TICK_LO, 1)] }; s.reg64 Reg.MGT_SWAP_TICK_LO Reg.MGT_SWAP_TICK_HI % 2 ^ 48 < s.tk.number.toNat + 2) ∧
    (∀ f < 16, ((regs1 []).frond f).staged = false) ∧ ({ regs1 [] with swapArm := some 5 } : State).swapArm.isSome = true ∧ (regs1 []).swapArm = none ∧
    State.reset.mode ≠ .load ∧ State.reset.mode ≠ .run := by decide +kernel
/-- The device in LOAD with core 0.3 resident and its threads of a role. -/
def resident1 (r : Role) : State := { load1 [] with
  cores := [(3, { CoreUnit.reset with resident := true })]
  threads := (upTo 8).map (fun k => (24 + k, { Thread.reset with role := r })) }
/-- ControlRows: a resident core whose threads are all TASK, and one where they are not. -/
theorem test_hyp_resident : (resident1 .task).residentCores = [3] ∧ (∀ t ∈ coreTids 3, ((resident1 .task).thr t).role = .task) ∧
    ¬ (∀ t ∈ coreTids 3, ((resident1 .packet).thr t).role = .task) ∧ (∀ f < 16, ((resident1 .task).frond f).services.testBit 0 = false) := by
  decide +kernel
/-- ControlRows: a bulk channel with commands; a ring with records held; board and DRAM settings; a mask that is no union of keep units. -/
theorem test_hyp_hostRows : ((host1 { BulkChan.reset with queue := [⟨true, 0, 0, 64, 0, 0, true⟩] } []).bulk 0).queue ≠ [] ∧
    (0xC0000004 : Word).getLsbD 30 = true ∧ ((0x11 : Word).toNat % 32 < 4 ∨ 16 < (0x11 : Word).toNat % 32) ∧ 3 < fld (0x80000400 : Word) 10 8 ∧
    ({ load1 [] with dc.board.mismatch := true } : State).dc.board.mismatch = true ∧ (load1 [(Reg.DRC_CFG, 0x80000300)]).regF Reg.DRC_CFG 10 8 = 3 ∧
    (load1 [(Reg.DRC_CFG, 0x80000300)]).regB Reg.DRC_CFG 31 = true ∧ (load1 []).chRetired 7 = false ∧ keepMaskOk 0x0055 = true ∧ keepMaskOk 0x0101 = false := by
  decide +kernel
/-- RegisterAccess: the host over a link that is up and one that is down; ends of the MSI-X table; the status offsets of the first and last channels; a service. -/
theorem test_hyp_access4 : (host1 BulkChan.reset []).hostSees .host = true ∧ (host1 BulkChan.reset []).hostSees .jtag = false ∧
    (regs1 []).hostSees .host = false ∧ (2047 : BitVec 14).toNat < 2048 ∧ 2048 ≤ (2048 : BitVec 14).toNat ∧ (5 : Word).toNat ≤ 5 ∧
    statusChan 0x1000 = some 1024 ∧ statusChan 0x4FC0 = some 1279 ∧ statusChan 0x1002000 = some 0 ∧ statusChan 0x1F02FC0 = some 1023 ∧ statusChan 0x1004 = none ∧
    0x1000 % 4 = 0 ∧ regRow 0x1000 = none ∧ 0x1000 < 0x1000000 := by decide +kernel
/-- RegisterAccess: each state of a host tag; the log of a channel with a second error held, and with none; a frond with its clock; an owner of JTAG. -/
theorem test_hyp_tags :
    let s (x : TagState) := { regs1 [] with fronds := [(15, { Frond.reset with hostTags := [(15, x)] })] }
    (∀ x ∈ [TagState.free, .queued, .started, .done 7], Sparse.get (fun _ => TagState.free) ((s x).frond 15).hostTags 15 = x) ∧
      ((s .queued).frond 15).gated = false ∧ ((s .queued).frond 15).pllOff = false ∧ Sparse.get (fun _ => []) (regs1 []).dc.elogs 7 = [] ∧
      Sparse.get (fun _ => []) ({ regs1 [] with dc := { DramUnit.reset with elogs := [(7, [1, 2, 3])] } } : State).dc.elogs 7 = [1, 2, 3] ∧
      (regs1 []).jtagShut .jtag = false := by decide +kernel
/-- TimeBaseResults: the host before and the service after the time service is loaded; steps beyond both ends; a slew that ends and one that does not; pulses. -/
theorem test_hyp_steps :
    let at_ (n : DWord) : State := { load1 [] with tb := { TimeBase.reset with now := n } }
    0 ≤ ((at_ 1).tb.now.toNat : Int) + (pair (0xFFFFFFFF : Word) 0xFFFFFFFF).toInt ∧ ((at_ 0).tb.now.toNat : Int) + (pair (0xFFFFFFFF : Word) 0xFFFFFFFF).toInt < 0 ∧
      2 ^ 64 ≤ ((at_ 0xFFFFFFFFFFFFFFFF).tb.now.toNat : Int) + (pair (1 : Word) 0).toInt ∧ (load1 [(Reg.PTP_CTRL, 1)]).regB Reg.PTP_CTRL 0 = true ∧
      (({ load1 [] with tb := { TimeBase.reset with slew := 1, tickHigh := some 5, ppsHigh := some 3 } } : State).advanceTo 0).tb.slew = 1 := by decide +kernel
/-- TimeBaseResults: a slew of 1 ns at the greatest rate ends within a second. -/
theorem test_hyp_slewEnds :
    let s : State := { load1 [] with tb := { TimeBase.reset with slew := 1 } }
    s.tb.slew ≠ 0 ∧ (s.advanceTo 1000000000).tb.slew = 0 := by decide +kernel
/-- A request datagram of a payload from 10.0.0.1, port 7, to the service address 10.0.0.2, port 9. -/
def trpFrame1 (data : List Byte) : List Byte := List.replicate 12 0 ++ [8, 0, 0x45] ++ List.replicate 8 0 ++ [17, 0, 0, 10, 0, 0, 1, 10, 0, 0, 2, 0, 7, 0, 9] ++
  beBytes 2 (data.length + 8) ++ [0, 0] ++ data
/-- A request of a type, a count, a token and a body (Table 15-9). -/
def trpData1 (type count token : Nat) (body : List Byte) : List Byte :=
  [0x54, 0x52, 1, BitVec.ofNat 8 type, 0, 0] ++ leBytes 2 count ++ [0, 0, 0, 0] ++ leBytes 4 token ++ body
/-- A state with the trend service loaded, one client of an MTU, and a request waiting. -/
def trp1 (mtu : Nat) (cursors : Sparse Cursor) (data : List Byte) : State := { mac2 { Frond.reset with services := 7 } (thr1 []) with
  chans := [(1024, { Channel.reset with msgs := [[0, BitVec.ofNat 32 (trpFrame1 data).length, 0, 0, 0, 0, 0, 0, 0x220E0C, 0, 0x1000000, 0, 0, 0, 0, 0]] })]
  recs := [(recKey .svc 0 0, 3), (recKey .svc 0 3, 0x0A000002), (recKey .client 0 0, 0x200001), (recKey .client 0 1, BitVec.ofNat 32 (mtu * 65536)),
    (recKey .client 0 4, 0x0100000A)]
  regs := [(Reg.PEAT_TRP_CFG0, 0x10009), (Reg.PEAT_TRP_CFG1, 0x80000000), (Reg.DSP_SLOW_CFG, 0xFC00), (Reg.BPM_CFG 63, 0x80000007), (Reg.BPM_BASE_HI 63, 0x8010),
    (Reg.BPM_COUNT 63, 1)]
  mem := ((trpFrame1 data).zipIdx.filter (fun (e : Byte × Nat) => decide (e.1 ≠ 0))).map (fun (e : Byte × Nat) => (commonBase + e.2, e.1))
  pt := { PeatUnit.reset with cursors := cursors } }
/-- An ARP frame of an operation for 10.0.0.2. -/
def arpFrame1 (op : Byte) : List Byte := List.replicate 12 0 ++ [8, 6, 0, 1, 8, 0, 6, 4, 0, op] ++ List.replicate 16 0 ++ [10, 0, 0, 2] ++ List.replicate 18 0
/-- A device with the responder loaded, the address 10.0.0.2 on port 0, and that frame waiting. -/
def resp1 (fr : List Byte) : State := { port1 Switch.reset [(Reg.DSP_SLOW_CFG, 0xFC00), (Reg.BPM_CFG 63, 0x80000007), (Reg.BPM_BASE_HI 63, 0x8010),
    (Reg.BPM_COUNT 63, 1), (Reg.EGR_XP_L 64, 0x80000000)] with
  threads := [(0, thr1 [])]
  fronds := [(0, { Frond.reset with services := 7 })]
  chans := [(0, { Channel.reset with msgs := [[0, 0x40, 0, 0, 0, 0, 0, 0, 0x0E0C, 0, 0x1000000, 0, 0, 0, 0, 0]] })]
  recs := [(recKey .svc 0 0, 3), (recKey .svc 0 3, 0x0A000002)]
  mem := (fr.zipIdx.filter (fun (e : Byte × Nat) => decide (e.1 ≠ 0))).map (fun (e : Byte × Nat) => (commonBase + e.2, e.1)) }
/-- EngineResults: the responder answers a request for its address, with room in the port's queue. -/
theorem test_hyp_responder : ((resp1 (arpFrame1 1)).service 0 2 = true ∧ (resp1 (arpFrame1 1)).mode.threadsRun = true) ∧
    (match (resp1 (arpFrame1 1)).takeMsg 0 with
      | some (m, x) => (match x.draw.2.answer (x.slowRec m) x.draw.1.toNat with
        | some (b, arp) => arp && !x.emitFull (cellsOf b.length) && (x.queuePort (512 + (x.slowRec m).lport * 8 + x.regF Reg.SIG_SVC_CFG 19 17)).isSome
        | none => false)
      | none => false) = true := by decide +kernel
/-- What a trend request finds: its frame, the client, the check, the token, whether a response leaves more, and the cursor it names. -/
def State.trend1 (s : State) : Option (Option Nat × Option (Nat × Nat × Bool × Cursor × TrpReq)) :=
  match s.takeMsg 1024 with
  | some (m, x) => (let r := x.slowRec m
    let y := x.freeRec r
    (x.trpDatagram r).map (fun d => (y.client d.2.1 d.2.2.1, (y.client d.2.1 d.2.2.1).map (fun j =>
      let z := (y.padHead d.2.2.2.2).2
      let q : TrpReq := ⟨d.1, j, d.2.1, d.2.2.1, d.2.2.2.1, (y.padHead d.2.2.2.2).1, d.2.2.2.2.length, r.lport⟩
      let part := z.trpPart [] q.type q.body (trpStart q.type q.body) true (z.trpCap q)
      (z.trpCheck q, q.token, part.2.next.isSome, z.cursor (q.token / 2 ^ 27), q)))))
  | none => none
/-- Cursor 0 held by the client for requests of type 1. -/
def cursor1 (gen : Nat) : Cursor := { Cursor.reset with used := true, addr := [10, 0, 0, 1], port := 7, type := 1, gen := gen }
/-- EngineResults: the trend service runs; a request that fits one response, and one that needs a cursor, of 32 one free or none. -/
theorem test_hyp_trend :
    let s := trp1 576 [] (trpData1 1 1 0 [5, 0, 0, 0])
    let u := trp1 68 [] (trpData1 1 2 0 [5, 0, 0, 0, 6, 0, 0, 0])
    let all := (upTo 32).map (fun i => (i, cursor1 0))
    s.serviceUp 1 = true ∧ s.pt.reply = none ∧
      s.trend1.map (fun a => a.2.map (fun b => (b.1, b.2.1, b.2.2.1))) = some (some (0, 0, false)) ∧
      u.trend1.map (fun a => a.2.map (fun b => (b.1, b.2.1, b.2.2.1))) = some (some (0, 0, true)) ∧
      (upTo 32).find? (fun i => !(u.cursor i).used) = some 0 ∧
      (∀ i < 32, ((trp1 68 all []).cursor i).used = true) := by decide +kernel
/-- EngineResults: requests that continue the client's cursor and one that is none of it; a sender that is no client; a bad request. -/
theorem test_hyp_trendToken :
    let s := trp1 68 [(0, cursor1 5)] (trpData1 1 0 5 [])
    let mine (q : TrpReq) (c : Cursor) := c.used && decide (c.addr = q.src ∧ c.port = q.port ∧ c.type = q.type)
    s.trend1.map (fun a => a.2.map (fun b => (b.1, b.2.1, mine b.2.2.2.2 b.2.2.2.1, b.2.2.2.1.gen))) = some (some (0, 5, true, 5)) ∧
      (trp1 68 [] (trpData1 1 0 5 [])).trend1.map (fun a => a.2.map (fun b => (b.1, b.2.1, mine b.2.2.2.2 b.2.2.2.1))) = some (some (0, 5, false)) ∧
      ({ s with recs := [(recKey .svc 0 0, 3), (recKey .svc 0 3, 0x0A000002)] } : State).trend1.map (fun a => a.1) = some none ∧
      ((trp1 576 [] (trpData1 9 0 5 [])).trend1.map (fun a => a.2.map (fun b => decide (b.1 ≠ 0)))) = some (some true) := by decide +kernel
/-- EngineResults: a publication that finds room, and one that finds none; a peat commit of a stream whose policy appends, and of one whose does not. -/
theorem test_hyp_publish :
    let s := { regs1 [(Reg.SWC_INJ, 0x00100010)] with sg := { SigUnit.reset with built := [⟨0, 5, 1, 4, 0, List.replicate 64 3, [], true⟩] } }
    let b : Built := ⟨0, 5, 1, 4, 0, List.replicate 64 3, [], true⟩
    s.sg.built = [b] ∧ s.injectRoom (cellsOf b.finish.length) = true ∧ ({ s with regs := [(Reg.SWC_INJ, 0)] } : State).injectRoom (cellsOf b.finish.length) = false ∧
      (let p := { regs1 [] with recs := [(recKey .policy 0 0, 1)], pt := { PeatUnit.reset with
        todo := [(0, 0), (5, 1)]
        streams := [(0, { PStream.reset with run := [1, 0, 5, 0, 0, 0, 0, 0] })] } }
       p.pt.todo = [(0, 0), (5, 1)] ∧ p.peatAppends 0 = false ∧ p.dramReady = false ∧ psCount (p.pstream 0).run = 5) ∧
      Sparse.wf (fun _ => { Sig.reset with old := true }) [(7, Sig.reset)] = true := by decide +kernel
/-- EngineResults: a response that waits for its queue, with room and without; a cursor at the end of its time and before it. -/
theorem test_hyp_reply :
    let s := { port1 Switch.reset [(Reg.PEAT_TRP_CFG1, 0x80000100), (Reg.SWC_INJ, 0x00100010)] with
      pt := { PeatUnit.reset with reply := some (List.replicate 64 0, 512), cursors := [(31, cursor1 0)] } }
    s.emitFull (cellsOf 64) = false ∧ (s.queuePort 512).isSome = true ∧ ({ s with regs := [(Reg.SWC_INJ, 0)] } : State).emitFull (cellsOf 64) = true ∧
      s.queuePort 5000 = none ∧ (s.cursor 31).issued.toNat + s.regF Reg.PEAT_TRP_CFG1 15 8 * 1000000000 ≤ ((s.advanceTo 1000000000).tb.now).toNat ∧
      ((s.advanceTo 999999999).tb.now).toNat < (s.cursor 31).issued.toNat + s.regF Reg.PEAT_TRP_CFG1 15 8 * 1000000000 ∧ (s.cursor 30).used = false := by
  decide +kernel
/-- Sequence recovery 65,535 with its timers at their ends, a record, and a state of the unit. -/
def frer1 (x : Frer) (w1 : Word) : State := { regs1 [(Reg.BLK_RNG_CFG 0, 0x80000004)] with
  host := { HostIf.reset with link := true, bme := true }
  ct := { StreamUnit.reset with frer := [(0xFFFF, x)] }
  recs := [(recKey .frer 0xFFFF 0, 0x00050B01), (recKey .frer 0xFFFF 1, w1), (recKey .frer 0xFFFF 2, 4)] }
/-- EngineResults: a latent period at its end, within the difference and beyond it, and the test's restart. -/
theorem test_hyp_latent :
    let x : Frer := { Frer.reset with exist := true, idle := 4, latAge := 5, resetAge := 3, passed := 9, discarded := 1 }
    let off (y : Frer) := ((y.discarded : Int) - (y.passed : Int) * (((frer1 y 0).recF .frer 0xFFFF 0 11 9 : Int) - 1)).natAbs
    (frer1 x 0x00050011).recF .frer 0xFFFF 0 8 8 = 1 ∧ (frer1 x 0x00050011).recF .frer 0xFFFF 1 31 16 ≤ x.latAge ∧
      off x ≤ 0x23 ∧ (frer1 x 0x00050023).recF .frer 0xFFFF 1 15 0 = 0x23 ∧ (frer1 x 0x00050003).recF .frer 0xFFFF 1 15 0 < off x ∧
      x.resetAge < (frer1 x 0).recF .frer 0xFFFF 2 15 0 ∧ (frer1 x 0).ringRoom 0 = true ∧ (frer1 x 0).recF .frer 0xFFFF 2 15 0 ≤ ({ x with resetAge := 4 } : Frer).resetAge ∧
      x.idle < (frer1 x 0).recF .frer 0xFFFF 0 31 16 ∧ x.latAge < (frer1 x 0x00060000).recF .frer 0xFFFF 1 31 16 := by decide +kernel
/-- TickControl: each start of the controller, one that runs, and a swap that is armed. -/
theorem test_hyp_tickStart : (load1 [(Reg.PTP_STATUS, 1)]).regB Reg.PTP_STATUS 0 = true ∧ (load1 []).regB Reg.PTP_STATUS 0 = false ∧
    (load1 [(Reg.TICK_CTRL, 4)]).srcPri = 1 ∧ (load1 [(Reg.TICK_CTRL, 0x20)]).srcFb = 2 ∧ (load1 [(Reg.TICK_CTRL, 1)]).regB Reg.TICK_CTRL 0 = true ∧
    ({ load1 [] with swapArm := some 4 } : State).swapArm.isSome = true ∧ (∃ e ∈ [(5, { Port.reset with armed := some 4 })], e.2.armed.isSome = true) ∧
    ({ load1 [] with cn := { ChainUnit.reset with head := false } } : State).cn.head = false := by decide +kernel
/-- A device on the chain in a state of its chain unit. -/
def chain1 (c : ChainUnit) : State := { regs1 [] with cn := c }
/-- The unit of the device at address 5, its input up. -/
def chain5 : ChainUnit := { ChainUnit.reset with
  head := false
  addr := some 5
  seqIn := some 0
  upSince := some 0 }
/-- ChainCopies: no correct copy; a repeated number; hops 32; an own frame that is under way and one that is not; a device without an address. -/
theorem test_hyp_chainCopies : (∀ b ∈ [false, false, false], b = false) ∧ (chain1 chain5).cn.seqIn = some 0 ∧ 31 < (32 : BitVec 6).toNat ∧
    (chain1 chain5).cn.addr = some 5 ∧ (CType.heartbeat.code, (0 : Half)) ∉ chain5.flying ∧
    (CType.heartbeat.code, (0 : Half)) ∈ [(CType.heartbeat.code, (0 : Half))] ∧ (chain1 { chain5 with addr := none }).cn.addr = none ∧ ChainUnit.reset.seqIn ≠ some 0 := by
  decide +kernel
/-- EnumerationResults: tokens 31, 32 and 5 on devices without an address and with address 5; the head with an ENUM under way and without. -/
theorem test_hyp_enum :
    let s := { chain1 { chain5 with head := true, enumAt := some 0 } with mode := .enumerate }
    (31 : Half).toNat % 256 ≤ 31 ∧ 31 < (32 : Half).toNat % 256 ∧ (0x105 : Half).getLsbD 8 = true ∧ s.cn.head = true ∧ s.cn.enumAt = some 0 ∧
      s.tb.now ≤ 0 + 1000000 ∧ s.mode = .enumerate ∧ s.mode ≠ .keep ∧ (CType.enum.code, (0 : Half)) ∉ s.cn.flying ∧
      (chain1 { chain5 with addr := none }).cn.addr = none ∧ (chain1 { chain5 with head := true }).cn.enumAt = none := by decide +kernel
/-- ChainMessages: 15 and 16 messages outstanding; headers of each type; a thread's message, well formed and not; an expired tag. -/
theorem test_hyp_messages :
    let o (n : Nat) : List OutMsg := (upTo n).map (fun i => ⟨BitVec.ofNat 16 (i + 9), true, 0, 31, false, 0⟩)
    let s := { regs1 [(Reg.CHN_CFG, 0x101)] with chans := [(1025, { Channel.reset with msgs := [List.replicate 9 0x00030500] })], cn := chain5 }
    (o 15).length < 16 ∧ 16 ≤ (o 16).length ∧ (o 16).find? (fun m => decide (m.tag = 24)) = some ⟨24, true, 0, 31, false, 0⟩ ∧
      (∀ m ∈ o 16, m.tag ≠ 25) ∧ fld (0x00030501 : Word) 2 0 = 1 ∧ fld (0x00030502 : Word) 2 0 = 2 ∧ fld (0x00030500 : Word) 2 0 = 0 ∧
      (s.chan (1024 + s.regF Reg.CHN_CFG 15 8)).msgs = [List.replicate 9 0x00030500] ∧ s.regB Reg.CHN_CFG 0 = true ∧
      (0x01032500 : Word) &&& 0xC0FF = 0 ∧ (0x00030501 : Word) &&& 0xC0FF ≠ 0 ∧ (9 : Half) ∈ [(9 : Half)] := by decide +kernel
/-- ChainNotices: an own notice under way; a log with 7 and 8 entries; a foreign ABORT of a unit for this device, for another, with a wrong key; a link heard of
8 µs ago. -/
theorem test_hyp_notices :
    let lo : Word := 1
    let s := chain1 { chain5 with flying := [(4, 0)], replLog := List.replicate 7 (1, 2), lastRx := 1, lastTx := 1 }
    (CType.abort.code, (0 : Half)) ∉ chain5.flying ∧ s.cn.replLog.length < 8 ∧ 8 ≤ (List.replicate 8 ((1 : BitVec 5), (2 : Half))).length ∧
      abortExists (fld lo 3 0) (fld lo 15 4) = true ∧ ¬ abortExists 15 0 = true ∧ fld (0x055A : Word) 12 8 = 5 ∧ (0x205A : Word).getLsbD 13 = true ∧
      fld (0x0500 : Word) 7 0 ≠ 0x5A ∧ ¬ ((0x045A : Word).getLsbD 13 = true ∨ fld (0x045A : Word) 12 8 = 5) ∧ s.mode.acceptsReset = true ∧
      s.abortsAtOnce (fld lo 3 0) (fld lo 15 4) = false ∧ s.rs.waiting = [] ∧ s.rs.cur = none ∧ s.rs.waiting.length < 4 ∧
      ((aborts1 3).advanceTo 9).abortBusy = true := by decide +kernel
/-- ChainNotices: the heartbeat due and not; the input that breaks after 8 µs of silence, and comes up 100 µs later. -/
theorem test_hyp_links :
    let s := { chain1 { chain5 with lastRx := 99000 } with regs := [(Reg.TICK_CTRL, 5)], tk := { TickUnit.reset with started := some 0, last := some 0, active := 1 } }
    s.cn.addr.isSome = true ∧ s.cn.lastTx.toNat + 1000 ≤ (1000 : DWord).toNat ∧ (999 : DWord).toNat < s.cn.lastTx.toNat + 1000 ∧ s.cn.segHead = false ∧
      ¬ (107000 : DWord).toNat < s.cn.lastRx.toNat + 8000 ∧ (106999 : DWord).toNat < s.cn.lastRx.toNat + 8000 ∧ s.tickRuns = true ∧ s.srcPri = 1 ∧
      s.cn.upSince = some 0 ∧ (0 : DWord).toNat + 100000 ≤ (100000 : DWord).toNat ∧ ChainUnit.reset.upSince = none := by decide +kernel
/-- The tick controller of `tick1` with its unit changed, and registers. -/
def tick2 (src act : Nat) (m : Mode) (r : Sparse Word) (f : TickUnit → TickUnit) : State := let s := tick1 src act m; { s with
  regs := [(Reg.TICK_CTRL, BitVec.ofNat 32 (1 + 4 * src)), (Reg.TICK_PERIOD, 500)] ++ r
  tk := f s.tk }
/-- BoundaryResults: a boundary before half a period has passed; the service's clock; holdover, at which a drain reaches its limit and the heartbeat has lapsed,
and where neither has. -/
theorem test_hyp_tickStates :
    let early := tick2 0 0 .run [] (fun k => { k with last := some 400000 })
    let drain := { tick2 2 3 .drain [(Reg.MGT_DRAIN_LIMIT, 1)] id with pt := { PeatUnit.reset with fifo := [⟨0, 0, 0, 0, 0, 0, 0, 0, false⟩] } }
    let hb := tick2 2 3 .run [(Reg.MGT_HB_TICKS, 1)] id
    early.halfAfter early.ptpAt = false ∧ early.tb.now.toNat ≤ early.ptpAt ∧ early.tk.active = 0 ∧ early.tk.leaving = false ∧
      (tick2 0 3 .run [(Reg.PTP_CTRL, 1)] id).regB Reg.PTP_CTRL 0 = true ∧ drain.tickRuns = true ∧ drain.tk.active = 3 ∧ drain.md.cmd = none ∧
      drain.md.entering = false ∧ drain.drained = false ∧ drain.regF Reg.MGT_DRAIN_LIMIT 15 0 ≤ drain.md.drainTicks + 1 ∧ hb.mode = .run ∧
      hb.md.hbWritten = false ∧ hb.regF Reg.MGT_HB_TICKS 15 0 ≠ 0 ∧ hb.regF Reg.MGT_HB_TICKS 15 0 ≤ hb.host.hbTicks + 1 ∧
      (tick2 2 3 .run [(Reg.MGT_HB_TICKS, 2)] id).host.hbTicks + 1 < 2 ∧ drain.regB Reg.PTP_CTRL 0 = false := by decide +kernel
/-- BoundaryResults: edges of TICK_IN: of the source in use, in and outside its window and inside the first span; of the source to change to, before and after half a
period; of a lost one; the window that closes on sources 1 and 2. -/
theorem test_hyp_edges :
    let first := tick2 2 2 .run [] (fun k => { k with last := none })
    let change := tick2 2 1 .run [] (fun k => { k with leaving := true })
    let lost := tick2 2 3 .run [] (fun k => { k with pri := { k.pri with lost := true } })
    (first.inSpan 0 = true ∧ first.inWindow 0 = true) ∧ (tick2 2 2 .run [] id).inSpan 250000 = true ∧ (tick2 2 2 .run [] id).inWindow 250000 = false ∧
      change.srcChoice = 2 ∧ change.tk.leaving = true ∧ change.halfAfter 250000 = true ∧ change.halfAfter 249999 = false ∧ change.tk.last ≠ some 1 ∧
      (change.source 2).lost = false ∧ (lost.source 2).lost = true ∧ lost.srcPri = 2 ∧ (tick1 2 2 .run).awaited = 2 ∧ (tick1 1 1 .run).awaited = 1 ∧
      (tick1 3 3 .run).awaited = 3 := by decide +kernel
/-- BoundaryResults: TICK frames: in and outside the window of a device in use of the chain, with another number; on the head; on a device of another source; an own
one; with 33 hops. -/
theorem test_hyp_ticks :
    let f : ChainFrame := ⟨31, false, 3, 1, 0, 0, 0, [1, 0, 0, 0, 0, 0]⟩
    let s := { tick1 1 1 .run with cn := chain5 }
    let arrives (t : DWord) := t.toNat - f.hops.toNat * 48 - s.regF Reg.CHN_TICKADJ 15 0
    f.hops.toNat ≤ 32 ∧ s.chainOwn f = false ∧ s.chainOwn { f with src := 5 } = true ∧ s.cn.head = false ∧ s.cn.segHead = false ∧ s.srcPri = 1 ∧
      (s.source 1).lost = false ∧ s.inWindow (arrives 500000) = true ∧ s.inWindow (arrives 250000) = false ∧ s.inSpan (arrives 250000) = true ∧
      leAt f.payload 0 6 ≠ s.tk.number.toNat ∧ (tick1 2 2 .run).srcPri ≠ 1 ∧ (tick1 2 2 .run).srcFb ≠ 1 ∧ ({ s with cn := { chain5 with head := true } } : State).cn.head = true ∧
      32 < ({ f with hops := 33 } : ChainFrame).hops.toNat := by decide +kernel
/-- StepRunsFront: no command waits; no thread may issue, and one may; a halfword that is no instruction and one that is. -/
theorem test_hyp_idle : (regs1 []).pending = [] ∧ (regs1 []).idle.issuers = [] ∧ (stk []).idle.issuers ≠ [] ∧
    decodeOpvis 0 ((stk []).code 0 ((stk []).thr 0).pc) ((stk []).code 0 (((stk []).thr 0).pc + 1)) = none ∧ (regs1 []).mode ≠ .enumerate ∧
    (regs1 []).rs.waiting = [] ∧ (regs1 []).tb.slew = 0 ∧ (regs1 []).reg Reg.PTP_FADJ = 0 ∧ (regs1 []).tb.frac < 2 ^ 40 ∧
    decodeOpvis 0 ({ stk [] with mem := [(iramBase 0 0 false + 201, 0x10)] }.code 0 100) 0 = some (.add 0 0) := by decide +kernel

/-! ### One step of an instruction -/

/-- The operand stack of thread 0.0.0 after one command. -/
def after (c : Instr) (s : State) : Option (List Word) := match exec c s with | .next u => some (u.thr 0).stack | _ => none
/-- The constant 0x8020_1234 takes LIT16 0x1234 and LITH 0x8020 (04, below R81). -/
theorem test_lit : after (.lit16 0 0 0x1234) (stk []) = some [0x1234] ∧ after (.lith 0 0 0x8020) (stk [0x1234]) = some [0x80201234] := by decide +kernel
/-- ADD wraps; SAR of a negative word by 32 gives −1, by 31 too; ABS of the most negative word is itself (Tables 04-4, 04-5). -/
theorem test_arith : after (.add 0 0) (stk [1, 0xFFFFFFFF]) = some [0] ∧ after (.sub 0 0) (stk [1, 0]) = some [0xFFFFFFFF] ∧
    after (.sar 0 0) (stk [32, 0x80000000]) = some [0xFFFFFFFF] ∧ after (.abs 0 0) (stk [0x80000000]) = some [0x80000000] ∧
    after (.mulh 0 0) (stk [0xFFFFFFFF, 2]) = some [0xFFFFFFFF] := by decide +kernel
/-- STD pops value and address, the address on top, and LDD pushes the high word last (03, Stack effects). -/
theorem test_pair : (match exec (.std 0 (.short 0)) (stk [0x100, 0x11223344, 0x55667788]) with
    | .next u => some (u.word (dmemBase 0 0 + 0x100), u.word (dmemBase 0 0 + 0x104))
    | _ => none) = some (0x55667788, 0x11223344) := by decide +kernel
/-- An empty queue lets 1 ns pass. -/
theorem test_idle : (match step State.reset with | .next u => some (u.tb.now, u.pending) | _ => none) = some (1, []) := by decide +kernel
/-- A write of the key 0xA5 to MGT_RESET leads back to ENUMERATE (R468). -/
theorem test_reset : (match exec (.mgtReset 0xA5) (stk [7]) with | .next u => some (u.mode, u.threads) | _ => none) = some (.enumerate, []) := by
  decide +kernel

end

end Sys2Proof.Machine
end

section
/-! SUPPORT. Access to registers (R3, R4, R425, R509 to R514): copies of a register, the rules of access, what a read and a write come to. -/

namespace Sys2Proof.Machine

/-! ### Copies of a register -/

theorem idxOf_eq_some_iff {off base n st i : Nat} (hs : 0 < st) :
    idxOf off base n st = some i ↔ off = base + i * st ∧ i < n := by
  simp only [idxOf, Option.ite_none_right_eq_some, Option.some.injEq]
  constructor
  · rintro ⟨⟨hb, hm, hn⟩, rfl⟩
    have := Nat.div_mul_cancel (Nat.dvd_of_mod_eq_zero hm)
    exact ⟨by omega, hn⟩
  · rintro ⟨rfl, hn⟩
    simp [Nat.mul_div_cancel _ hs, hn]

theorem idxOf_copy {n st i : Nat} (base : Nat) (hs : 0 < st) (h : i < n) : idxOf (base + i * st) base n st = some i :=
  (idxOf_eq_some_iff hs).2 ⟨rfl, h⟩

theorem idxOf_eq_none {off base n st : Nat} (hs : 0 < st) (h : off < base ∨ base + n * st ≤ off) : idxOf off base n st = none := by
  refine Option.eq_none_iff_forall_ne_some.2 fun i hi => ?_
  obtain ⟨rfl, hn⟩ := (idxOf_eq_some_iff hs).1 hi
  have := Nat.mul_lt_mul_of_pos_right hn hs
  omega

theorem isReg_lt {off base n st : Nat} (hs : 0 < st) (h : isReg off base n st = true) : off < base + n * st := by
  refine Nat.lt_of_not_le fun hn => ?_
  rw [isReg, idxOf_eq_none hs (.inr hn)] at h
  exact Bool.false_ne_true h

/-! ### LO halves of pairs (R3) -/

/-- Every LO half lies in the blocks below the port pages. -/
theorem isLo_lt {off : Nat} (h : isLo off = true) : off < 0x200000 := by
  simp only [isLo, Bool.or_eq_true, List.contains_iff_mem] at h
  rcases h with ((((((((h | h) | h) | h) | h) | h) | h) | h) | h) | h
  · revert off
    decide
  all_goals exact Nat.lt_of_lt_of_le (isReg_lt (by decide) h) (by decide)

theorem isLo_eq_false {off : Nat} (h : 0x200000 ≤ off) : isLo off = false :=
  Bool.eq_false_iff.2 fun hl => Nat.not_lt.2 h (isLo_lt hl)

theorem isLo_elog2 {c : Nat} (hc : c < 8) : isLo (Reg.DRC_CH_ELOG2 c) = false := by
  revert c
  decide

section
variable (s : State)

/-! ### One register -/

@[simp] theorem State.reg_setReg (off : Nat) (v : Word) : (s.setReg off v).reg off = v := by
  simp [State.reg, State.setReg]

theorem State.reg_setReg_other {off q : Nat} (v : Word) (h : q ≠ off) : (s.setReg off v).reg q = s.reg q :=
  Sparse.get_set_other _ _ _ _ _ h

@[simp] theorem State.chan_setChan (k : Nat) (c : Channel) : (s.setChan k c).chan k = c := by
  simp [State.chan, State.setChan]

theorem State.chan_setChan_other {k j : Nat} (c : Channel) (h : j ≠ k) : (s.setChan k c).chan j = s.chan j :=
  Sparse.get_set_other _ _ _ _ _ h

/-- The VALID bit of a log, cleared as a field. -/
theorem setFld_bit31_zero (w : Word) : setFld w 31 31 0 = setBit w 31 false := by
  apply BitVec.eq_of_toNat_eq
  have hw := w.isLt
  have hr : (setBit w 31 false).toNat = w.toNat % 2 ^ 31 := by
    have hmask : ~~~(BitVec.ofNat 32 (2 ^ 31)) = BitVec.ofNat 32 (2 ^ 31 - 1) := by decide
    rw [setBit, if_neg Bool.false_ne_true, hmask, BitVec.toNat_and, BitVec.toNat_ofNat, Nat.mod_eq_of_lt (by decide),
      Nat.and_two_pow_sub_one_eq_mod]
  have hl : (setFld w 31 31 0).toNat = (w.toNat - w.toNat / 2 ^ 31 % 2 ^ 1 * 2 ^ 31 + 0 % 2 ^ 1 * 2 ^ 31) % 2 ^ 32 :=
    BitVec.toNat_ofNat _ 32
  omega

/-- A value that goes out with VALID of one register cleared. -/
theorem OnlyReg.of_clearValid (o : Nat) (x : Out) :
    let u := (s.setReg o (setBit (s.reg o) 31 false)).emit x
    OnlyReg { s with out := u.out } u o (setFld (s.reg o) 31 31 0) :=
  ⟨rfl, (s.reg_setReg _ _).trans (setFld_bit31_zero _).symm, fun _ h => s.reg_setReg_other _ h⟩

/-- A violation moves its counter and the queue of the violations, and nothing else. -/
theorem State.violate_eq (cause addr : Nat) (v : Word) : s.violate cause addr v = { s.bump Reg.BLK_VIOL_CNT with
    host := { s.host with viol := if s.host.viol.length < 16 then s.host.viol ++ [⟨cause, wd addr, v⟩] else s.host.viol } } := by
  by_cases h : s.host.viol.length < 16
  · rw [if_pos h]
    exact if_pos h
  · rw [if_neg h]
    exact if_neg h

theorem State.violated_violate (cause : Byte) (addr : Nat) (v : Word) :
    Violated s (s.violate cause.toNat addr v) cause (wd addr) v := by
  rw [State.violate_eq]
  exact ⟨rfl, s.reg_setReg _ _, fun _ ho => s.reg_setReg_other _ ho, rfl⟩

/-! ### The rules of access -/

theorem State.wakeReg_block {off : Nat} (h : off < 0x1000000) : s.wakeReg off = s := if_neg (Nat.not_le.2 h)

/-- A frond whose clock runs needs no wake. -/
theorem State.wakeFrond_clocked {f : Nat} (hg : (s.frond f).gated = false) (hp : (s.frond f).pllOff = false) : s.wakeFrond f = s := by
  simp [State.wakeFrond, hg, hp]

theorem State.wakeReg_clocked {f off : Nat} (hg : (s.frond f).gated = false) (hp : (s.frond f).pllOff = false)
    (hf : (off - 0x1000000) / 0x100000 = f) : s.wakeReg off = s := by
  simp [State.wakeReg, hf, s.wakeFrond_clocked hg hp]

/-- IPGATED shows in CORE_STATUS alone. -/
theorem State.ipGated_eq {off : Nat} (v : Word) (h : off < 0x1000000 ∨ off % 0x100000 < 0x40000 ∨ off % 0x800 ≠ 0) :
    s.ipGated off v = (s, v) :=
  if_neg (by omega)

theorem State.laneOfOther_block {off : Nat} (h : off < 0x200000) : s.laneOfOther off = false := by
  simp [State.laneOfOther, Nat.not_le.2 h]

/-! ### Writes -/

theorem State.writeReg_keep (p : Party) (off : Nat) (v : Word) (h : s.mode = .keep) : s.writeReg p off v = s := by
  simp [State.writeReg, h]

theorem State.writeReg_unreached {p : Party} {off : Nat} (v : Word) (h : s.reaches p off = false) : s.writeReg p off v = s := by
  simp [State.writeReg, h]

theorem State.writeReg_misaligned {p : Party} {off : Nat} (v : Word) (hm : s.mode ≠ .keep) (hr : s.reaches p off = true)
    (ha : off % 4 ≠ 0) : s.writeReg p off v = s.violate 1 off v := by
  simp [State.writeReg, hm, hr, ha]

theorem State.writeReg_noRow {p : Party} {off : Nat} (v : Word) (hm : s.mode ≠ .keep) (hr : s.reaches p off = true) (ha : off % 4 = 0)
    (hb : off < 0x1000000) (hn : regRow off = none) (hk : statusChan off = none) : s.writeReg p off v = s := by
  simp [State.writeReg, hm, hr, ha, hn, hk, s.wakeReg_block hb]

theorem State.writeReg_statusChan {p : Party} {off k : Nat} (v : Word) (hm : s.mode ≠ .keep) (hr : s.reaches p off = true) (ha : off % 4 = 0)
    (hb : off < 0x1000000) (hn : regRow off = none) (hk : statusChan off = some k) : s.writeReg p off v = s.chanStatus k v := by
  simp [State.writeReg, hm, hr, ha, hn, hk, s.wakeReg_block hb]

theorem State.writeReg_rwl {p : Party} {off : Nat} {r : RegRow} (v : Word) (hm : s.mode ≠ .keep) (hr : s.reaches p off = true)
    (ha : off % 4 = 0) (hb : off < 0x200000) (hrow : regRow off = some r) (hl : r.rwl ≠ 0) (hload : s.mode ≠ .load) :
    s.writeReg p off v = s.violate 2 off v := by
  simp [State.writeReg, hm, hr, ha, hrow, s.wakeReg_block (Nat.lt_trans hb (by decide)), s.laneOfOther_block hb, hl, hload]

/-- A write that no rule of access turns away takes its register's effect. -/
theorem State.writeReg_row {p : Party} {off : Nat} {r : RegRow} (v : Word) (hm : s.mode ≠ .keep) (hr : s.reaches p off = true)
    (ha : off % 4 = 0) (hb : off < 0x200000) (hrow : regRow off = some r) (hl : r.rwl ≠ 0 → s.mode = .load) (hbusy : s.busyReg off = false) :
    s.writeReg p off v = s.writeAt p r off v := by
  have hlocked : ¬ (r.rwl ≠ 0 ∧ s.mode ≠ .load) := fun h => h.2 (hl h.1)
  simp only [State.writeReg, hrow, s.wakeReg_block (Nat.lt_trans hb (by decide)), s.laneOfOther_block hb, hbusy, if_neg hlocked]
  simp [hm, hr, ha]

/-- A write of a register whose every bit takes the value written is a store of it. -/
theorem State.plainWrite_full {r : RegRow} (off : Nat) (v : Word) (hm : Nat.lor r.rw r.rwl = 0xFFFFFFFF) (hc : r.w1c = 0) :
    s.plainWrite r off v = s.setReg off v := by
  have hall : wd 0xFFFFFFFF = BitVec.allOnes 32 := rfl
  rw [State.plainWrite, hm, hc, hall]
  refine congrArg (s.setReg off) ?_
  ext i hi
  simp only [BitVec.getElem_and, BitVec.getElem_or, BitVec.getElem_not, BitVec.getElem_allOnes]
  simp

/-- TICK_PHASE, every bit of which is RWL, holds in LOAD what was written. -/
theorem State.writeReg_tickPhase (v : Word) (h : s.mode = .load) :
    s.writeReg .host Reg.TICK_PHASE v = s.setReg Reg.TICK_PHASE v := by
  have hm : s.mode ≠ .keep := by simp [h]
  have hbusy : s.busyReg Reg.TICK_PHASE = false := by
    have hentry : isReg Reg.TICK_PHASE (Reg.TBL_ENTRY 0) 8 4 = false := rfl
    have hjob : isReg Reg.TICK_PHASE (Reg.CHK_HJ_W 0) 7 4 = false := rfl
    have hcmd : decide (Reg.TICK_PHASE = Reg.TBL_CMD ∨ Reg.TICK_PHASE = Reg.TBL_INDEX ∨ Reg.TICK_PHASE = Reg.TBL_WALK ∨
      Reg.TICK_PHASE = Reg.TBL_AGE) = false := rfl
    simp [State.busyReg, hentry, hjob, hcmd]
  rw [s.writeReg_row (r := ⟨"TICK_PHASE", 0x20008, [], 0x0, 0, 0xFFFFFFFF, 0, 0, 0, .c⟩) v hm rfl rfl (by decide) rfl (fun _ => h) hbusy]
  exact s.plainWrite_full _ v rfl rfl

/-- A write of CH_STATUS moves the high-water mark of its channel and nothing else. -/
theorem State.chanStatus_result (k : Nat) (v : Word) :
    (s.chanStatus k v).chan k = { s.chan k with hwm := if v.getLsbD 31 then (s.chan k).msgs.length else (s.chan k).hwm } ∧
    (∀ j, j ≠ k → (s.chanStatus k v).chan j = s.chan j) ∧ (s.chanStatus k v).regs = s.regs := by
  cases e : v.getLsbD 31
  · simp only [State.chanStatus, bit, e, Bool.false_eq_true, if_false, implies_true, and_self]
  · simp only [State.chanStatus, bit, e, if_true]
    exact ⟨s.chan_setChan _ _, fun j h => s.chan_setChan_other _ h, rfl⟩

/-! ### Reads -/

theorem State.readReg_keep (p : Party) (off : Nat) (h : s.mode = .keep) : s.readReg p off = s := if_pos h

theorem State.readReg_misaligned (p : Party) {off : Nat} (hm : s.mode ≠ .keep) (ha : off % 4 ≠ 0) :
    s.readReg p off = (s.draw.2.violate 1 off s.draw.1).emit .unsupported := by
  simp [State.readReg, hm, ha]

theorem State.readReg_unreached {p : Party} {off : Nat} (hm : s.mode ≠ .keep) (ha : off % 4 = 0) (hr : s.reaches p off = false) :
    s.readReg p off = s.emit (.readData p 0) := by
  simp [State.readReg, hm, ha, hr]

/-- A read that needs no wake, of a register that is no LO half: its value goes out after its side effect. -/
theorem State.readReg_eq {p : Party} {off : Nat} (hm : s.mode ≠ .keep) (ha : off % 4 = 0) (hr : s.reaches p off = true)
    (hw : s.wakeReg off = s) (hg : off < 0x1000000 ∨ off % 0x100000 < 0x40000 ∨ off % 0x800 ≠ 0) (hl : isLo off = false) :
    s.readReg p off = (s.readEffect off).emit (.readData p (s.valueFor p off)) := by
  simp [State.readReg, hm, ha, hr, hw, hl, s.ipGated_eq _ hg]

theorem State.readReg_block {p : Party} {off : Nat} (hm : s.mode ≠ .keep) (ha : off % 4 = 0) (hr : s.reaches p off = true)
    (hb : off < 0x1000000) (hl : isLo off = false) :
    s.readReg p off = (s.readEffect off).emit (.readData p (s.valueFor p off)) :=
  s.readReg_eq hm ha hr (s.wakeReg_block hb) (.inl hb) hl

/-- A read of the LO half of a pair also latches its HI half. -/
theorem State.readReg_lo {p : Party} {off : Nat} (hm : s.mode ≠ .keep) (ha : off % 4 = 0) (hr : s.reaches p off = true) (hl : isLo off = true) :
    s.readReg p off = ((s.latchHi p off).readEffect off).emit (.readData p (s.valueFor p off)) := by
  have hb : off < 0x1000000 := Nat.lt_trans (isLo_lt hl) (by decide)
  simp [State.readReg, hm, ha, hr, hl, s.wakeReg_block hb, s.ipGated_eq _ (.inl hb)]

@[simp] theorem State.latched_latchHi (p : Party) (lo : Nat) : (s.latchHi p lo).latched p (lo + 4) = some (s.regWord (lo + 4)) := by
  simp [State.latched, State.latchHi]

/-! ### Side effects of reads (Table 23-3) -/

/-- A read of the LO half of a pair has none. -/
theorem State.readEffect_lo {off : Nat} (hl : isLo off = true) : s.readEffect off = s := by
  have ne {q : Nat} (hq : isLo q = false) : off ≠ q := by
    rintro rfl
    simp [hl] at hq
  have hlog : idxOf off (Reg.DRC_CH_ELOG2 0) 8 0x2000 = none := by
    refine Option.eq_none_iff_forall_ne_some.2 fun c hc => ?_
    obtain ⟨e, h8⟩ := (idxOf_eq_some_iff (by decide)).1 hc
    exact ne (isLo_elog2 h8) e
  have hb : off < 0x1000000 := Nat.lt_trans (isLo_lt hl) (by decide)
  simp [State.readEffect, hlog, hb, ne (q := Reg.TICK_OVR_LOG1) rfl, ne (q := Reg.PTP_TXTS_HI) rfl, ne (q := Reg.CHK_MLOG1 4) rfl,
    ne (q := Reg.RAS_LOG 4) rfl, ne (q := Reg.BLK_VIOL2) rfl, ne (q := Reg.CHN_REPL_LOG) rfl]

theorem State.readEffect_elog2 {c : Nat} (hc : c < 8) : s.readEffect (Reg.DRC_CH_ELOG2 c) = s.elogRead c := by
  have hi : idxOf (Reg.DRC_CH_ELOG2 c) (Reg.DRC_CH_ELOG2 0) 8 0x2000 = some c := idxOf_copy _ (by decide) hc
  have far : 0x1B0018 ≤ Reg.DRC_CH_ELOG2 c ∧ Reg.DRC_CH_ELOG2 c < 0x1000000 := by
    simp only [Reg.DRC_CH_ELOG2]
    omega
  have ne {q : Nat} (hq : q < 0x1B0018) : Reg.DRC_CH_ELOG2 c ≠ q := by omega
  simp [State.readEffect, hi, far.2, ne (q := Reg.TICK_OVR_LOG1) (by decide), ne (q := Reg.PTP_TXTS_HI) (by decide),
    ne (q := Reg.CHK_MLOG1 4) (by decide), ne (q := Reg.RAS_LOG 4) (by decide), ne (q := Reg.BLK_VIOL2) (by decide),
    ne (q := Reg.CHN_REPL_LOG) (by decide)]

/-- None of the device's registers with a side effect is a frond's. -/
theorem State.readEffect_frond {off f : Nat} (h : 0x1000000 ≤ off) (hf : (off - 0x1000000) / 0x100000 = f) :
    (∀ c, idxOf off (Reg.CORE_FAULT_LAST1 f 0) 17 0x800 = some c →
      s.readEffect off = s.setReg (Reg.CORE_FAULT_LAST0 f c) (setBit (s.reg (Reg.CORE_FAULT_LAST0 f c)) 31 false)) ∧
    (∀ i, idxOf off (Reg.CORE_FAULT_LAST1 f 0) 17 0x800 = none → idxOf off (Reg.FRD_CQ_HTAG f 0) 16 4 = some i →
      s.readEffect off = s.hostTagTake f i) := by
  have ne {q : Nat} (hq : q < 0x1000000) : off ≠ q := by omega
  simp only [State.readEffect, hf, Nat.not_lt.2 h, ne (q := Reg.TICK_OVR_LOG1) (by decide), ne (q := Reg.PTP_TXTS_HI) (by decide),
    ne (q := Reg.CHK_MLOG1 4) (by decide), ne (q := Reg.RAS_LOG 4) (by decide), ne (q := Reg.BLK_VIOL2) (by decide),
    ne (q := Reg.CHN_REPL_LOG) (by decide), if_false]
  exact ⟨fun c hc => by rw [hc], fun i hn hi => by rw [hn, hi]⟩

theorem State.readEffect_coreFaultLast1 (f : Nat) {c : Nat} (hc : c < 17) : s.readEffect (Reg.CORE_FAULT_LAST1 f c) =
    s.setReg (Reg.CORE_FAULT_LAST0 f c) (setBit (s.reg (Reg.CORE_FAULT_LAST0 f c)) 31 false) := by
  have hcopy : Reg.CORE_FAULT_LAST1 f c = Reg.CORE_FAULT_LAST1 f 0 + c * 0x800 := by
    simp only [Reg.CORE_FAULT_LAST1]
    omega
  refine (s.readEffect_frond (f := f) ?_ ?_).1 c (by rw [hcopy]; exact idxOf_copy _ (by decide) hc) <;> simp only [Reg.CORE_FAULT_LAST1] <;> omega

theorem idxOf_htag (f : Nat) {i : Nat} (hi : i < 16) : idxOf (Reg.FRD_CQ_HTAG f i) (Reg.FRD_CQ_HTAG f 0) 16 4 = some i := by
  have hcopy : Reg.FRD_CQ_HTAG f i = Reg.FRD_CQ_HTAG f 0 + i * 4 := by
    simp only [Reg.FRD_CQ_HTAG]
    omega
  rw [hcopy]
  exact idxOf_copy _ (by decide) hi

theorem State.readEffect_htag (f : Nat) {i : Nat} (hi : i < 16) : s.readEffect (Reg.FRD_CQ_HTAG f i) = s.hostTagTake f i := by
  refine (s.readEffect_frond (f := f) ?_ ?_).2 i (idxOf_eq_none (by decide) (.inl ?_)) (idxOf_htag f hi) <;>
    simp only [Reg.FRD_CQ_HTAG, Reg.CORE_FAULT_LAST1] <;> omega

@[simp] theorem State.showElog_dc (c : Nat) (w : List Word) : (s.showElog c w).dc = s.dc := rfl

/-- The error of the other kind, held back, shows in the log; without one VALID falls (R404). -/
theorem State.elogRead_held {c : Nat} {w : List Word} (h : Sparse.get (fun _ => []) s.dc.elogs c = w) (hw : w ≠ []) :
    (∀ k < 3, (s.elogRead c).reg (Reg.DRC_CH_ELOG0 c + 4 * k) = nth 0 w k) ∧ Sparse.get (fun _ => []) (s.elogRead c).dc.elogs c = [] := by
  have he : w.isEmpty = false := by simpa using hw
  simp only [State.elogRead, h, he, Bool.false_eq_true, if_false]
  refine ⟨fun k hk => ?_, by rw [State.showElog_dc, Sparse.get_set_self]⟩
  have h3 : upTo 3 = [0, 1, 2] := rfl
  simp only [State.showElog, h3, List.foldl_cons, List.foldl_nil]
  obtain rfl | rfl | rfl : k = 0 ∨ k = 1 ∨ k = 2 := by omega
  · rw [State.reg_setReg_other _ _ (by omega), State.reg_setReg_other _ _ (by omega), State.reg_setReg]
  · rw [State.reg_setReg_other _ _ (by omega), State.reg_setReg]
  · rw [State.reg_setReg]

theorem State.elogRead_single {c : Nat} (h : Sparse.get (fun _ => []) s.dc.elogs c = []) :
    s.elogRead c = s.setReg (Reg.DRC_CH_ELOG0 c) (setBit (s.reg (Reg.DRC_CH_ELOG0 c)) 31 false) := by
  simp [State.elogRead, h]

/-! ### Host tags as read (R222) -/

theorem State.windowAt_frond {off : Nat} (h : 0x1A0000 ≤ off) : s.windowAt off = none := by
  simp only [State.windowAt]
  rw [if_neg (by omega), if_neg (by omega), if_neg (by omega), if_neg (by omega), if_neg (by omega), if_neg (by omega), if_neg (by omega)]

theorem State.regWord_frond {off : Nat} (h : 0x1000000 ≤ off) : s.regWord off = s.readFrd off := by
  have below {k : Nat} (hk : k ≤ 0x1000000) : ¬ off < k := by omega
  simp [State.regWord, s.windowAt_frond (off := off) (by omega), below]

theorem State.valueFor_htag (p : Party) (f : Nat) {i : Nat} (hi : i < 16) : s.valueFor p (Reg.FRD_CQ_HTAG f i) = s.hostTagWord f i := by
  have hlo : isLo (Reg.FRD_CQ_HTAG f i - 4) = false := isLo_eq_false (by simp only [Reg.FRD_CQ_HTAG]; omega)
  have hf : (Reg.FRD_CQ_HTAG f i - 0x1000000) / 0x100000 = f := by simp only [Reg.FRD_CQ_HTAG]; omega
  have ho : Reg.FRD_CQ_HTAG f i % 0x100000 = 0x5080 + i * 4 := by simp only [Reg.FRD_CQ_HTAG]; omega
  have hlvl : idxOf (Reg.FRD_CQ_HTAG f i) (Reg.FRD_TSK_LVL f 0) 32 4 = none :=
    idxOf_eq_none (by decide) (.inr (by simp only [Reg.FRD_CQ_HTAG, Reg.FRD_TSK_LVL]; omega))
  have hq : idxOf (Reg.FRD_CQ_HTAG f i) (Reg.FRD_CQ_LVL f 0) 5 4 = none :=
    idxOf_eq_none (by decide) (.inr (by simp only [Reg.FRD_CQ_HTAG, Reg.FRD_CQ_LVL]; omega))
  have hread : s.readFrd (Reg.FRD_CQ_HTAG f i) = s.hostTagWord f i := by
    simp only [State.readFrd, hf, ho, hlvl, hq, idxOf_htag f hi]
    rw [if_neg (by omega), if_neg (by omega), if_neg (by omega)]
  simp only [State.valueFor, hlo, Bool.false_eq_true, false_and, if_false]
  rw [s.regWord_frond (by simp only [Reg.FRD_CQ_HTAG]; omega), hread]

end
end Sys2Proof.Machine
end

section
/-! SUPPORT. The host's configuration space and BAR4 (R422 to R424, R437): what rings, channels and messages that go on leave alone, and the
MSI-X table as read and written. -/

namespace Sys2Proof.Machine
section
variable (s : State)

/-! ### Bus Master Enable -/

@[simp] theorem State.setBulk_bme (c : Nat) (x : BulkChan) : (s.setBulk c x).host.bme = s.host.bme := rfl

@[simp] theorem State.ringPost_bme (r : Nat) (mk : Word → List Byte) : (s.ringPost r mk).host.bme = s.host.bme := by
  simp only [State.ringPost]
  split
  · split <;> rfl
  · rfl

@[simp] theorem State.ringDrainHeld_bme (r n : Nat) : (s.ringDrainHeld r n).host.bme = s.host.bme := by
  induction n generalizing s with
  | zero => rfl
  | succ n ih =>
    simp only [State.ringDrainHeld]
    split
    · rfl
    · split
      · rw [ih]
        rfl
      · rfl

@[simp] theorem State.wakeFrond_host (f : Nat) : (s.wakeFrond f).host = s.host := by
  simp only [State.wakeFrond]
  repeat' split
  all_goals rfl

@[simp] theorem State.wakeAt_host (a : Nat) : (s.wakeAt a).host = s.host := by
  simp only [State.wakeAt]
  split
  · exact s.wakeFrond_host _
  · rfl

@[simp] theorem State.violate_bme (cause addr : Nat) (v : Word) : (s.violate cause addr v).host.bme = s.host.bme := by
  simp only [State.violate]
  split <;> rfl

@[simp] theorem State.pullRefused_bme (c a n : Nat) : (s.pullRefused c a n).host.bme = s.host.bme := by
  simp only [State.pullRefused]
  split
  · exact State.violate_bme _ _ _ _
  · rfl

@[simp] theorem State.bulkFinish_bme (c status : Nat) : (s.bulkFinish c status).host.bme = s.host.bme := by
  simp only [State.bulkFinish]
  split
  · rfl
  · rw [State.ringPost_bme]
    rfl

@[simp] theorem State.pushTlps_host (dev host fuel left : Nat) : (s.pushTlps dev host fuel left).host = s.host := by
  induction fuel generalizing s dev host left with
  | zero => rfl
  | succ fuel ih =>
    cases left with
    | zero => rfl
    | succ left => exact ih ..

/-- A PUSH that meets no uncorrectable error leaves Bus Master Enable alone. -/
@[simp] theorem State.pushRun_bme (c : Nat) (k : BulkCmd) : (s.pushRun c k none).host.bme = s.host.bme := by
  simp only [State.pushRun, Nat.lt_irrefl, if_false]
  split
  · exact s.bulkFinish_bme _ _
  · rw [State.bulkFinish_bme, State.setBulk_bme, State.pushTlps_host, State.wakeAt_host]

@[simp] theorem State.pullRequest_bme (c : Nat) : (s.pullRequest c).host.bme = s.host.bme := by
  simp only [State.pullRequest]
  split <;> rfl

@[simp] theorem State.bulkPump_bme (c n : Nat) : (s.bulkPump c none n).host.bme = s.host.bme := by
  induction n generalizing s with
  | zero => rfl
  | succ n ih =>
    simp only [State.bulkPump]
    split
    · rfl
    · split
      · rfl
      · split
        · rw [ih, State.pushRun_bme]
        · split
          · rw [ih, State.bulkFinish_bme, State.pullRefused_bme]
          · rw [State.pullRequest_bme]
            rfl

@[simp] theorem State.bulkTurns_bme (n : Nat) : (s.bulkTurns n).host.bme = s.host.bme := by
  induction n generalizing s with
  | zero => rfl
  | succ n ih =>
    simp only [State.bulkTurns]
    split
    · rfl
    · rw [ih, State.bulkPump_bme]

/-- Rings and channels that go on leave Bus Master Enable alone. -/
theorem State.hostResumes_bme : s.hostResumes.host.bme = s.host.bme := by
  have drained (l : List Nat) : ∀ x : State, (l.foldl (fun s r => s.ringDrainHeld r 256) x).host.bme = x.host.bme := by
    induction l with
    | nil => exact fun _ => rfl
    | cons r l ih => exact fun x => (ih _).trans (x.ringDrainHeld_bme r 256)
  rw [State.hostResumes, State.bulkPumpAll, State.bulkTurns_bme, drained]

theorem State.configWrite_busMaster (v : Word) : (s.configWrite .busMaster v).host.bme = v.getLsbD 0 := by
  rw [State.configWrite, State.hostResumes_bme]
  rfl

/-! ### The MSI-X table -/

theorem lo32_eq (d : DWord) : lo32 d = d.extractLsb' 0 32 := by
  ext i hi
  simp [lo32]

theorem hi32_eq (d : DWord) : hi32 d = d.extractLsb' 32 32 := by
  ext i hi
  simp [hi32]

/-- A vector of the MSI-X table after a write of word i of its entry (R424). -/
def MsixVec.writeWord (x : MsixVec) (i : Nat) (v : Word) : MsixVec :=
  if i = 0 then { x with addr := x.addr.extractLsb' 32 32 ++ (v &&& 0xFFFFFFFC) }
  else if i = 1 then { x with addr := v ++ x.addr.extractLsb' 0 32 }
  else if i = 2 then { x with data := v }
  else { x with masked := v.getLsbD 0 }

/-- Word i of a vector's entry in the MSI-X table. -/
def MsixVec.word (x : MsixVec) (i : Nat) : Word :=
  if i = 0 then x.addr.extractLsb' 0 32 else if i = 1 then x.addr.extractLsb' 32 32
  else if i = 2 then x.data else if x.masked then 1 else 0

theorem State.bar4Read_table {dw : Nat} (h : dw < 2048) : s.bar4Read dw = (s.msixVec (dw / 4)).word (dw % 4) := by
  simp only [State.bar4Read, h, if_true, MsixVec.word, lo32_eq, hi32_eq]
  split <;> simp_all

theorem State.bar4Write_table {dw : Nat} (v : Word) (h : dw < 2048) : s.bar4Write dw v = State.msixFlush { s with
    host := { s.host with msi := { s.host.msi with
      vectors := Sparse.set (fun _ => MsixVec.reset) s.host.msi.vectors (dw / 4) ((s.msixVec (dw / 4)).writeWord (dw % 4) v) } } } := by
  simp only [State.bar4Write, h, if_true, MsixVec.writeWord, lo32_eq, hi32_eq]
  split <;> simp_all [bit, pair]

theorem State.msix_eq (v : Nat) : s.msix v = { s with
    host := { s.host with msi := { s.host.msi with pending := (s.msix v).host.msi.pending } }
    out := (s.msix v).out } := by
  simp only [State.msix]
  repeat' split
  all_goals rfl

/-- The messages that become free move the pending bits and go out; the table stands. -/
theorem State.msixFlush_eq : ∃ p o, s.msixFlush = { s with
    host := { s.host with msi := { s.host.msi with pending := p } }
    out := o } := by
  have sent (l : List Nat) : ∀ x : State, ∃ p o, l.foldl (fun s v => s.msix v) x = { x with
      host := { x.host with msi := { x.host.msi with pending := p } }
      out := o } := by
    induction l with
    | nil => exact fun x => ⟨_, _, rfl⟩
    | cons v l ih =>
      intro x
      obtain ⟨p, o, h⟩ := ih (x.msix v)
      refine ⟨p, o, ?_⟩
      rw [List.foldl_cons, h, x.msix_eq v]
  simp only [State.msixFlush]
  split
  · obtain ⟨p, o, h⟩ := sent (s.host.msi.pending.filter (fun v => s.msixOpen v))
      { s with host := { s.host with msi := { s.host.msi with pending := s.host.msi.pending.filter (fun v => !s.msixOpen v) } } }
    exact ⟨p, o, h⟩
  · exact ⟨_, _, rfl⟩

/-- A write of the MSI-X table moves the vector it lies in, and the pending bits and messages that it sets free. -/
theorem State.bar4Write_result {dw : Nat} (v : Word) (h : dw < 2048) :
    let u := s.bar4Write dw v
    u.regs = s.regs ∧ u.mem = s.mem ∧ u.threads = s.threads ∧ u.msixVec (dw / 4) = (s.msixVec (dw / 4)).writeWord (dw % 4) v ∧
      ∀ k, k ≠ dw / 4 → u.msixVec k = s.msixVec k := by
  obtain ⟨p, o, hu⟩ := State.msixFlush_eq { s with host := { s.host with msi := { s.host.msi with
    vectors := Sparse.set (fun _ => MsixVec.reset) s.host.msi.vectors (dw / 4) ((s.msixVec (dw / 4)).writeWord (dw % 4) v) } } }
  intro u
  have he : u = _ := (s.bar4Write_table v h).trans hu
  rw [he]
  exact ⟨rfl, rfl, rfl, Sparse.get_set_self .., fun k hk => Sparse.get_set_other _ _ _ _ _ hk⟩

end
end Sys2Proof.Machine
end

section
/-! SUPPORT. RegisterAccess: the rows of register access, and the statement. -/

namespace Sys2Proof.Machine
section
variable {s u : State} {p : Party} {v : Word}

/-! ### The rows -/

theorem exec_registerWrite_bar0 {off : BitVec 25} (h : s.writeReg p off.toNat v = u) : exec (.registerWrite p (.bar0 off) v) s = .next u :=
  congrArg _ h

theorem exec_latchingPairRead_bar0 {off : BitVec 25} (h : s.readReg p off.toNat = u) : exec (.latchingPairRead p (.bar0 off)) s = .next u :=
  congrArg _ h

theorem exec_registerWrite_bar4 (dw : BitVec 14) (h : s.hostSees p = true) :
    exec (.registerWrite p (.bar4 dw) v) s = .next (s.bar4Write dw.toNat v) := congrArg _ (if_pos h)

theorem exec_registerWrite_config (i : CfgItem) (h : s.hostSees p = true) :
    exec (.registerWrite p (.config i) v) s = .next (s.configWrite i v) := congrArg _ (if_pos h)

theorem exec_latchingPairRead_bar4 (dw : BitVec 14) (h : s.hostSees p = true) :
    exec (.latchingPairRead p (.bar4 dw)) s = .next (s.emit (.readData p (s.bar4Read dw.toNat))) := congrArg _ (if_pos h)

theorem exec_latchingPairRead_config (i : CfgItem) (h : s.hostSees p = true) :
    exec (.latchingPairRead p (.config i)) s = .next (s.emit (.readData p (s.configRead i))) := congrArg _ (if_pos h)

/-- Without a link that is up neither the configuration space nor BAR4 is there. -/
theorem exec_access_unseen (dw : BitVec 14) (i : CfgItem) (h : s.hostSees p = false) :
    exec (.registerWrite p (.bar4 dw) v) s = .next s ∧ exec (.registerWrite p (.config i) v) s = .next s ∧
      exec (.latchingPairRead p (.bar4 dw)) s = .next s ∧ exec (.latchingPairRead p (.config i)) s = .next s := by
  have hn : ¬ s.hostSees p = true := by simp [h]
  exact ⟨congrArg _ (if_neg hn), congrArg _ (if_neg hn), congrArg _ (if_neg hn), congrArg _ (if_neg hn)⟩

/-! ### Accesses turned away -/

theorem registerWrite_misaligned {off : BitVec 25} (hm : s.mode ≠ .keep) (ha : off.toNat % 4 ≠ 0) :
    Gives (.registerWrite .host (.bar0 off) v) s fun u => Violated s u 1 (BitVec.ofNat 32 off.toNat) v :=
  ⟨_, exec_registerWrite_bar0 (s.writeReg_misaligned v hm rfl ha), s.violated_violate 1 off.toNat v⟩

theorem latchingPairRead_misaligned {off : BitVec 25} (hm : s.mode ≠ .keep) (ha : off.toNat % 4 ≠ 0) :
    Gives (.latchingPairRead .host (.bar0 off)) s fun u => u.out = .unsupported :: s.out ∧
      ∃ x, Violated { s with draws := u.draws } { u with out := s.out } 1 (BitVec.ofNat 32 off.toNat) x := by
  refine ⟨_, exec_latchingPairRead_bar0 (s.readReg_misaligned .host hm ha), ?_⟩
  have hv := s.draw.2.violated_violate 1 off.toNat s.draw.1
  rw [State.violate_eq] at hv ⊢
  exact ⟨rfl, s.draw.1, hv⟩

theorem registerWrite_rwl {off : BitVec 25} {r : RegRow} (hm : s.mode ≠ .keep) (ha : off.toNat % 4 = 0)
    (hb : off.toNat < 0x200000) (hrow : regRow off.toNat = some r) (hl : r.rwl ≠ 0) (hload : s.mode ≠ .load) :
    Gives (.registerWrite .host (.bar0 off) v) s fun u => Violated s u 2 (BitVec.ofNat 32 off.toNat) v :=
  ⟨_, exec_registerWrite_bar0 (s.writeReg_rwl v hm rfl ha hb hrow hl hload), s.violated_violate 2 off.toNat v⟩

/-! ### Reads that take their value with them -/

/-- The row of a read of a device register that is no LO half: after the side effect x the value goes out. -/
theorem exec_read_block {i : Instr} {off : Nat} (hi : exec i s = .next (s.readReg p off)) (hm : s.mode ≠ .keep) (ha : off % 4 = 0)
    (hr : s.reaches p off = true) (hb : off < 0x1000000) (hl : isLo off = false) :
    exec i s = .next ((s.readEffect off).emit (.readData p (s.valueFor p off))) := by
  rw [hi, s.readReg_block hm ha hr hb hl]

theorem latchingPairRead_lo {off : BitVec 25} (hm : s.mode ≠ .keep) (ha : off.toNat % 4 = 0) (hl : isLo off.toNat = true) :
    Gives (.latchingPairRead .host (.bar0 off)) s fun u => u.out.head? = some (.readData .host (s.valueFor .host off.toNat)) ∧
      u.latched .host (off.toNat + 4) = some (s.regWord (off.toNat + 4)) ∧ u.regs = s.regs ∧ u.mem = s.mem ∧ u.threads = s.threads := by
  refine ⟨_, exec_latchingPairRead_bar0 (s.readReg_lo hm ha rfl hl), ?_⟩
  rw [State.readEffect_lo _ hl]
  exact ⟨rfl, s.latched_latchHi .host off.toNat, rfl, rfl, rfl⟩

/-- A read of RAS_LOG4 removes the oldest record; what else it moves is what goes out. -/
theorem State.rasPop_eq (s : State) : s.rasPop = { s with ras := s.ras.drop 1, out := s.rasPop.out } := by
  simp only [State.rasPop, State.alertPin]
  split <;> rfl

theorem rasLog4_pops (hm : s.mode ≠ .keep) (hr : s.reaches p (Reg.RAS_LOG 4) = true) :
    Gives (.rasLog4 p) s fun u => u.out.head? = some (.readData p (s.valueFor p (Reg.RAS_LOG 4))) ∧
      u = { s with ras := s.ras.drop 1, out := u.out } := by
  refine ⟨_, exec_read_block rfl hm rfl hr (by decide) rfl, rfl, ?_⟩
  exact congrArg (fun x : State => x.emit (.readData p (s.valueFor p (Reg.RAS_LOG 4)))) s.rasPop_eq

/-- A read of the fault log of a core whose frond's clock runs clears VALID. -/
theorem coreFaultLast1_clears {f : Fin 16} (c : Fin 17) (hm : s.mode ≠ .keep) (hg : (s.frond f.val).gated = false)
    (hp : (s.frond f.val).pllOff = false) :
    Gives (.coreFaultLast1 f c) s fun u =>
      u.out.head? = some (.readData .host (s.valueFor .host (Reg.CORE_FAULT_LAST1 f.val c.val))) ∧
      OnlyReg { s with out := u.out } u (Reg.CORE_FAULT_LAST0 f.val c.val) (setFld (s.reg (Reg.CORE_FAULT_LAST0 f.val c.val)) 31 31 0) := by
  have hoff : Reg.CORE_FAULT_LAST1 f.val c.val = 0x1040010 + f.val * 0x100000 + c.val * 0x800 := rfl
  have hw := s.wakeReg_clocked (off := Reg.CORE_FAULT_LAST1 f.val c.val) hg hp (by omega)
  have hread := s.readReg_eq (p := .host) (off := Reg.CORE_FAULT_LAST1 f.val c.val) hm (by omega) rfl hw (by omega) (isLo_eq_false (by omega))
  rw [s.readEffect_coreFaultLast1 f.val c.isLt] at hread
  exact ⟨_, congrArg Host.Outcome.next hread, rfl, OnlyReg.of_clearValid s _ _⟩

theorem exec_frdCqHtag {f : Fin 16} (i : Fin 16) (hm : s.mode ≠ .keep) (hg : (s.frond f.val).gated = false)
    (hp : (s.frond f.val).pllOff = false) :
    exec (.frdCqHtag f i) s = .next ((s.hostTagTake f.val i.val).emit (.readData .host (s.hostTagWord f.val i.val))) := by
  have hoff : Reg.FRD_CQ_HTAG f.val i.val = 0x1005080 + f.val * 0x100000 + i.val * 4 := rfl
  have hw := s.wakeReg_clocked (off := Reg.FRD_CQ_HTAG f.val i.val) hg hp (by omega)
  have hread := s.readReg_eq (p := .host) (off := Reg.FRD_CQ_HTAG f.val i.val) hm (by omega) rfl hw (by omega) (isLo_eq_false (by omega))
  rw [s.readEffect_htag f.val i.isLt, s.valueFor_htag .host f.val i.isLt] at hread
  exact congrArg _ hread

/-- A host tag whose command is done is freed by the read that says so. -/
theorem frdCqHtag_done {f i : Fin 16} {code : Byte} (hm : s.mode ≠ .keep) (hg : (s.frond f.val).gated = false)
    (hp : (s.frond f.val).pllOff = false) (ht : Sparse.get (fun _ => TagState.free) (s.frond f.val).hostTags i.val = .done code) :
    Gives (.frdCqHtag f i) s fun u => u.out.head? = some (.readData .host (BitVec.ofNat 32 (3 * 2 ^ 30 + code.toNat))) ∧
      Sparse.get (fun _ => TagState.free) (u.frond f.val).hostTags i.val = .free := by
  refine ⟨_, exec_frdCqHtag i hm hg hp, ?_⟩
  have hword : s.hostTagWord f.val i.val = BitVec.ofNat 32 (3 * 2 ^ 30 + code.toNat) := by simp only [State.hostTagWord, ht]
  have htake : s.hostTagTake f.val i.val = s.modFrond f.val (fun fr => { fr with
      hostTags := Sparse.set (fun _ => .free) fr.hostTags i.val .free }) := by simp only [State.hostTagTake, ht]
  rw [hword, htake]
  refine ⟨rfl, ?_⟩
  show Sparse.get _ ((s.setFrond f.val _).frond f.val).hostTags i.val = .free
  rw [State.frond_setFrond, Sparse.get_set_self]

/-- A host tag that is not done stays as it is. -/
theorem frdCqHtag_other {f i : Fin 16} {x : TagState} {n : Nat} (hm : s.mode ≠ .keep) (hg : (s.frond f.val).gated = false)
    (hp : (s.frond f.val).pllOff = false) (hx : (x, n) ∈ [(TagState.free, 0), (.queued, 1), (.started, 2)])
    (ht : Sparse.get (fun _ => TagState.free) (s.frond f.val).hostTags i.val = x) :
    exec (.frdCqHtag f i) s = .next (s.emit (.readData .host (BitVec.ofNat 32 (n * 2 ^ 30)))) := by
  rw [exec_frdCqHtag i hm hg hp]
  simp only [List.mem_cons, Prod.mk.injEq, List.not_mem_nil, or_false] at hx
  rcases hx with ⟨rfl, rfl⟩ | ⟨rfl, rfl⟩ | ⟨rfl, rfl⟩ <;> simp [State.hostTagTake, State.hostTagWord, ht]

theorem exec_drcChElog2 (d : Fin 8) (hm : s.mode ≠ .keep) : exec (.drcChElog2 d) s =
    .next ((s.elogRead d.val).emit (.readData .host (s.valueFor .host (Reg.DRC_CH_ELOG2 d.val)))) := by
  have hoff : Reg.DRC_CH_ELOG2 d.val = 0x1B0018 + d.val * 0x2000 := rfl
  rw [exec_read_block rfl hm (by omega) rfl (by omega) (isLo_elog2 d.isLt), s.readEffect_elog2 d.isLt]

end

/-- Settles O48: clause by clause, each access is what the rules of access leave of it, and its side effect is its row's. -/
theorem registerAccess : Obligations.RegisterAccess := by
  intro s off v f i c d dw item q o answers
  refine ⟨fun h => ⟨exec_registerWrite_bar0 (s.writeReg_keep q o v h), exec_latchingPairRead_bar0 (s.readReg_keep q o h)⟩,
    exec_access_unseen dw item, fun h => ?_, fun hm => ?_⟩
  · refine ⟨fun hd => ⟨_, exec_registerWrite_bar4 dw h, s.bar4Write_result v hd⟩,
      fun hd => (exec_registerWrite_bar4 dw h).trans (congrArg _ (if_neg (Nat.not_lt.2 hd))),
      fun hd => (exec_latchingPairRead_bar4 dw h).trans (by rw [s.bar4Read_table hd]; rfl),
      exec_latchingPairRead_config .vendor h, exec_latchingPairRead_config .device h, exec_latchingPairRead_config .classCode h,
      (exec_latchingPairRead_config .serialLo h).trans (by rw [← lo32_eq]; rfl),
      (exec_latchingPairRead_config .serialHi h).trans (by rw [← hi32_eq]; rfl),
      fun hi => ?_,
      fun hv => (exec_registerWrite_config .maxPayload h).trans (congrArg _ (if_pos hv)),
      fun hv => (exec_registerWrite_config .maxReadRequest h).trans (congrArg _ (if_pos hv)),
      ⟨_, exec_registerWrite_config .busMaster h, s.configWrite_busMaster v⟩⟩
    refine (exec_registerWrite_config item h).trans ?_
    simp only [List.mem_cons, List.not_mem_nil, or_false] at hi
    rcases hi with rfl | rfl | rfl | rfl | rfl | rfl | rfl | rfl <;> rfl
  · refine ⟨registerWrite_misaligned hm, latchingPairRead_misaligned hm, fun r => registerWrite_rwl hm,
      fun ha hb hn hk => exec_registerWrite_bar0 (s.writeReg_noRow v hm rfl ha hb hn hk),
      fun k ha hb hn hk => ⟨_, exec_registerWrite_bar0 (s.writeReg_statusChan v hm rfl ha hb hn hk), s.chanStatus_result k v⟩,
      fun hr => exec_registerWrite_bar0 (s.writeReg_unreached v hr),
      fun hl => exec_registerWrite_bar0 (s.writeReg_tickPhase v hl),
      fun hl _ ha => latchingPairRead_lo hm ha hl,
      fun hr ha => exec_latchingPairRead_bar0 (s.readReg_unreached hm ha hr),
      ⟨⟨_, exec_read_block (off := Reg.PTP_TXTS_HI) rfl hm rfl rfl (by decide) rfl, rfl⟩,
        ⟨_, exec_read_block (off := Reg.TICK_OVR_LOG1) rfl hm rfl rfl (by decide) rfl, rfl⟩,
        ⟨_, exec_read_block (off := Reg.CHK_MLOG1 4) rfl hm rfl rfl (by decide) rfl, rfl⟩,
        ⟨_, exec_read_block (off := Reg.BLK_VIOL2) rfl hm rfl rfl (by decide) rfl, rfl⟩,
        ⟨_, exec_read_block (off := Reg.CHN_REPL_LOG) rfl hm rfl rfl (by decide) rfl, rfl⟩⟩,
      rasLog4_pops hm rfl, fun hj => ?_, fun hg hp => ⟨coreFaultLast1_clears c hm hg hp, fun code => frdCqHtag_done hm hg hp,
        fun n x => frdCqHtag_other hm hg hp⟩,
      fun he => ?_, fun w he hw => ?_⟩
    · obtain ⟨u, hu, ho, hs⟩ := rasLog4_pops (p := .jtag) hm (by simp [State.reaches, hj, Reg.RAS_LOG])
      exact ⟨u, hu, hs, ho⟩
    · refine ⟨_, exec_drcChElog2 d hm, ?_⟩
      rw [s.elogRead_single he]
      exact ⟨rfl, OnlyReg.of_clearValid s _ _⟩
    · exact ⟨_, exec_drcChElog2 d hm, rfl, s.elogRead_held he hw⟩

end Sys2Proof.Machine
end

section
/-! SUPPORT. StoreBufferEvents: bytes written to the static memories, the boundary, the end of a store-buffer wait, and the statement. -/

namespace Sys2Proof.Machine
section
variable (s : State) (t : Tid)

/-! ### Bytes of the static memories -/

theorem State.setByte_threads (a : Nat) (b : Byte) : (s.setByte a b).threads = s.threads := by
  unfold State.setByte
  split <;> rfl

@[simp] theorem State.setBytes_threads (bs : List Byte) : ∀ (s : State) (a : Nat), (s.setBytes a bs).threads = s.threads := by
  induction bs with
  | nil => exact fun _ _ => rfl
  | cons b bs ih => exact fun s a => (ih _ _).trans (s.setByte_threads a b)

@[simp] theorem State.thr_setBytes (a : Nat) (bs : List Byte) : (s.setBytes a bs).thr t = s.thr t := by
  simp only [State.thr, State.setBytes_threads]

theorem State.sram_setByte_self {a : Nat} (b : Byte) (h : 0x40000000000 ≤ a) : (s.setByte a b).sram a = b := by
  rw [State.setByte, if_neg (Nat.not_lt.2 h), State.sram_setSram]

theorem State.sram_setByte_other {a q : Nat} (b : Byte) (h : q ≠ a) : (s.setByte a b).sram q = s.sram q := by
  unfold State.setByte
  split
  · rfl
  · exact s.sram_setSram_other a q b h

/-- A write of bytes leaves every byte of the static memories before and behind them alone. -/
theorem State.sram_setBytes_outside (bs : List Byte) :
    ∀ (s : State) (a q : Nat), q < a ∨ a + bs.length ≤ q → (s.setBytes a bs).sram q = s.sram q := by
  induction bs with
  | nil => exact fun _ _ _ _ => rfl
  | cons b bs ih =>
    intro s a q h
    rw [List.length_cons] at h
    rw [State.setBytes, ih _ _ _ (by omega), s.sram_setByte_other b (by omega)]

/-- A write of bytes beyond DRAM shows each of them in the static memories. -/
theorem State.sram_setBytes_at (bs : List Byte) :
    ∀ (s : State) (a i : Nat), 0x40000000000 ≤ a → i < bs.length → (s.setBytes a bs).sram (a + i) = nth 0 bs i := by
  induction bs with
  | nil => exact fun _ _ _ _ h => absurd h (Nat.not_lt_zero _)
  | cons b bs ih =>
    intro s a i ha hi
    rw [State.setBytes]
    cases i with
    | zero => exact (State.sram_setBytes_outside bs _ _ _ (by omega)).trans (s.sram_setByte_self b ha)
    | succ i =>
      rw [show a + (i + 1) = a + 1 + i by omega]
      exact ih _ _ i (by omega) (Nat.lt_of_succ_lt_succ hi)

/-! ### The boundary, and the end of a wait -/

@[simp] theorem State.mem_spend (n : Nat) : (s.spend t n).mem = s.mem := by
  rw [State.spend_eq]

@[simp] theorem State.mem_boundary : (s.boundary t).mem = s.mem := by
  simp only [State.boundary]
  split
  · rfl
  · split <;> rfl

/-- Of a thread, the boundary moves its debug halt only. -/
theorem State.thr_boundary : (s.boundary t).thr t = { s.thr t with
    halted := ((s.boundary t).thr t).halted
    haltReq := ((s.boundary t).thr t).haltReq
    stepping := ((s.boundary t).thr t).stepping
    haltReason := ((s.boundary t).thr t).haltReason
    haltHost := ((s.boundary t).thr t).haltHost
    skipBp := ((s.boundary t).thr t).skipBp } := by
  simp only [State.boundary]
  split
  · simp [State.halt]
  · split
    · simp [State.halt]
    · rfl

@[simp] theorem Thread.addSlots_stack (th : Thread) (n : Nat) : (th.addSlots n).stack = th.stack := by
  rw [Thread.addSlots_eq]

theorem State.spendWait_eq : s.spendWait t = s.draw.2.modThr t (fun th => th.addSlots (s.draw.1.toNat % (th.waitMost + 1))) := rfl

/-- A wait that ends pushes its result and sets the thread running; no memory moves. -/
theorem State.finishWait_result (res : List Word) :
    ((s.finishWait t res).thr t).run = .running ∧ ((s.finishWait t res).thr t).stack = res ++ (s.thr t).stack ∧
      (s.finishWait t res).mem = s.mem := by
  simp only [State.finishWait, State.mem_boundary, State.mem_spend]
  generalize hx : (s.spendWait t).modThr t _ = x
  generalize ((s.spendWait t).thr t).seqCost _ = n
  obtain ⟨k, -, -, hk⟩ := x.thr_spend t n
  rw [State.thr_boundary, hk, Thread.addSlots_eq, ← hx]
  simp [Thread.goSeq, State.spendWait_eq]

/-- A store-buffer wait performs its instruction and ends exactly when its condition is met. -/
theorem State.endMemWait_eq {c : MemCond} {op : PendOp} (h : (s.thr t).run = .waiting (.mem c op)) :
    s.endMemWait t = if c.met (s.thr t).storeBuf then (s.performOp t op).1.finishWait t (s.performOp t op).2 else s := by
  simp only [State.endMemWait, h]

theorem exec_storeLeave_running {e : StoreEntry} {rest : List StoreEntry} (hb : (s.thr t).storeBuf = e :: rest)
    (hr : (s.thr t).run = .running) :
    exec (.storeLeave t) s = .next ((s.setBytes e.dev e.bytes).modThr t (fun th => { th with storeBuf := rest })) := by
  have hx : exec (.storeLeave t) s = execStoreLeave t s := rfl
  simp [hx, execStoreLeave, State.endMemWait, hb, hr]

theorem exec_drainEnd_draining {op : PendOp} (h : (s.thr t).run = .waiting (.mem .drain op)) :
    exec (.drainEnd t) s = .next (s.endMemWait t) := by
  have hx : exec (.drainEnd t) s = execDrainEnd t s := rfl
  simp only [hx, execDrainEnd, h]

end

/-- Settles O10: the entry's bytes are one write, which shows inside and nowhere else; the FENCE waits for the condition of a drain, an empty
buffer. -/
theorem storeBufferEvents : Obligations.StoreBufferEvents := by
  intro s t e rest
  refine ⟨fun hb hr ha => ?_, fun hb hr _ => ?_, fun hb hr => ?_⟩
  · refine ⟨_, exec_storeLeave_running s t hb hr, by simp, fun i hi => ?_, fun b h => ?_, fun v hv => ?_⟩
    · exact State.sram_setBytes_at e.bytes s e.dev i ha hi
    · exact State.sram_setBytes_outside e.bytes s e.dev b h
    · rw [State.thr_modThr_other _ _ _ _ hv, State.thr_setBytes]
  · have hend : s.endMemWait t = s.finishWait t [] := by
      rw [s.endMemWait_eq t hr, hb]
      rfl
    exact ⟨_, exec_drainEnd_draining s t hr, hend ▸ s.finishWait_result t []⟩
  · rw [exec_drainEnd_draining s t hr, s.endMemWait_eq t hr, hb]
    rfl

end Sys2Proof.Machine
end

section
/-! SUPPORT. EventEntry: the entry to an event's handler, its undoing by EVRET, and the thread for which the statement fails. -/

namespace Sys2Proof.Machine
section
variable {s u v : State} {t : Tid} {n : Nat}

/-! ### The event -/

/-- The pending event is the lowest of 1 to 15 that is pending and enabled (R132). -/
theorem Thread.pendingEvent_eq_some {th : Thread} (h : th.pendingEvent = some n) :
    1 ≤ n ∧ n < 16 ∧ (th.evpend &&& th.evmask).getLsbD n = true ∧
      ∀ k, 1 ≤ k → k < n → (th.evpend &&& th.evmask).getLsbD k = false := by
  simp only [Thread.pendingEvent, upTo, List.find?_range_eq_some, List.mem_range, Bool.and_eq_true, decide_eq_true_eq] at h
  obtain ⟨⟨h1, hbit⟩, h16, hlow⟩ := h
  exact ⟨h1, h16, hbit, fun k hk hkn => by simpa only [hk, decide_true, Bool.true_and, Bool.not_eq_true'] using hlow k hkn⟩

/-- A running thread that may take an event has a role, no halt, no handler. -/
theorem State.mayTakeEvent_running (h : s.mayTakeEvent t = true) (hr : (s.thr t).run = .running) :
    s.mode.threadsRun = true ∧ (s.thr t).role ≠ .idle ∧ (s.thr t).halted = false ∧ (s.thr t).haltReq = false ∧
      (s.thr t).inHandler = false ∧ (s.core (coreKey t)).fenced = false ∧ (s.frond (tidF t)).fenced = false := by
  simpa [State.mayTakeEvent, hr, and_assoc, and_comm, and_left_comm] using h

theorem Thread.inHandler_eq_false {th : Thread} : th.inHandler = false ↔ th.handler = none ∧ th.faultFrame = none := by
  simp [Thread.inHandler]

/-! ### The entry -/

theorem exec_eventEntry (t : Tid) (s : State) : exec (.eventEntry t) s = execEventEntry t s := rfl

/-- Without an event to take the entry changes nothing. -/
theorem exec_eventEntry_none (h : (s.thr t).pendingEvent = none ∨ s.mayTakeEvent t = false) : exec (.eventEntry t) s = .next s := by
  rw [exec_eventEntry, execEventEntry]
  split
  next m hm =>
    have hno : s.mayTakeEvent t = false := h.resolve_left (by simp [hm])
    simp [hno]
  next => rfl

/-- A breakpoint on the thread's next instruction halts it before the event (R498). -/
theorem exec_eventEntry_break (hp : (s.thr t).pendingEvent = some n) (hm : s.mayTakeEvent t = true) (hr : (s.thr t).run = .running)
    (hb : s.breakHere t = true) : exec (.eventEntry t) s = .next (s.halt t 2) := by
  simp [exec_eventEntry, execEventEntry, State.breaksFirst, hp, hm, hr, hb]

theorem exec_eventEntry_enter (hp : (s.thr t).pendingEvent = some n) (hm : s.mayTakeEvent t = true) (hb : s.breakHere t = false) :
    exec (.eventEntry t) s = .next ((s.enterEvent t n).boundary t) := by
  simp [exec_eventEntry, execEventEntry, State.breaksFirst, hp, hm, hb]

/-- The thread in the handler of event n, `slots` its slots (R135). -/
def Thread.entered (th : Thread) (n : Nat) (vec : Pc) (slots : Nat) : Thread := { th with
  evpend := th.evpend &&& ~~~(1#16 <<< n)
  handler := some n
  frame := some th.record
  loops := []
  repc := 0
  repact := false
  slots := slots
  skipBp := false
  pc := vec }

/-- A running thread's entry takes 5 slots, whatever hidden record it held before. -/
theorem State.thr_enterEvent (n : Nat) (hr : (s.thr t).run = .running) :
    ∃ k ≤ 5, ((s.core (coreKey t)).elastic = false → k = 5) ∧
      (s.enterEvent t n).thr t = (s.thr t).entered n (s.vector t n) (satAdd 0xFFFFFFFF (s.thr t).slots k) := by
  simp only [State.enterEvent]
  generalize hx : s.setThr t _ = x
  obtain ⟨k, hk, hs, ht⟩ := x.thr_spend t 5
  refine ⟨k, hk, by rw [← hx] at hs; exact hs, ?_⟩
  rw [ht, ← hx]
  simp [Thread.addSlots, Thread.outOfRun, Thread.record, Thread.entered, Thread.clearLoops, hr]

theorem State.thr_enterEvent_other {w : Tid} (n : Nat) (h : w ≠ t) : (s.enterEvent t n).thr w = s.thr w := by
  rw [State.enterEvent, State.thr_spend_other _ _ _ _ h, State.thr_setThr_other _ _ _ _ h]

/-- The entry moves threads, fronds and the count of free values only. -/
theorem State.enterEvent_eq (n : Nat) : s.enterEvent t n = { s with
    threads := (s.enterEvent t n).threads
    fronds := (s.enterEvent t n).fronds
    draws := (s.enterEvent t n).draws } := by
  simp only [State.enterEvent]
  rw [State.spend_eq]
  rfl

@[simp] theorem State.mode_enterEvent (n : Nat) : (s.enterEvent t n).mode = s.mode := by
  rw [State.enterEvent_eq]

@[simp] theorem State.core_enterEvent (n k : Nat) : (s.enterEvent t n).core k = s.core k := by
  rw [State.enterEvent_eq]
  rfl

@[simp] theorem State.gated_spend (k f : Nat) : ((s.spend t k).frond f).gated = (s.frond f).gated := by
  rw [State.spend_frond]
  split <;> rfl

@[simp] theorem State.fenced_spend (k f : Nat) : ((s.spend t k).frond f).fenced = (s.frond f).fenced := by
  rw [State.spend_frond]
  split <;> rfl

/-- A running thread that has taken its event may issue the handler's first instruction. -/
theorem State.canIssue_enterEvent (n : Nat) (hm : s.mayTakeEvent t = true) (hr : (s.thr t).run = .running)
    (hg : (s.frond (tidF t)).gated = false) : (s.enterEvent t n).canIssue t = true := by
  obtain ⟨hmode, hrole, hhalt, hreq, -, hfc, hff⟩ := State.mayTakeEvent_running hm hr
  obtain ⟨k, -, -, ht⟩ := State.thr_enterEvent n hr
  have hgated : ((s.enterEvent t n).frond (tidF t)).gated = false := (State.gated_spend 5 _).trans hg
  have hfenced : ((s.enterEvent t n).frond (tidF t)).fenced = false := (State.fenced_spend 5 _).trans hff
  simp [State.canIssue, Thread.inHandler, Thread.entered, *]

/-- What EventEntry says of the entry, but for its Took: SLOTS advances by the slots taken, whatever hidden record the thread held. -/
theorem eventEntry_enters (hp : (s.thr t).pendingEvent = some n) (hm : s.mayTakeEvent t = true) (hr : (s.thr t).run = .running)
    (hb : s.breakHere t = false) :
    Gives (.eventEntry t) s fun u => u.thr t = { (s.thr t).entered n (s.vector t n) (u.thr t).slots with
        halted := (s.thr t).stepping
        stepping := false
        haltReason := (u.thr t).haltReason
        haltHost := (u.thr t).haltHost } ∧
      (∃ k ≤ 5, ((s.core (coreKey t)).elastic = false → k = 5) ∧ (u.thr t).slots = satAdd 0xFFFFFFFF (s.thr t).slots k) ∧
      u.mem = s.mem ∧ u.regs = s.regs ∧ OthersKept s u t := by
  obtain ⟨-, -, hhalt, hreq, -⟩ := State.mayTakeEvent_running hm hr
  obtain ⟨k, hk, hs, ht⟩ := State.thr_enterEvent n hr
  obtain ⟨um, uo, ut⟩ := (s.enterEvent t n).boundary_thread t (by rw [ht]; exact hreq) (by rw [ht]; exact hhalt)
  rw [ht] at ut
  refine ⟨_, exec_eventEntry_enter hp hm hb, ?_, ⟨k, hk, hs, ?_⟩, ?_, ?_, fun w hw => ?_⟩
  · rw [ut]
    rfl
  · rw [ut]
    rfl
  · rw [um, State.enterEvent_eq]
  · rw [um, State.enterEvent_eq]
  · rw [uo w hw, State.thr_enterEvent_other n hw]

/-- The first half of EventEntry, of a thread that holds no record of an idle thread while it runs. -/
theorem eventEntry_results (ho : (s.thr t).outOfRun = false) :
    ((s.thr t).pendingEvent = some n → s.mayTakeEvent t = true → (s.thr t).run = .running → s.breakHere t = true →
      Gives (.eventEntry t) s fun u => (u.thr t).halted = true ∧ (u.thr t).haltReason = 2 ∧
        (u.thr t).evpend = (s.thr t).evpend ∧ (u.thr t).pc = (s.thr t).pc ∧ u.mem = s.mem ∧ OthersKept s u t) ∧
    ((s.thr t).pendingEvent = some n → s.mayTakeEvent t = true → (s.thr t).run = .running → s.breakHere t = false →
      1 ≤ n ∧ n < 16 ∧ ((s.thr t).evpend &&& (s.thr t).evmask).getLsbD n = true ∧
      (∀ k, 1 ≤ k → k < n → ((s.thr t).evpend &&& (s.thr t).evmask).getLsbD k = false) ∧
      Gives (.eventEntry t) s fun u => u.thr t = { (s.thr t).entered n (s.vector t n) (u.thr t).slots with
        halted := (s.thr t).stepping
        stepping := false
        haltReason := (u.thr t).haltReason
        haltHost := (u.thr t).haltHost } ∧ Took s u t 5 ∧ u.mem = s.mem ∧ u.regs = s.regs ∧ OthersKept s u t) ∧
    ((s.thr t).pendingEvent = none ∨ s.mayTakeEvent t = false → exec (.eventEntry t) s = .next s) := by
  refine ⟨fun hp hm hr hb => ?_, fun hp hm hr hb => ?_, exec_eventEntry_none⟩
  · exact ⟨_, exec_eventEntry_break hp hm hr hb, by simp [State.halt], by simp [State.halt], by simp [State.halt], by simp [State.halt], rfl,
      fun w hw => State.thr_modThr_other _ _ _ _ hw⟩
  · obtain ⟨h1, h16, hbit, hlow⟩ := Thread.pendingEvent_eq_some hp
    obtain ⟨u, hu, hthr, ⟨k, hk, hs, hslots⟩, hrest⟩ := eventEntry_enters hp hm hr hb
    exact ⟨h1, h16, hbit, hlow, u, hu, hthr, ⟨k, hk, hs, by rw [hslots, Thread.addSlots_slots, ho]; rfl⟩, hrest⟩

/-! ### The return -/

/-- A ready thread's instruction that has by itself charged its slots and set where the thread goes on. -/
theorem State.issue_own {len : Nat} {op : State → Res} {s2 : State} (h : s.Ready t)
    (hop : op (s.modThr t (fun th => { th with skipBp := false })) = .own s2) : s.issue t len op = s2 := by
  obtain ⟨hc, hb, hr⟩ := h
  have hz : ((s.thr t).repact && decide ((s.thr t).repc = 0)) = false := by
    cases e : (s.thr t).repact
    · rfl
    · simpa [e] using hr e
  simp [State.issue, hc, hb, hz, hop]

/-- The thread gone back from its event handler to what record fr holds of a run (R137). -/
def Thread.returned (th : Thread) (fr : HFrame) : Thread := { th with
  pc := fr.pc
  callDepth := fr.callDepth
  loops := fr.loops
  repc := fr.repc
  repact := fr.repact
  run := .running
  faultFrame := none
  frame := none
  handler := none }

/-- The return from an event handler to a run takes 4 slots. -/
theorem State.thr_restoreFrame {fr : HFrame} (hi : fr.idle = false) (he : (s.core (coreKey t)).elastic = false) :
    (s.restoreFrame t fr false).thr t = ((s.thr t).addSlots 4).returned fr := by
  obtain ⟨k, -, hk, ht⟩ := s.thr_charge t 4
  rw [hk he] at ht
  simp [State.restoreFrame, State.beginWaiting, Thread.returned, hi, ht]

/-- On a running thread without a handler the return undoes the entry, but for the pending bit and the slots. -/
theorem Thread.returned_entered {th : Thread} (vec : Pc) (slots : Nat) (hr : th.run = .running) (hf : th.frame = none)
    (hin : th.inHandler = false) : ((th.entered n vec slots).addSlots 4).returned th.record = { th with
      evpend := th.evpend &&& ~~~(1#16 <<< n)
      skipBp := false
      slots := satAdd 0xFFFFFFFF slots 4 } := by
  obtain ⟨hh, hflt⟩ := Thread.inHandler_eq_false.1 hin
  simp [Thread.addSlots, Thread.outOfRun, Thread.entered, Thread.returned, Thread.record, hr, hf, hh, hflt]

/-- EVRET of an event's handler at the depth of its record, with no event pending: the return (R137). -/
theorem exec_evret_return {fr : HFrame} (h : s.Ready t) (hf : (s.thr t).faultFrame = none) (hfr : (s.thr t).frame = some fr)
    (hd : (s.thr t).stack.length = fr.depth) (hp : (s.thr t).pendingEvent = none) : exec (.evret t 0) s =
    .next (((s.modThr t (fun th => { th with skipBp := false })).restoreFrame t fr false).boundary t) := by
  refine congrArg Host.Outcome.next (State.issue_own h ?_)
  generalize hx : s.modThr t (fun th => { th with skipBp := false }) = x
  have hth : x.thr t = { s.thr t with skipBp := false } := by rw [← hx, State.thr_modThr]
  have hf' : (x.thr t).faultFrame = none := by rw [hth, hf]
  have hfr' : (x.thr t).frame = some fr := by rw [hth, hfr]
  have hd' : (x.thr t).stack.length = fr.depth := by rw [hth, hd]
  have hp' : (x.thr t).pendingEvent = none := by rw [hth]; exact hp
  simp [hf', hfr', hd', hp']

/-- The second half of EventEntry: the entry to an event's handler and its EVRET undo each other. -/
theorem evret_undoes_eventEntry (hp : (s.thr t).pendingEvent = some n) (hm : s.mayTakeEvent t = true) (hr : (s.thr t).run = .running)
    (hs : (s.thr t).stepping = false) (hf : (s.thr t).frame = none) (he : (s.core (coreKey t)).elastic = false)
    (hg : (s.frond (tidF t)).gated = false) (hb : s.breakHere t = false) (hu : exec (.eventEntry t) s = .next u)
    (hq : (u.thr t).pendingEvent = none) (hub : u.breakHere t = false) (hv : exec (.evret t 0) u = .next v) :
    v.thr t = { s.thr t with
      evpend := (s.thr t).evpend &&& ~~~(1#16 <<< n)
      skipBp := false
      slots := satAdd 0xFFFFFFFF (s.thr t).slots 9 } := by
  obtain ⟨-, -, -, hreq, hin, -, -⟩ := State.mayTakeEvent_running hm hr
  obtain ⟨-, hflt⟩ := Thread.inHandler_eq_false.1 hin
  obtain ⟨k, -, hk, ht⟩ := State.thr_enterEvent n hr
  rw [hk he] at ht
  rw [exec_eventEntry_enter hp hm hb, State.boundary_eq _ _ (by rw [ht]; exact hreq), ht] at hu
  obtain rfl : s.enterEvent t n = u := by simpa [Thread.entered, hs] using hu
  have hready : (s.enterEvent t n).Ready t :=
    ⟨State.canIssue_enterEvent n hm hr hg, hub, fun hrep => by simp [ht, Thread.entered] at hrep⟩
  have hrun : (s.thr t).record.depth = (s.thr t).stack.length ∧ (s.thr t).record.idle = false := by simp [Thread.record, hr]
  rw [exec_evret_return hready (by rw [ht]; exact hflt) (by rw [ht]; rfl) (by rw [ht]; exact hrun.1.symm) hq] at hv
  have hback := State.thr_restoreFrame (s := (s.enterEvent t n).modThr t (fun th => { th with skipBp := false })) hrun.2
    (by simpa using he)
  have hundone := (s.thr t).returned_entered (n := n) (s.vector t n) (satAdd 0xFFFFFFFF (s.thr t).slots 5) hr hf hin
  rw [State.thr_modThr, ht] at hback
  replace hback := hback.trans hundone
  rw [State.boundary_eq _ _ (by rw [hback]; exact hreq), hback, hs] at hv
  obtain rfl := Host.Outcome.next.inj hv
  simpa [satAdd_satAdd] using hback

/-! ### The counterexample -/

/-- A running thread with event 3 pending, outside any handler, that holds the hidden record of an idle thread. -/
def staleThread : Thread := { Thread.reset with
  role := .packet
  run := .running
  evpend := 8
  evmask := 9
  frame := some ⟨0, 0, 0, [], 0, false, true⟩ }

/-- The device in RUN, thread 0.0.0 as above. -/
def staleRecord : State := { State.reset with
  mode := .run
  threads := [(0, staleThread)] }

end

/-- Refutes O25: in staleRecord the hidden record says that the thread's run is over, so that Took wants SLOTS to stand at 0; the entry puts the
record of the running thread in its place first, and SLOTS is 5. The statement lacks the premise on the hidden record: with it the first half is
`eventEntry_results`, and the second half, which has it, is `evret_undoes_eventEntry`. -/
theorem not_eventEntry : ¬ Obligations.EventEntry := by
  intro h
  have hthr : staleRecord.thr 0 = staleThread := rfl
  obtain ⟨hp, hm, hr, hb, he⟩ : (staleRecord.thr 0).pendingEvent = some 3 ∧ staleRecord.mayTakeEvent 0 = true ∧
      (staleRecord.thr 0).run = .running ∧ staleRecord.breakHere 0 = false ∧ (staleRecord.core (coreKey 0)).elastic = false := by
    decide +kernel
  obtain ⟨-, -, -, -, u, hu, -, ⟨j, -, -, htook⟩, -⟩ := (h.1 staleRecord 0 3).2.1 hp hm hr hb
  obtain ⟨w, hw, -, ⟨k, -, hk, hslots⟩, -⟩ := eventEntry_enters hp hm hr hb
  obtain rfl : u = w := Host.Outcome.next.inj (hu.symm.trans hw)
  have hno : (staleThread.addSlots j).slots = 0 := by rw [Thread.addSlots_slots]; rfl
  rw [hslots, hthr, hk he, hno] at htook
  exact absurd htook (by decide)

end Sys2Proof.Machine
end

section
/-! SUPPORT. LockRequests: a lock unit that tracks a word twice, for which the statement fails. -/

namespace Sys2Proof.Machine

/-- Thread 0.0.0 is a PACKET thread with the address of a lock word on its stack; thread 0.0.1 runs task 9 at priority 3. -/
def lockThreads : Sparse Thread := [
  (0, { Thread.reset with
    role := .packet
    run := .running
    stack := [0x100000] }),
  (1, { Thread.reset with
    role := .task
    run := .running
    task := some 9 })]

/-- Entry number `slot` of frond 0's lock unit: task 9 holds the lock on the word 0x100000, for which nobody waits. -/
def entryOfTask9 (slot : Nat) : LockEntry := ⟨slot, 0x100000, 1, 3, some 9, false, []⟩

/-- The device in RUN, with entries 0 and 1 of frond 0's lock unit both on the word 0x100000. -/
def trackedTwice : State := { State.reset with
  mode := .run
  threads := lockThreads
  fronds := [(0, { Frond.reset with
    locks := [entryOfTask9 0, entryOfTask9 1]
    tasks := [(9, { Task.reset with
      state := .running
      eff := 3
      thread := 1 })] })] }

/-- trackedTwice meets every premise of the inheritance clause for thread 0.0.0, task 9 and entry 0. -/
theorem trackedTwice_inherits : trackedTwice.Ready 0 ∧ (trackedTwice.thr 0).stack = [0x100000] ∧ lockAddrOk 0x100000 = true ∧
    trackedTwice.lockShare 0 = true ∧ trackedTwice.lockEntry 0 0x100000 = some (entryOfTask9 0) ∧
    (entryOfTask9 0).prio < trackedTwice.lockPrio 0 ∧ lockIsDev 0x100000 = false ∧
    (∀ x ∈ (trackedTwice.frond 0).locks ++ trackedTwice.dlocks, x.addr ≠ 0x100000 → x.task ≠ some 9) ∧
    (trackedTwice.thr 1).run = .running := by
  unfold State.Ready
  decide +kernel

/-- The lock that a word has after a command. -/
def entryAfter (c : Instr) (s : State) (f : Nat) (a : Word) : Option LockEntry :=
  match exec c s with
  | .next u => u.lockEntry f a
  | _ => none

/-- The raise writes each entry of the task over every entry of its word, so that the word is left with the last of them, number 1. -/
theorem trackedTwice_lock : entryAfter (.lock 0 0) trackedTwice 0 0x100000 = some { entryOfTask9 1 with
    prio := 32
    waiters := [0] } := by
  decide +kernel

/-- Refutes O21: in trackedTwice the word's lock is entry 0, which the inheritance clause wants back with its priority raised and the request
queued; the LOCK leaves entry 1 in its place. The premises speak of the task's other words only: they do not say that the unit tracks
the word once. -/
theorem not_lockRequests : ¬ Obligations.LockRequests := by
  intro h
  obtain ⟨hready, hstack, haddr, hshare, hentry, hprio, hdev, hother, hrun⟩ := trackedTwice_inherits
  obtain ⟨-, -, -, -, htracked⟩ := h.1 trackedTwice 0 0x100000 [] hready hstack (by decide)
  obtain ⟨-, -, hraise⟩ := htracked (entryOfTask9 0) haddr hshare hentry
  have hawake (w : Word) : (trackedTwice.thr 1).run ≠ .waiting (.lock w) := fun hw => nomatch hrun.symm.trans hw
  obtain ⟨u, hu, -, -, -, hkept, -⟩ := hraise 9 hprio rfl (by decide) rfl hdev hother hawake
  have hleft : u.lockEntry 0 0x100000 = some { entryOfTask9 1 with
      prio := 32
      waiters := [0] } := by
    simpa only [entryAfter, hu] using trackedTwice_lock
  have hslot : (0 : Nat) = 1 := congrArg LockEntry.slot (Option.some.inj (hkept.symm.trans hleft))
  exact absurd hslot (by decide)

end Sys2Proof.Machine
end

section
/-! SUPPORT. TaskResults: TREADY of a task whose level is full, for which the statement fails. -/

namespace Sys2Proof.Machine
section
variable {s : State} {t : Tid} {f id : Nat} {r : List Word}

/-- A full level refuses a task that is not DORMANT too (R189, last row). -/
theorem State.tready_full (hd : (s.task f id).state ≠ .dormant) (hl : s.levelRoom f (prioLevel (s.task f id).eff) = false) :
    s.tready f id = (s.bump (Reg.FRD_TSK_REFUSED f (prioLevel (s.task f id).eff)), 4) := by
  simp [State.tready, hd, hl]

@[simp] theorem State.thr_bump (off n : Nat) : (s.bump off n).thr t = s.thr t := rfl

@[simp] theorem Thread.advance_stack (th : Thread) (len : Nat) : (th.advance len).stack = th.stack := by
  rw [Thread.advance_eq]

@[simp] theorem State.stack_charge (n : Nat) : ((s.charge t n).thr t).stack = (s.thr t).stack := by
  obtain ⟨k, -, -, h⟩ := s.thr_charge t n
  rw [h, Thread.addSlots_stack]

@[simp] theorem State.stack_boundary : ((s.boundary t).thr t).stack = (s.thr t).stack := by
  rw [State.thr_boundary]

@[simp] theorem State.task_modThr (g : Thread → Thread) : (s.modThr t g).task f id = s.task f id := by
  simp only [State.task, State.frond_modThr]

@[simp] theorem State.levelRoom_modThr (g : Thread → Thread) (l : Nat) : (s.modThr t g).levelRoom f l = s.levelRoom f l := by
  have h : (s.modThr t g).readyList f l = s.readyList f l := by simp only [State.readyList, State.frond_modThr]
  rw [State.levelRoom, h]
  rfl

/-- A ready thread's TREADY pushes the scheduler's answer (R189). -/
theorem tready_pushes {u : State} {w : Word} (hs : s.Ready t) (hst : (s.thr t).stack = BitVec.ofNat 32 id :: r) (hr : r.length < 16)
    (hid : id < 1024) (hu : (s.modThr t (fun th => { th with skipBp := false })).tready (tidF t) id = (u, w))
    (hth : (u.thr t).stack = (s.thr t).stack) :
    Gives (.tready t 0) s fun v => (v.thr t).stack = w :: r := by
  refine ⟨_, congrArg Host.Outcome.next (State.issue_next s t 1 2 _ (u.setTop t 1 [w]) hs ?_), by simp [State.setTop, hth, hst]⟩
  have hstack : ((s.modThr t (fun th => { th with skipBp := false })).thr t).stack = BitVec.ofNat 32 id :: r := by rw [State.thr_modThr, hst]
  generalize s.modThr t (fun th => { th with skipBp := false }) = x at hu hstack
  have hn : (BitVec.ofNat 32 id).toNat = id := (BitVec.toNat_ofNat id 32).trans (Nat.mod_eq_of_lt (by omega))
  have hrange : ¬ 1023 < id := by omega
  have hfit : ¬ 16 < r.length + 1 := by omega
  simp [State.stackOp, hstack, hfit, nth, hn, hrange, hu]

/-- A full level refuses the TREADY of any task but a DORMANT one. -/
theorem tready_refused (hs : s.Ready t) (hst : (s.thr t).stack = BitVec.ofNat 32 id :: r) (hr : r.length < 16) (hid : id < 1024)
    (hd : (s.task (tidF t) id).state ≠ .dormant) (hl : s.levelRoom (tidF t) (prioLevel (s.task (tidF t) id).eff) = false) :
    Gives (.tready t 0) s fun u => (u.thr t).stack = 4 :: r := by
  refine tready_pushes hs hst hr hid (State.tready_full ?_ ?_) ?_
  · rwa [State.task_modThr]
  · rwa [State.task_modThr, State.levelRoom_modThr]
  · rw [State.thr_bump, State.thr_modThr]

/-! ### The counterexample -/

/-- Thread 0.0.0 is a PACKET thread with the number of task 1023 on its stack; thread 0.0.1 runs that task. -/
def readyThreads : Sparse Thread := [
  (0, { Thread.reset with
    role := .packet
    run := .running
    stack := [1023] }),
  (1, { Thread.reset with
    role := .task
    run := .running
    task := some 1023 })]

/-- The device in RUN: of frond 0, tasks 0 to 63 stand READY in level 0, and task 1023, of that level too, runs. -/
def fullLevel : State := { State.reset with
  mode := .run
  threads := readyThreads
  fronds := [(0, { Frond.reset with
    ready := [(0, upTo 64)]
    tasks := (upTo 64).map (fun id => (id, { Task.reset with state := .ready })) ++ [(1023, { Task.reset with
      state := .running
      thread := 1 })] })] }

/-- fullLevel meets the premises of the clause on a RUNNING task for thread 0.0.0 and task 1023, whose level is full. -/
theorem fullLevel_facts : fullLevel.Ready 0 ∧ (fullLevel.thr 0).stack = [1023] ∧ (fullLevel.task 0 1023).state = .running ∧
    fullLevel.levelRoom 0 (prioLevel (fullLevel.task 0 1023).eff) = false := by
  unfold State.Ready
  decide +kernel

end

/-- Refutes O23: in fullLevel task 1023 is RUNNING, for which the statement has TREADY push OK; its level holds 64 entries, so that the last row of
R189, and the model, push REFUSED. The clauses for RUNNING and READY lack the premise that the level has room, which the one for DORMANT
has. -/
theorem not_taskResults : ¬ Obligations.TaskResults := by
  intro h
  obtain ⟨hready, hstack, hrunning, hfull⟩ := fullLevel_facts
  obtain ⟨hok, -⟩ := (h fullLevel 0 1023 []).1 hready hstack (by decide) (by decide)
  obtain ⟨u, hu, husays, -⟩ := hok hrunning
  obtain ⟨v, hv, hvsays⟩ := tready_refused hready hstack (by decide) (by decide) (fun hd => nomatch hrunning.symm.trans hd)
    hfull
  obtain rfl : u = v := Host.Outcome.next.inj (hu.symm.trans hv)
  exact absurd (husays.symm.trans hvsays) (by decide)

end Sys2Proof.Machine
end

section
/-! SUPPORT. CommandStart: a VOTE_EVAL that resets a thread with a queued command, for which the statement fails. -/

namespace Sys2Proof.Machine

/-- A command of a thread in its first epoch, queued with NO_RESULT and words 2 to 7 of its descriptor. -/
def queuedOf (t : Tid) (kind opcode : Nat) (operands : List Word) : Cmd :=
  ⟨.thread t 0 0, kind, BitVec.ofNat 32 (kind + opcode * 256 + 2 ^ 17) :: 0 :: operands, 0, .queued, 0, 0, false, 0, 0, 0, false⟩

/-- Thread 0.0.1's COPY of 64 bytes within common memory. -/
def waitingCopy : Cmd := queuedOf 1 1 1 [0, 0x8010, 0x100, 0x8010, 64, 0]

/-- Thread 0.0.0's evaluation of vote group 5. -/
def evalGroup5 : Cmd := queuedOf 0 4 5 [5, 0, 0, 0, 0, 0]

/-- A running PACKET thread whose first command, under tag 0, is QUEUED. -/
def submitter : Thread := { Thread.reset with
  role := .packet
  run := .running
  tags := Thread.reset.tags.set 0 .queued }

/-- A submitter that waits, in its FAULT handler, for a message of device channel 0, to be put at 0x20000, where no memory is. -/
def faultReader : Thread := { submitter with
  faultFrame := some ⟨0, 0, 0, [], 0, false, false⟩
  run := .waiting (.chr 1024 0x20000) }

/-- A valid unsigned signal of quality GOOD that was given its value in an earlier tick. -/
def goodSignal (v : DWord) : Sig := { Sig.reset with
  value := v
  quality := qGood
  old := true
  valid := true }

/-- Group 5 compares the pair of signals 0 and 1, with threshold 0, into signal 2, and reports their first discrepancy. -/
def pairGroup5 : Sparse Word := [(recKey .vote 5 0, 0x02480002), (recKey .vote 5 2, 1), (recKey .vote 5 6, 1)]

/-- The device in RUN: both commands are queued in frond 0, signals 0 and 1 differ, and SIG_VOTE_CFG sends reports to device channel 0. -/
def reportResets : State := { State.reset with
  mode := .run
  threads := [(0, submitter), (1, faultReader)]
  fronds := [(0, { Frond.reset with queues := [waitingCopy, evalGroup5] })]
  chans := [(1024, { Channel.reset with readers := [1] })]
  regs := [(Reg.SIG_VOTE_CFG, 0x80000000)]
  recs := pairGroup5
  sg := { SigUnit.reset with entries := [(0, goodSignal 0), (1, goodSignal 1), (2, goodSignal 0)] } }

/-- The commands that stand queued in a frond after a command. -/
def queuesAfter (c : Instr) (s : State) (f : Nat) : Option (List Cmd) :=
  match exec c s with
  | .next u => some (u.frond f).queues
  | _ => none

/-- reportResets meets every premise of the VOTE_EVAL clause for frond 0 and thread 0.0.0's command, whose group R356 admits. -/
theorem reportResets_facts : (reportResets.frond 0).fencedKinds = 0 ∧ reportResets.headCmd 0 4 = some evalGroup5 ∧
    reportResets.sigCheck 0 evalGroup5 = none ∧ evalGroup5.opcode = 5 ∧
    reportResets.groupOk ((upTo 8).map (reportResets.recW .vote 5)) = true := by
  decide +kernel

/-- The report's message reaches the reader, whose FAULT in its FAULT handler resets it, so that its COPY leaves the queue (R134, R210). -/
theorem reportResets_voteEval : queuesAfter (.voteEval 0) reportResets 0 = some [] := by
  decide +kernel

/-- Refutes O45: in reportResets the VOTE_EVAL clause wants the queue of frond 0 as it was but for the VOTE_EVAL, so with the COPY of thread 0.0.1
still in it. The evaluation reports a discrepancy (R358); the channel it reports to has that thread as its reader, which takes the FAULT of
its CHR in its FAULT handler and is reset (R134), and a reset removes the queued commands of the thread (R210). The clause lacks the
premise that the report resets no thread with a command in the queue. -/
theorem not_commandStart : ¬ Obligations.CommandStart := by
  intro h
  obtain ⟨hfenced, hhead, hcheck, hop, -⟩ := reportResets_facts
  obtain ⟨-, -, hstart⟩ := h.1 reportResets 0 false none 0 evalGroup5
  obtain ⟨-, -, -, -, -, -, -, -, hact⟩ := hstart hfenced
  obtain ⟨-, -, -, -, hvote⟩ := hact hhead hcheck
  obtain ⟨u, hu, -, -, hqueues⟩ := hvote hop
  have hleft : (u.frond 0).queues = [] := by
    simpa only [queuesAfter, hu, Option.some.injEq] using reportResets_voteEval
  have hkept : dropHead 4 (reportResets.frond 0).queues = [waitingCopy] := by decide +kernel
  exact List.cons_ne_nil _ _ (hkept.symm.trans (hqueues.symm.trans hleft))

end Sys2Proof.Machine
end
